-- ==== Sys2Proof/Word.lean ====
section
/-! DEFINITION. The machine words of the part: bytes, wire fields, sensor samples. -/

namespace Sys2Proof

/-- A byte of a message, of a proof pixel, of a tone table or of the frame store. -/
abbrev Byte := BitVec 8

/-- A two-byte field of a message (R197). -/
abbrev Half := BitVec 16

/-- A four-byte field of a message (R197). -/
abbrev Word := BitVec 32

/-- One 14-bit sensor sample (R14). -/
abbrev Sample := BitVec 14

/-- One 12-bit sample of a focus profile (R14, R69). -/
abbrev ProfileSample := BitVec 12

end Sys2Proof
end

