-- ==== Sys2Proof/Config.lean ====
section
/-! DEFINITION. What the manual leaves open (constants without a body: free values) and the fixed limits of the part. -/

namespace Sys2Proof

/-- What a byte of stacked DRAM holds that nothing has written since the part was powered: an unknown
value (R1). A free value (log 5): no claim can rest on it. -/
opaque Config.dramPowerOn : Nat → Byte

/-- Whether a line of index L or above, which R17 discards, is a line that "is placed" in the sense of R19 and
so closes an open OB part. The manual's words bear both readings, so the answer is free (log 8). -/
opaque Config.strayLineClosesOb : Bool

/-- Bytes of one slab (R1). -/
def Config.slabBytes : Nat := 4194304

/-- Slabs the part carries (R1). -/
def Config.maxSlabs : Nat := 2048

/-- Most records the catalog holds (R39). -/
def Config.maxRecords : Nat := 256

/-- The next shot number once every number has been given (R39, R41). -/
def Config.shotNumbersSpent : Nat := 4294967296

/-- Most develop jobs (R110). -/
def Config.maxJobs : Nat := 32

/-- Most send items (R156). -/
def Config.maxSendItems : Nat := 64

/-- Most extents in a slot's pool (R132). -/
def Config.maxPool : Nat := 32

/-- Smallest count of a granted extent (R141). -/
def Config.minExtent : Nat := 16384

/-- Most fragments of one card item (R132, R143). -/
def Config.maxFragments : Nat := 8

/-- Most block requests of a slot (R132, R147). -/
def Config.maxBlockRequests : Nat := 4

/-- Blocks of a card chunk (R144). -/
def Config.chunkBlocks : Nat := 2048

/-- Payload bytes of a full DATA frame (R66, R171). -/
def Config.framePayload : Nat := 65536

/-- Most body bytes of a message (R186). -/
def Config.maxBody : Nat := 2048

/-- Zones of the focus grid (R70). -/
def Config.zones : Nat := 48

/-- Entries of the tracking history (R92). -/
def Config.maxHistory : Nat := 4

/-- Top of a saturating 16-bit count. -/
def Config.top16 : Nat := 65535

/-- Modulus of a wrapping 32-bit count. -/
def Config.wrap32 : Nat := 4294967296

/-- Modulus of the job numbers (R110). -/
def Config.wrap16 : Nat := 65536

/-- Samples below the fall point that bring a sensor down one level (R180). -/
def Config.fallSamples : Nat := 10

/-- Milliseconds between two thermal samples (R178). -/
def Config.samplePeriod : Nat := 100

/-- Part code and revision (R194). -/
def Config.partCode : Nat := 0x0720
def Config.revision : Nat := 1

end Sys2Proof
end

