-- ==== Sys2Proof/Syntax.lean ====
section
/-! DEFINITION. The commands the part takes: one constructor for each row of spec/opcode_table.json. A request carries
its message header and its operands in the field widths of R197; the bytes are read as values by Machine/Operands.lean. -/

namespace Sys2Proof

/-- The three ports (R185). -/
inductive Port where
  | body | tether | lens
  deriving DecidableEq, Repr

/-- The two card slots (R132). -/
inductive SlotId where
  | a | b
  deriving DecidableEq, Repr

/-- The sensor modes (R2). -/
inductive Mode where
  | full | crop
  deriving DecidableEq, Repr

/-- What a request's message header says of it (R186, R197), with the port it arrived on. The kind is the
constructor; the result byte of a request is ignored (R197) and not kept. -/
structure Header where
  port : Port
  tag : Byte
  flags : Byte
  bodyLen : Half
  deriving DecidableEq, Repr

/-- A master's DATA frame (R187, R197); its flags are ignored. -/
structure DataFrame where
  tag : Byte
  chunk : Word
  payload : List Byte
  deriving DecidableEq, Repr

/-- One extent of GRANT_EXTENTS as sent (R141). -/
structure ExtentOps where
  first : Word
  count : Word
  deriving DecidableEq, Repr

/-- One entry of SET_ZONES as sent (R71). -/
structure ZoneOps where
  active : Byte
  contrast : Word
  confidence : Half
  deriving DecidableEq, Repr

/-- The operands of LENS_STATE (R73). -/
structure LensOps where
  position : Half
  kc : Half
  travelMin : Half
  travelMax : Half
  moving : Byte
  deriving DecidableEq, Repr

/-- The operands of DEVELOP (R112). The gains and the tone table stand behind a presence byte, because their
all-ones pattern lies within their range; an absent scale is all ones (R197, log 12). -/
structure DevelopOps where
  shot : Word
  cls : Byte
  gainsPresent : Byte
  wr : Half
  wg : Half
  wb : Half
  tonePresent : Byte
  tone : Byte
  scale : Byte
  deriving DecidableEq, Repr

/-- The operands of SET_DEVELOP (R107). -/
structure SettingsOps where
  wr : Half
  wg : Half
  wb : Half
  tone : Byte
  scale : Byte
  auto : Byte
  deriving DecidableEq, Repr

/-- The operands of SET_FOCUS (R89). -/
structure FocusOps where
  priority : Byte
  far : Half
  near : Half
  eIn : Half
  eOut : Half
  m : Byte
  n : Byte
  lead : Byte
  policy : Byte
  trackLoss : Byte
  deriving DecidableEq, Repr

/-- The eleven operands of SET_PARAMS (R196). -/
structure ParamsOps where
  reserve : Half
  contentA : Byte
  contentB : Byte
  modeB : Byte
  yielding : Byte
  detach : Byte
  silence : Half
  threshold : Byte
  stall : Half
  shotWait : Half
  clip : Half
  deriving DecidableEq, Repr

/-- The fields of SET_RULE after the rule index (R162); 16 flags are one field, bit n for flag n (log 50). -/
structure RuleOps where
  enabled : Byte
  flagMask : Half
  flagValue : Half
  anyOf : Half
  minRating : Byte
  requireLock : Byte
  content : Byte
  scale : Byte
  maxClip : Half
  cls : Byte
  deriving DecidableEq, Repr

/-- One reading of a temperature sensor: its integer value in degrees Celsius, and whether the converter reports it
as valid (R178). -/
structure Reading where
  value : Int
  valid : Bool
  deriving DecidableEq, Repr

/-- The commands: 44 requests, two other messages and 26 events. -/
inductive Instr where
  /-- BLOCK_READ (R148) -/
  | blockRead (h : Header) (slot : Byte) (first : Word) (count : Byte)
  /-- BLOCK_WRITE (R147), taken together with the DATA frame that follows it, if one does (R187) -/
  | blockWrite (h : Header) (slot : Byte) (first : Word) (count : Byte) (frame : Option DataFrame)
  /-- BURST_BEGIN (R28) -/
  | burstBegin (h : Header) (divisor : Byte) (maximum : Half) (focus : Byte)
  /-- BURST_END (R29) -/
  | burstEnd (h : Header)
  /-- CANCEL_ITEM (R173) -/
  | cancelItem (h : Header) (serial : Word)
  /-- CLOSE_SESSION (R158) -/
  | closeSession (h : Header)
  /-- CLOSE_SLOT (R136) -/
  | closeSlot (h : Header) (slot : Byte)
  /-- CONFIGURE_STORE (R3) -/
  | configureStore (h : Header) (slabs : Half) (mode : Byte)
  /-- DELETE (R58) -/
  | delete (h : Header) (shot : Word)
  /-- DEVELOP (R112) -/
  | develop (h : Header) (ops : DevelopOps)
  /-- FETCH_NOTICES (R192) -/
  | fetchNotices (h : Header) (maximum : Byte)
  /-- GET_STATUS (R195) -/
  | getStatus (h : Header)
  /-- GET_ZONE_MAP (R103) -/
  | getZoneMap (h : Header)
  /-- GRANT_EXTENTS (R141): the one-byte count of the list, and the extents -/
  | grantExtents (h : Header) (slot : Byte) (count : Byte) (extents : List ExtentOps)
  /-- HOLD (R52) -/
  | hold (h : Header) (shot : Word)
  /-- IDENTIFY (R194) -/
  | identify (h : Header)
  /-- ITEM_RESULT (R172) -/
  | itemResult (h : Header) (serial : Word) (outcome : Byte)
  /-- LENS_STATE (R73) -/
  | lensState (h : Header) (ops : LensOps)
  /-- LIST_SHOTS (R64) -/
  | listShots (h : Header) (first : Word) (maximum : Byte)
  /-- LOAD_TONE (R109): table, first index, count, and the entries that follow -/
  | loadTone (h : Header) (table : Byte) (first : Half) (count : Half) (entries : List Byte)
  /-- NOTICE_CLASSES (R191) -/
  | noticeClasses (h : Header) (thermal shortage slotState autosend : Byte)
  /-- OPEN_SESSION (R157) -/
  | openSession (h : Header)
  /-- OPEN_SLOT (R135) -/
  | openSlot (h : Header) (slot : Byte)
  /-- PRECAPTURE (R30) -/
  | precapture (h : Header) (action depth divisor : Byte)
  /-- PROTECT (R51) -/
  | protect (h : Header) (shot : Word) (action : Byte)
  /-- READ_PROOF (R66) -/
  | readProof (h : Header) (shot : Word)
  /-- READ_RAW (R66) -/
  | readRaw (h : Header) (shot : Word)
  /-- REARM_AUTOSEND (R175) -/
  | rearmAutosend (h : Header) (backfill : Byte)
  /-- RETRY_CARD (R153) -/
  | retryCard (h : Header) (shot : Word) (slot : Byte)
  /-- SEND_SHOT (R168) -/
  | sendShot (h : Header) (shot : Word) (content cls : Byte)
  /-- SET_DEVELOP (R107) -/
  | setDevelop (h : Header) (ops : SettingsOps)
  /-- SET_FOCUS (R89) -/
  | setFocus (h : Header) (ops : FocusOps)
  /-- SET_PARAMS (R196) -/
  | setParams (h : Header) (ops : ParamsOps)
  /-- SET_RULE (R162) -/
  | setRule (h : Header) (index : Byte) (ops : RuleOps)
  /-- SET_TAGS (R50); a mask is one field, bit n for flag n (log 50) -/
  | setTags (h : Header) (shot : Word) (setMask clearMask : Half) (rating : Byte)
  /-- SET_ZONES (R71) -/
  | setZones (h : Header) (entries : List ZoneOps)
  /-- SHOOT (R26) -/
  | shoot (h : Header) (focus : Byte)
  /-- SHOT_INFO (R65) -/
  | shotInfo (h : Header) (shot : Word)
  /-- SLOT_FULL (R137) -/
  | slotFull (h : Header) (slot : Byte)
  /-- TAKE_NEXT (R170) -/
  | takeNext (h : Header)
  /-- UNHOLD (R52) -/
  | unhold (h : Header) (shot : Word)
  /-- UNWATCH (R101) -/
  | unwatch (h : Header)
  /-- WAIVE_CARD (R154) -/
  | waiveCard (h : Header) (shot : Word) (slot : Byte)
  /-- WATCH (R100) -/
  | watch (h : Header) (mode : Byte)
  /-- A message whose kind lies outside 1..44 (R186, R188) -/
  | unknownKindMessage (port : Port) (kind tag : Byte)
  /-- A DATA frame that follows no accepted BLOCK_WRITE (R187) -/
  | strayDataFrame (port : Port) (frame : DataFrame)
  /-- A sensor frame start (R16) -/
  | frameStart
  /-- A sensor line: its index and its samples (R17) -/
  | line (index : Nat) (samples : List Sample)
  /-- A sensor frame end (R20) -/
  | frameEnd
  /-- An AF packet: zone index, left and right profile (R23, R74) -/
  | afPacket (zone : Nat) (left right : List ProfileSample)
  /-- The raw completion of the oldest ended frame that was taken (R24) -/
  | rawCompletion
  /-- The end of the focus computation in flight (R90) -/
  | focusResultReady
  /-- The completion of the stripe in flight (R122) -/
  | stripeCompletion
  /-- The card's successful completion of a chunk (R145) -/
  | cardChunkCompletion (slot : SlotId)
  /-- The card's successful completion of a block request, with the bytes a read returns (R147, R148) -/
  | blockRequestCompletion (slot : SlotId) (blocks : List Byte)
  /-- A card completion that reports an error (R149) -/
  | cardErrorCompletion (slot : SlotId)
  /-- The expiry of a slot's stall timer (R149) -/
  | cardStallExpiry (slot : SlotId)
  /-- A rise of a card-detect line (R134) -/
  | cardInsert (slot : SlotId)
  /-- A fall of a card-detect line (R150) -/
  | cardRemoval (slot : SlotId)
  /-- The delivery of the tether DATA frame in flight (R171) -/
  | tetherChunkCompletion
  /-- The delivery of the READ stream's DATA frame in flight (R67) -/
  | readFrameCompletion
  /-- The expiry of the silence timer (R159) -/
  | silenceExpiry
  /-- The expiry of the pending SHOOT's wait timer (R27) -/
  | shotWaitExpiry
  /-- The sample event of the two temperature sensors (R178) -/
  | thermalSample (die stack : Reading)
  /-- USB bus reset (R161, R193) -/
  | usbBusReset
  /-- Loss of the tether cable (R161, R193) -/
  | tetherCableLoss
  /-- The fall of the lens-present line (R104) -/
  | lensDetach
  /-- The rise of the lens-present line (R104) -/
  | lensAttach
  /-- The completion of the last access to a released chain (R10) -/
  | chainLastAccessCompletion (chain : List Nat)
  /-- The reset line (R202) -/
  | resetLine
  /-- One millisecond of the time base (R201) -/
  | timeBaseTick
  /-- The completion of the FSC reads of a card chunk's raw bytes (R145) -/
  | chunkRawReadCompletion (slot : SlotId)
  deriving DecidableEq, Repr

end Sys2Proof
end

