-- ==== Sys2Proof/WellFormed.lean ====
section
/-! DEFINITION. Which terms of Instr stand for a command that can arrive: a list operand agrees with the message's body
length, a DATA frame's payload fits its length field, a kind is one the table's row is about. A term that fails is
no command of the part; the meanings are total on it all the same. -/

namespace Sys2Proof

/-- A payload a DATA frame can carry (R187, R197). -/
def DataFrame.fits (f : DataFrame) : Bool := f.payload.length ≤ Config.framePayload

/-- A kind outside 1..44 that is no DATA frame's (R186). -/
def unknownKind (kind : Byte) : Bool := (kind.toNat == 0 || 44 < kind.toNat) && kind.toNat != 255

/-- The check of one command. -/
def WellFormed : Instr → Bool
  | .blockWrite _ _ _ _ (some f) => f.fits
  | .strayDataFrame _ f => f.fits
  | .grantExtents h _ _ xs => xs.length == (h.bodyLen.toNat - 2) / 8
  | .loadTone h _ _ _ es => es.length == h.bodyLen.toNat - 5
  | .setZones h es => es.length == h.bodyLen.toNat / 7
  | .unknownKindMessage _ kind _ => unknownKind kind
  | .blockRequestCompletion _ bs => bs.length % 512 == 0 && bs.length ≤ 64 * 512
  | .chainLastAccessCompletion chain => !chain.isEmpty && chain.all (· < Config.maxSlabs)
  | _ => true

end Sys2Proof
end

