-- ==== Sys2Proof/Decode.lean ====
section
/-! DEFINITION. From bytes to commands. The table's rows give no bits, so no word spells a command; what does is a message of a port, in
the layouts of R186, R187 and R197: its decoder, total on any bytes, and an encoder. A request whose body is short is
decoded with zeros in place of the missing bytes, and is refused by its body length (R188). -/

namespace Sys2Proof

/-- No row of the table gives bits: no word spells a command (log 29). -/
def decodeTableWord (_nbits _w : Nat) : Option Instr := none

namespace Decode

/-! ## Fields (R197: little-endian) -/

/-- The byte at an offset of a body. -/
def byteAt (b : List Byte) (i : Nat) : Byte := b.getD i 0

/-- The 2-byte field at an offset. -/
def halfAt (b : List Byte) (i : Nat) : Half := byteAt b (i + 1) ++ byteAt b i

/-- The 4-byte field at an offset. -/
def wordAt (b : List Byte) (i : Nat) : Word := halfAt b (i + 2) ++ halfAt b i

/-- The bytes of a 2-byte field. -/
def ofHalf (x : Half) : List Byte := [x.extractLsb' 0 8, x.extractLsb' 8 8]

/-- The bytes of a 4-byte field. -/
def ofWord (x : Word) : List Byte := [x.extractLsb' 0 8, x.extractLsb' 8 8, x.extractLsb' 16 8, x.extractLsb' 24 8]

/-! ## Lists of operands -/

/-- n extents from the head of a list of bytes (R141). -/
def extentsFrom : Nat → List Byte → List ExtentOps
  | 0, _ => []
  | n + 1, b => { first := wordAt b 0, count := wordAt b 4 } :: extentsFrom n (b.drop 8)

/-- n zone entries from the head of a list of bytes (R71). -/
def zonesFrom : Nat → List Byte → List ZoneOps
  | 0, _ => []
  | n + 1, b => { active := byteAt b 0, contrast := wordAt b 1, confidence := halfAt b 5 } :: zonesFrom n (b.drop 7)

def ofExtent (e : ExtentOps) : List Byte := ofWord e.first ++ ofWord e.count

def ofZone (z : ZoneOps) : List Byte := z.active :: (ofWord z.contrast ++ ofHalf z.confidence)

/-! ## Requests: header and body -/

/-- The request of a kind, from its header and its body (R186, R197). BLOCK_WRITE is still without its DATA frame.
An operand of 16 flags is read as two bytes, bit n for flag n, as R198 lays out a record's tag flags: the model's choice
(log 50). -/
def request (h : Header) (kind : Byte) (b : List Byte) : Instr :=
  match kind.toNat with
  | 1 => .blockRead h (byteAt b 0) (wordAt b 1) (byteAt b 5)
  | 2 => .blockWrite h (byteAt b 0) (wordAt b 1) (byteAt b 5) none
  | 3 => .burstBegin h (byteAt b 0) (halfAt b 1) (byteAt b 3)
  | 4 => .burstEnd h
  | 5 => .cancelItem h (wordAt b 0)
  | 6 => .closeSession h
  | 7 => .closeSlot h (byteAt b 0)
  | 8 => .configureStore h (halfAt b 0) (byteAt b 2)
  | 9 => .delete h (wordAt b 0)
  | 10 => .develop h { shot := wordAt b 0, cls := byteAt b 4, gainsPresent := byteAt b 5, wr := halfAt b 6,
                       wg := halfAt b 8, wb := halfAt b 10, tonePresent := byteAt b 12, tone := byteAt b 13,
                       scale := byteAt b 14 }
  | 11 => .fetchNotices h (byteAt b 0)
  | 12 => .getStatus h
  | 13 => .getZoneMap h
  | 14 => .grantExtents h (byteAt b 0) (byteAt b 1) (extentsFrom ((b.length - 2) / 8) (b.drop 2))
  | 15 => .hold h (wordAt b 0)
  | 16 => .identify h
  | 17 => .itemResult h (wordAt b 0) (byteAt b 4)
  | 18 => .lensState h { position := halfAt b 0, kc := halfAt b 2, travelMin := halfAt b 4, travelMax := halfAt b 6,
                         moving := byteAt b 8 }
  | 19 => .listShots h (wordAt b 0) (byteAt b 4)
  | 20 => .loadTone h (byteAt b 0) (halfAt b 1) (halfAt b 3) (b.drop 5)
  | 21 => .noticeClasses h (byteAt b 0) (byteAt b 1) (byteAt b 2) (byteAt b 3)
  | 22 => .openSession h
  | 23 => .openSlot h (byteAt b 0)
  | 24 => .precapture h (byteAt b 0) (byteAt b 1) (byteAt b 2)
  | 25 => .protect h (wordAt b 0) (byteAt b 4)
  | 26 => .readProof h (wordAt b 0)
  | 27 => .readRaw h (wordAt b 0)
  | 28 => .rearmAutosend h (byteAt b 0)
  | 29 => .retryCard h (wordAt b 0) (byteAt b 4)
  | 30 => .sendShot h (wordAt b 0) (byteAt b 4) (byteAt b 5)
  | 31 => .setDevelop h { wr := halfAt b 0, wg := halfAt b 2, wb := halfAt b 4, tone := byteAt b 6, scale := byteAt b 7,
                          auto := byteAt b 8 }
  | 32 => .setFocus h { priority := byteAt b 0, far := halfAt b 1, near := halfAt b 3, eIn := halfAt b 5,
                        eOut := halfAt b 7, m := byteAt b 9, n := byteAt b 10, lead := byteAt b 11,
                        policy := byteAt b 12, trackLoss := byteAt b 13 }
  | 33 => .setParams h { reserve := halfAt b 0, contentA := byteAt b 2, contentB := byteAt b 3, modeB := byteAt b 4,
                         yielding := byteAt b 5, detach := byteAt b 6, silence := halfAt b 7, threshold := byteAt b 9,
                         stall := halfAt b 10, shotWait := halfAt b 12, clip := halfAt b 14 }
  | 34 => .setRule h (byteAt b 0) { enabled := byteAt b 1, flagMask := halfAt b 2, flagValue := halfAt b 4,
                                    anyOf := halfAt b 6, minRating := byteAt b 8, requireLock := byteAt b 9,
                                    content := byteAt b 10, scale := byteAt b 11, maxClip := halfAt b 12,
                                    cls := byteAt b 14 }
  | 35 => .setTags h (wordAt b 0) (halfAt b 4) (halfAt b 6) (byteAt b 8)
  | 36 => .setZones h (zonesFrom (b.length / 7) b)
  | 37 => .shoot h (byteAt b 0)
  | 38 => .shotInfo h (wordAt b 0)
  | 39 => .slotFull h (byteAt b 0)
  | 40 => .takeNext h
  | 41 => .unhold h (wordAt b 0)
  | 42 => .unwatch h
  | 43 => .waiveCard h (wordAt b 0) (byteAt b 4)
  | 44 => .watch h (byteAt b 0)
  | _ => .unknownKindMessage h.port kind h.tag

/-- A DATA frame at the head of the bytes, when it has wholly arrived, and the bytes after it (R187, R197). -/
def dataFrame (b : List Byte) : Option (DataFrame × List Byte) :=
  let n := (wordAt b 8).toNat
  if byteAt b 0 = 0xFF ∧ 12 + n ≤ b.length then
    some ({ tag := byteAt b 1, chunk := wordAt b 4, payload := (b.drop 12).take n }, b.drop (12 + n))
  else none

/-- The DATA frame joined to a BLOCK_WRITE, when the very next message is one with its tag (R187). -/
def joinFrame (c : Instr) (b : List Byte) : Instr × List Byte :=
  match c, dataFrame b with
  | .blockWrite h slot first count _, some (f, rest) =>
    if f.tag = h.tag then (.blockWrite h slot first count (some f), rest) else (c, b)
  | _, _ => (c, b)

/-- A BLOCK_WRITE announced with a DATA frame is not yet decided: the message after it may still turn out to be that frame, or
is that frame and has not wholly arrived (R187). -/
def awaitsFrame (c : Instr) (b : List Byte) : Bool :=
  match c with
  | .blockWrite h .. =>
    h.flags.getLsbD 0 && (b.isEmpty
      || (byteAt b 0 == 0xFF && (b.length < 2 || (byteAt b 1 == h.tag && (dataFrame b).isNone))))
  | _ => false

/-- The next command of a port from the bytes that have arrived on it, and the bytes after it; none while the next
message has not wholly arrived (R185 to R188). A BLOCK_WRITE and the DATA frame it announces are taken together (R187). -/
def message (p : Port) (b : List Byte) : Option (Instr × List Byte) :=
  if byteAt b 0 = 0xFF then (dataFrame b).map fun x => (.strayDataFrame p x.1, x.2)
  else
    let n := (halfAt b 4).toNat
    if 6 + n ≤ b.length then
      let h : Header := { port := p, tag := byteAt b 1, flags := byteAt b 3, bodyLen := halfAt b 4 }
      let c := request h (byteAt b 0) ((b.drop 6).take n)
      if awaitsFrame c (b.drop (6 + n)) then none else some (joinFrame c (b.drop (6 + n)))
    else none

/-! ## The encoder -/

/-- The kind, header and body bytes of a request; none for a command that is no request. -/
def parts : Instr → Option (Nat × Header × List Byte)
  | .blockRead h slot first count => some (1, h, slot :: (ofWord first ++ [count]))
  | .blockWrite h slot first count _ => some (2, h, slot :: (ofWord first ++ [count]))
  | .burstBegin h divisor maximum focus => some (3, h, divisor :: (ofHalf maximum ++ [focus]))
  | .burstEnd h => some (4, h, [])
  | .cancelItem h serial => some (5, h, ofWord serial)
  | .closeSession h => some (6, h, [])
  | .closeSlot h slot => some (7, h, [slot])
  | .configureStore h slabs mode => some (8, h, ofHalf slabs ++ [mode])
  | .delete h shot => some (9, h, ofWord shot)
  | .develop h o => some (10, h, ofWord o.shot ++ [o.cls, o.gainsPresent] ++ ofHalf o.wr ++ ofHalf o.wg ++ ofHalf o.wb
      ++ [o.tonePresent, o.tone, o.scale])
  | .fetchNotices h maximum => some (11, h, [maximum])
  | .getStatus h => some (12, h, [])
  | .getZoneMap h => some (13, h, [])
  | .grantExtents h slot count extents => some (14, h, slot :: count :: extents.flatMap ofExtent)
  | .hold h shot => some (15, h, ofWord shot)
  | .identify h => some (16, h, [])
  | .itemResult h serial outcome => some (17, h, ofWord serial ++ [outcome])
  | .lensState h o => some (18, h, ofHalf o.position ++ ofHalf o.kc ++ ofHalf o.travelMin ++ ofHalf o.travelMax ++ [o.moving])
  | .listShots h first maximum => some (19, h, ofWord first ++ [maximum])
  | .loadTone h table first count entries => some (20, h, table :: (ofHalf first ++ ofHalf count ++ entries))
  | .noticeClasses h a b c d => some (21, h, [a, b, c, d])
  | .openSession h => some (22, h, [])
  | .openSlot h slot => some (23, h, [slot])
  | .precapture h action depth divisor => some (24, h, [action, depth, divisor])
  | .protect h shot action => some (25, h, ofWord shot ++ [action])
  | .readProof h shot => some (26, h, ofWord shot)
  | .readRaw h shot => some (27, h, ofWord shot)
  | .rearmAutosend h backfill => some (28, h, [backfill])
  | .retryCard h shot slot => some (29, h, ofWord shot ++ [slot])
  | .sendShot h shot content cls => some (30, h, ofWord shot ++ [content, cls])
  | .setDevelop h o => some (31, h, ofHalf o.wr ++ ofHalf o.wg ++ ofHalf o.wb ++ [o.tone, o.scale, o.auto])
  | .setFocus h o => some (32, h, o.priority :: (ofHalf o.far ++ ofHalf o.near ++ ofHalf o.eIn ++ ofHalf o.eOut
      ++ [o.m, o.n, o.lead, o.policy, o.trackLoss]))
  | .setParams h o => some (33, h, ofHalf o.reserve ++ [o.contentA, o.contentB, o.modeB, o.yielding, o.detach]
      ++ ofHalf o.silence ++ [o.threshold] ++ ofHalf o.stall ++ ofHalf o.shotWait ++ ofHalf o.clip)
  | .setRule h index o => some (34, h, [index, o.enabled] ++ ofHalf o.flagMask ++ ofHalf o.flagValue ++ ofHalf o.anyOf
      ++ [o.minRating, o.requireLock, o.content, o.scale] ++ ofHalf o.maxClip ++ [o.cls])
  | .setTags h shot setMask clearMask rating => some (35, h, ofWord shot ++ ofHalf setMask ++ ofHalf clearMask ++ [rating])
  | .setZones h entries => some (36, h, entries.flatMap ofZone)
  | .shoot h focus => some (37, h, [focus])
  | .shotInfo h shot => some (38, h, ofWord shot)
  | .slotFull h slot => some (39, h, [slot])
  | .takeNext h => some (40, h, [])
  | .unhold h shot => some (41, h, ofWord shot)
  | .unwatch h => some (42, h, [])
  | .waiveCard h shot slot => some (43, h, ofWord shot ++ [slot])
  | .watch h mode => some (44, h, [mode])
  | .unknownKindMessage port kind tag => some (kind.toNat, { port := port, tag := tag, flags := 0, bodyLen := 0 }, [])
  | .strayDataFrame .. => none
  | .frameStart => none
  | .line .. => none
  | .frameEnd => none
  | .afPacket .. => none
  | .rawCompletion => none
  | .focusResultReady => none
  | .stripeCompletion => none
  | .cardChunkCompletion _ => none
  | .blockRequestCompletion .. => none
  | .cardErrorCompletion _ => none
  | .cardStallExpiry _ => none
  | .cardInsert _ => none
  | .cardRemoval _ => none
  | .tetherChunkCompletion => none
  | .readFrameCompletion => none
  | .silenceExpiry => none
  | .shotWaitExpiry => none
  | .thermalSample .. => none
  | .usbBusReset => none
  | .tetherCableLoss => none
  | .lensDetach => none
  | .lensAttach => none
  | .chainLastAccessCompletion _ => none
  | .resetLine => none
  | .timeBaseTick => none
  | .chunkRawReadCompletion _ => none

/-- The bytes of a message with that kind, header and body (R197). -/
def messageBytes (kind : Nat) (h : Header) (body : List Byte) : List Byte :=
  [BitVec.ofNat 8 kind, h.tag, 0, h.flags] ++ ofHalf h.bodyLen ++ body

/-- The bytes of a DATA frame (R197). -/
def frameBytes (f : DataFrame) : List Byte :=
  [0xFF, f.tag, 0, 0] ++ ofWord f.chunk ++ ofWord (BitVec.ofNat 32 f.payload.length) ++ f.payload

/-- The bytes that bring a command to a port; none for an event. -/
def encode : Instr → Option (List Byte)
  | .strayDataFrame _ f => some (frameBytes f)
  | .blockWrite h slot first count (some f) =>
    (parts (.blockWrite h slot first count none)).map fun x => messageBytes x.1 x.2.1 x.2.2 ++ frameBytes f
  | c => (parts c).map fun x => messageBytes x.1 x.2.1 x.2.2

end Decode

end Sys2Proof
end

