-- ==== Sys2Proof/Machine/State.lean ====
section
/-! DEFINITION. The state of the part, block by block, as the manual gives it, and its value after the reset line. Plain data.
Quantities that the manual adds and compares are Nat or Int; a count that wraps or saturates does so in the operation
that moves it (Machine/Ops.lean, Machine/Flags.lean). -/

namespace Sys2Proof.Machine

/-! ## Names -/

/-- Why the machine stops. The manual gives the part no stop of that kind: no meaning of this model answers with a
fault. The one constructor is never raised. Safe. -/
inductive Fault where
  /-- raised by nothing: the part has no fault that ends its operation (INVENTORY, Faults); safe -/
  | halted
  deriving DecidableEq, Repr

/-- Why a command has no meaning here. -/
inductive Refusal where
  /-- raised by exec's arm of a command that has no meaning yet; safe -/
  | notModelled (mnemonic : String)
  deriving DecidableEq, Repr

/-- Result codes (R189), in the order of their codes. -/
inductive Result where
  | ok | notPermitted | badRequest | busy | notConfigured | catalogNotEmpty | notFound | notReady | notHeld
  | protectedShot | tableBusy | developBusy | proofBusy | queueFull | overlap | extentSmall | poolFull | slotState
  | cardFault | thermal | bufferFull | focusTimeout | noSession | itemOpen | noItem
  deriving DecidableEq, Repr

/-- The 44 requests, in the order of their kinds (R186). -/
inductive Request where
  | blockRead | blockWrite | burstBegin | burstEnd | cancelItem | closeSession | closeSlot | configureStore | delete
  | develop | fetchNotices | getStatus | getZoneMap | grantExtents | hold | identify | itemResult | lensState
  | listShots | loadTone | noticeClasses | openSession | openSlot | precapture | protect | readProof | readRaw
  | rearmAutosend | retryCard | sendShot | setDevelop | setFocus | setParams | setRule | setTags | setZones | shoot
  | shotInfo | slotFull | takeNext | unhold | unwatch | waiveCard | watch
  deriving DecidableEq, Repr

/-- Thermal states (R178). -/
inductive Thermal where
  | normal | warm | hot
  deriving DecidableEq, Repr

/-- Class of a develop job or a send item (R110, R166). -/
inductive Priority where
  | urgent | normal
  deriving DecidableEq, Repr

/-- Scale of a proof (R5, R106). -/
inductive Scale where
  | half | quarter
  deriving DecidableEq, Repr

/-- The two contents of a shot (R53). -/
inductive Content where
  | raw | proof
  deriving DecidableEq, Repr

/-! ## Frame store (R2 to R11) -/

/-- Who makes an access to a chain (R6). -/
inductive AccessUser where
  | tether
  | readStream
  | card (slot : SlotId)
  deriving DecidableEq, Repr

/-- A read of a chain in progress (R6, R10). -/
structure Access where
  user : AccessUser
  chain : List Nat
  deriving DecidableEq, Repr

/-- State of the FSC (R2), with the released chains that still await their last access (R10). -/
structure Fsc where
  configured : Bool
  slabCount : Nat
  mode : Option Mode
  freeList : List Nat
  reserve : Nat
  releasing : List (List Nat)
  accesses : List Access
  deriving DecidableEq, Repr

/-! ## Sensor input and capture (R15, R22, R25) -/

/-- How a taken frame was taken (R15, R40). -/
inductive CaptureKind where
  | shot | pre
  deriving DecidableEq, Repr

/-- What a taken frame holds: kind, shot number, raw chain (R15). -/
structure Capture where
  kind : CaptureKind
  shot : Nat
  chain : List Nat
  deriving DecidableEq, Repr

/-- The frame in progress (R15). `capture = none` is capture kind NONE. -/
structure Frame where
  number : Nat
  mode : Option Mode
  nextLine : Nat
  obSum : Nat
  bl : Option Nat
  framingFault : Bool
  capture : Option Capture
  deriving DecidableEq, Repr

/-- A taken frame that has ended and whose row writes are still completing (R24). -/
structure EndedFrame where
  capture : Capture
  bl : Nat
  truncated : Bool
  deriving DecidableEq, Repr

/-- Engine state (R25). -/
inductive Engine where
  | idle | singlePending | burst
  deriving DecidableEq, Repr

/-- Blocking reason of a pending SHOOT (R25). -/
inductive Blocking where
  | none | focus | space
  deriving DecidableEq, Repr

/-- The pending SHOOT (R25). `timer` holds the milliseconds left; `none` when the limit was 0 and no timer runs (R27). -/
structure PendingShoot where
  tag : Byte
  focus : Bool
  reason : Blocking
  timer : Option Nat
  deriving DecidableEq, Repr

/-- The burst's settings and counts (R25). `fresh`: its first frame start is still to come (R28). -/
structure Burst where
  divisor : Nat
  maximum : Nat
  focus : Bool
  frames : Nat
  fresh : Bool
  taken : Nat
  skips : Nat
  shortage : Bool
  deriving DecidableEq, Repr

/-- The pre-capture setting (R25). `fresh`: the first idle frame start after the arming is still to come (R30). -/
structure Precapture where
  armed : Bool
  depth : Nat
  divisor : Nat
  frames : Nat
  fresh : Bool
  deriving DecidableEq, Repr

/-- State of the SIU. -/
structure Siu where
  frameCounter : Nat
  frame : Option Frame
  ended : List EndedFrame
  syncFaults : Nat
  lastBl : Option Nat
  engine : Engine
  shoot : Option PendingShoot
  burst : Burst
  pre : Precapture
  waitLimit : Nat
  thermal : Thermal
  deriving DecidableEq, Repr

/-! ## Focus engine (R70 to R100) -/

/-- One entry of the zone table (R70). -/
structure Zone where
  active : Bool
  contrastFloor : Nat
  confidenceFloor : Nat
  deriving DecidableEq, Repr

/-- A present lens state (R72). -/
structure Lens where
  position : Nat
  kc : Nat
  travelMin : Nat
  travelMax : Nat
  moving : Bool
  deriving DecidableEq, Repr

/-- One AF packet: two profiles of 64 samples (R74). -/
structure AfPacket where
  left : List ProfileSample
  right : List ProfileSample
  deriving DecidableEq, Repr

/-- Priority mode (R88). -/
inductive FocusMode where
  | near | far | closest | track
  deriving DecidableEq, Repr

/-- Beyond-travel policy (R88). -/
inductive TravelPolicy where
  | clamp | hold
  deriving DecidableEq, Repr

/-- The ten focus parameters (R88). -/
structure FocusParams where
  mode : FocusMode
  far : Nat
  near : Nat
  eIn : Nat
  eOut : Nat
  m : Nat
  n : Nat
  lead : Nat
  policy : TravelPolicy
  trackLoss : Nat
  deriving DecidableEq, Repr

/-- What the FE latches at a frame end (R75). -/
structure Latched where
  frame : Nat
  truncated : Bool
  packets : List (Option AfPacket)
  zones : List Zone
  lens : Option Lens
  far : Nat
  near : Nat
  deriving DecidableEq, Repr

/-- State of a zone result (R77). -/
inductive ZoneState where
  | inactive | noLens | noData | lowContrast | edge | lowConfidence | clipped | valid
  deriving DecidableEq, Repr

/-- A zone result (R77); a figure the state does not carry is absent. -/
structure ZoneResult where
  state : ZoneState
  c : Option Nat
  p : Option Int
  q : Option Nat
  d : Option Int
  t : Option Int
  dClamped : Bool
  deriving DecidableEq, Repr

/-- One entry of the tracking history (R92). -/
structure Track where
  target : Int
  frame : Nat
  deriving DecidableEq, Repr

/-- Flag of T_pred (R95). -/
inductive PredFlag where
  | inTravel | atLimit | held
  deriving DecidableEq, Repr

/-- The selected zone with its figures and its prediction (R91, R95, R98). -/
structure Selection where
  zone : Nat
  c : Nat
  p : Int
  q : Nat
  d : Int
  t : Int
  dClamped : Bool
  tPred : Int
  flag : PredFlag
  deriving DecidableEq, Repr

/-- The published focus result without its zone map (R98, R102). `lens` holds lens position and moving flag. -/
structure FocusSummary where
  frame : Nat
  noLens : Bool
  overrun : Bool
  truncated : Bool
  lens : Option (Nat × Bool)
  selection : Option Selection
  locked : Bool
  validCount : Nat
  negEdges : Nat
  posEdges : Nat
  deriving DecidableEq, Repr

/-- One entry of the zone map: the zone's state, P and Q (R98). -/
structure ZoneMark where
  state : ZoneState
  p : Option Int
  q : Option Nat
  deriving DecidableEq, Repr

/-- The latest publication (R98). -/
structure Publication where
  summary : FocusSummary
  map : List ZoneMark
  deriving DecidableEq, Repr

/-- Watch state (R100). -/
inductive Watch where
  | none | snapshot | continuous
  deriving DecidableEq, Repr

/-- State of the FE, with the lens-present line (R73, R104). -/
structure Fe where
  zones : List Zone
  lens : Option Lens
  lensPresent : Bool
  collectFrame : Option Nat
  collect : List (Option AfPacket)
  inFlight : Option Latched
  overruns : Nat
  params : FocusParams
  history : List Track
  previous : Option Int
  noSelection : Nat
  locked : Bool
  inCount : Nat
  outCount : Nat
  latest : Option Publication
  watch : Watch
  deriving DecidableEq, Repr

/-! ## Catalog (R39 to R53) -/

/-- Ring mark (R40). -/
inductive RingMark where
  | none | promote | discard
  deriving DecidableEq, Repr

/-- Record state (R42). -/
inductive RecordState where
  | exposing | provisional | stored | deleting
  deriving DecidableEq, Repr

/-- Card requirement (R46). -/
inductive Requirement where
  | notRequired | queued | writing | written | failed | waived
  deriving DecidableEq, Repr

/-- Tether mark (R40). -/
inductive TetherMark where
  | none | queued | sent | failed | dropped
  deriving DecidableEq, Repr

/-- Proof state (R45). -/
inductive ProofState where
  | none | pending | done
  deriving DecidableEq, Repr

/-- What a filled focus record holds (R44). -/
structure FocusInfo where
  selection : Option Selection
  locked : Bool
  lensPosition : Nat
  negEdges : Nat
  posEdges : Nat
  deriving DecidableEq, Repr

/-- Focus record of a shot (R44). -/
inductive FocusRecord where
  | pending
  | absent
  | filled (info : FocusInfo)
  deriving DecidableEq, Repr

/-- Gains, tone table and scale: a develop snapshot or a job's parameters (R40, R110). -/
structure DevelopParams where
  wr : Nat
  wg : Nat
  wb : Nat
  tone : Nat
  scale : Scale
  deriving DecidableEq, Repr

/-- A present done proof (R45). -/
structure DoneProof where
  params : DevelopParams
  chain : List Nat
  clipCount : Nat
  histogram : List Nat
  deriving DecidableEq, Repr

/-- A shot record (R40, R43). `raw` holds the raw chain while the raw part is present. `deleteTag` is the tag of the
record's outstanding DELETE (R58). -/
structure Record where
  shot : Nat
  frame : Nat
  time : Nat
  mode : Mode
  kind : CaptureKind
  mark : RingMark
  state : RecordState
  raw : Option (List Nat)
  bl : Option Nat
  clip : Nat
  truncated : Bool
  focus : FocusRecord
  snapshot : DevelopParams
  proofState : ProofState
  proof : Option DoneProof
  tags : BitVec 16
  rating : Nat
  guarded : Bool
  hold : Bool
  reqA : Requirement
  reqB : Requirement
  markRaw : TetherMark
  markProof : TetherMark
  rawPins : Nat
  proofPins : Nat
  deleteTag : Option Byte
  deriving DecidableEq, Repr

/-- State of the CAT (R39), with the two operating parameters it holds (R61, R196). -/
structure Cat where
  records : List Record
  nextShot : Nat
  clipLevel : Nat
  pressureYield : Bool
  deriving DecidableEq, Repr

/-! ## Develop engine (R106 to R123) -/

/-- Origin of a develop job (R110). -/
inductive JobOrigin where
  | body | tether | auto | rule | relief
  deriving DecidableEq, Repr

/-- Job state (R111). -/
inductive JobState where
  | queued | waitSlabs | running | suspended
  deriving DecidableEq, Repr

/-- Progress of a RUNNING or SUSPENDED job (R110). -/
structure Progress where
  chain : List Nat
  next : Nat
  clipCount : Nat
  histogram : List Nat
  deriving DecidableEq, Repr

/-- A develop job (R110). -/
structure Job where
  number : Nat
  shot : Nat
  mode : Mode
  params : DevelopParams
  cls : Priority
  origin : JobOrigin
  state : JobState
  cancel : Bool
  progress : Option Progress
  deriving DecidableEq, Repr

/-- State of the DVE. The current job and the two suspension contexts are the jobs in the states that make them so
(R111, R123). -/
structure Dve where
  settings : DevelopParams
  auto : Bool
  tones : List (List Byte)
  jobs : List Job
  nextJob : Nat
  applied : Thermal
  pendingThermal : Option Thermal
  deriving DecidableEq, Repr

/-! ## Card writer (R132) -/

/-- Slot state (R132). -/
inductive SlotState where
  | absent | present | idle | writing | waitExtents | full | fault
  deriving DecidableEq, Repr

/-- An extent or a fragment: a run of card blocks (R141). -/
structure Extent where
  first : Nat
  count : Nat
  deriving DecidableEq, Repr

/-- A card item (R139); its length and chunk count follow from its mode. -/
structure CardItem where
  shot : Nat
  mode : Mode
  deriving DecidableEq, Repr

/-- The writing item (R132). -/
structure WritingItem where
  item : CardItem
  fragments : List Extent
  next : Nat
  written : Nat
  abort : Bool
  deriving DecidableEq, Repr

/-- A block request that waits or is in service (R147, R148). `payload` holds a write's data. -/
structure BlockRequest where
  write : Bool
  tag : Byte
  first : Nat
  count : Nat
  payload : List Byte
  deriving DecidableEq, Repr

/-- Kind of a card operation (R132). -/
inductive CardOpKind where
  | chunk | blockRead | blockWrite
  deriving DecidableEq, Repr

/-- The card operation in flight (R132, R144, R145). A chunk is not `issued` until its raw bytes have been read; the
stall timer holds the milliseconds left from its issue on. -/
structure CardOp where
  kind : CardOpKind
  issued : Bool
  timer : Nat
  runs : List Extent
  payload : List Byte
  deriving DecidableEq, Repr

/-- A slot (R132), with its card-detect line and whether the arbiter's last operation was a block request (R146). -/
structure Slot where
  state : SlotState
  detect : Bool
  fullPending : Bool
  pool : List Extent
  queue : List CardItem
  writing : Option WritingItem
  blocks : List BlockRequest
  op : Option CardOp
  lastWasBlock : Bool
  deriving DecidableEq, Repr

/-- State of the CRW (R132, R138, R149). -/
structure Crw where
  slotA : Slot
  slotB : Slot
  contentA : Bool
  contentB : Bool
  overflow : Bool
  stallLimit : Nat
  deriving DecidableEq, Repr

/-! ## Tether controller (R156, R162, R166) -/

/-- Detach policy (R156). -/
inductive DetachPolicy where
  | keep | drop
  deriving DecidableEq, Repr

/-- A send rule (R162). -/
structure SendRule where
  enabled : Bool
  flagMask : BitVec 16
  flagValue : BitVec 16
  anyOf : BitVec 16
  minRating : Nat
  requireLock : Bool
  content : Content
  scale : Scale
  maxClip : Nat
  cls : Priority
  deriving DecidableEq, Repr

/-- State of a send item (R166). -/
inductive ItemState where
  | waitingProof | ready | sending
  deriving DecidableEq, Repr

/-- Cut mark (R166). -/
inductive CutMark where
  | clear | cancel | delete
  deriving DecidableEq, Repr

/-- The transfer of a SENDING item (R166, R170, R171): whether it awaits its result, the index of the chunk in flight,
the chunk count and byte total, the tag of its TAKE_NEXT, the chain it streams and the composed header block. -/
structure Transfer where
  awaiting : Bool
  next : Nat
  chunks : Nat
  total : Nat
  tag : Byte
  chain : List Nat
  header : List Byte
  deriving DecidableEq, Repr

/-- A send item (R166). `origin = none` is MANUAL. `cancelTag` is the tag of an outstanding CANCEL_ITEM (R173). -/
structure SendItem where
  serial : Nat
  shot : Nat
  content : Content
  cls : Priority
  state : ItemState
  attempts : Nat
  origin : Option Nat
  maxClip : Nat
  scale : Scale
  transfer : Option Transfer
  cut : CutMark
  cancelTag : Option Byte
  deriving DecidableEq, Repr

/-- State of the TTC (R156). -/
structure Ttc where
  attached : Bool
  silence : Option Nat
  silenceLimit : Nat
  policy : DetachPolicy
  rules : List SendRule
  queue : List SendItem
  nextSerial : Nat
  errors : Nat
  threshold : Nat
  armed : Bool
  drops : Nat
  deriving DecidableEq, Repr

/-! ## Thermal monitor (R178) -/

/-- One temperature sensor (R178). -/
structure Sensor where
  reading : Option Int
  invalid : Bool
  state : Thermal
  hold : Nat
  deriving DecidableEq, Repr

/-- State of the THM (R178), with the sample period timer (R201) and the time base of the latest sample (R183). -/
structure Thm where
  die : Sensor
  stack : Sensor
  part : Thermal
  sinceSample : Nat
  sampleTime : Nat
  deriving DecidableEq, Repr

/-! ## Port controller (R185, R190) -/

/-- How a card item ended (R151). -/
inductive ItemStatus where
  | written | failed | aborted
  deriving DecidableEq, Repr

/-- The notices with their fields (R191). -/
inductive Notice where
  | autosendSuspended (errors threshold : Nat)
  | cardItemDone (shot : Nat) (slot : SlotId) (status : ItemStatus) (length written : Nat) (fragments : List Extent)
  | focusResult (result : FocusSummary)
  | itemAborted (serial shot : Nat) (content : Content) (chunks : Nat)
  | itemsReady (serial length : Nat)
  | overrun (lost : Nat)
  | proofDone (shot number : Nat) (origin : JobOrigin) (scale : Scale) (tone clipCount quads : Nat) (histogram : List Nat)
  | shortage (frame free records skips : Nat)
  | shotReleased (shot : Nat) (deleted : Bool)
  | shotStored (shot frame : Nat) (mode : Mode) (kind : CaptureKind) (truncated : Bool)
  | slotState (slot : SlotId) (previous new : SlotState) (queue extents : Nat)
  | thermalState (previous new : Thermal) (time : Nat) (die stack : Sensor)
  deriving DecidableEq, Repr

/-- What the part sends on a port: a response (R186) or a DATA frame (R187). -/
inductive OutMsg where
  | response (kind : Byte) (tag : Byte) (result : Result) (dataFollows : Bool) (body : List Byte)
  | frame (tag : Byte) (chunk : Nat) (payload : List Byte) (aborted : Bool)
  deriving DecidableEq, Repr

/-- The four condition class enables (R191). -/
structure Classes where
  thermal : Bool
  shortage : Bool
  slotState : Bool
  autosend : Bool
  deriving DecidableEq, Repr

/-- The READ stream of the body port (R66, R67): `next` is the index of the frame being sent. -/
structure ReadStream where
  tag : Byte
  shot : Nat
  content : Content
  chain : List Nat
  total : Nat
  frames : Nat
  next : Nat
  cut : Bool
  deriving DecidableEq, Repr

/-- State of the PTC: time base, notice queues, enables, what each port has still to deliver, the READ stream. -/
structure Ptc where
  timeBase : Nat
  bodyQueue : List Notice
  tetherQueue : List Notice
  lensQueue : List Notice
  enables : Classes
  bodyOut : List OutMsg
  tetherOut : List OutMsg
  lensOut : List OutMsg
  read : Option ReadStream
  deriving DecidableEq, Repr

/-! ## The whole part -/

/-- The stacked DRAM as a list of cells, addresses rising; an address that is not listed has not been written since
the part was powered (R1). -/
abbrev Memory := List Host.Cell

/-- The state of the part and the queue of commands that wait for it. -/
structure State where
  pending : List Instr
  fsc : Fsc
  dram : Memory
  siu : Siu
  cat : Cat
  fe : Fe
  dve : Dve
  crw : Crw
  ttc : Ttc
  thm : Thm
  ptc : Ptc
  deriving DecidableEq, Repr

/-! ## After the reset line -/

/-- R2. -/
def Fsc.reset : Fsc :=
  { configured := false, slabCount := 0, mode := none, freeList := [], reserve := 38, releasing := [], accesses := [] }

/-- R25. -/
def Burst.reset : Burst :=
  { divisor := 1, maximum := 0, focus := false, frames := 0, fresh := false, taken := 0, skips := 0, shortage := false }

/-- R25. -/
def Precapture.reset : Precapture :=
  { armed := false, depth := 0, divisor := 1, frames := 0, fresh := false }

/-- R15, R22, R25. -/
def Siu.reset : Siu :=
  { frameCounter := 0, frame := none, ended := [], syncFaults := 0, lastBl := none, engine := .idle, shoot := none,
    burst := Burst.reset, pre := Precapture.reset, waitLimit := 1000, thermal := .normal }

/-- R39, R61, R196. -/
def Cat.reset : Cat := { records := [], nextShot := 1, clipLevel := 16000, pressureYield := true }

/-- R70. -/
def Zone.reset : Zone := { active := false, contrastFloor := 2000, confidenceFloor := 64 }

/-- R88. -/
def FocusParams.reset : FocusParams :=
  { mode := .near, far := 0, near := 16383, eIn := 8, eOut := 24, m := 2, n := 3, lead := 0, policy := .clamp,
    trackLoss := 5 }

/-- R70, R72, R74, R75, R92 to R100; the lens-present line is an input (log 7). -/
def Fe.reset (lensPresent : Bool) : Fe :=
  { zones := List.replicate Config.zones Zone.reset, lens := none, lensPresent := lensPresent, collectFrame := none,
    collect := List.replicate Config.zones none, inFlight := none, overruns := 0, params := FocusParams.reset,
    history := [], previous := none, noSelection := 0, locked := false, inCount := 0, outCount := 0, latest := none,
    watch := .none }

/-- R106. -/
def DevelopParams.reset : DevelopParams := { wr := 1024, wg := 1024, wb := 1024, tone := 0, scale := .half }

/-- The reset ramp of a tone table: entry i is floor(i / 16) (R108). -/
def toneRamp : List Byte := (List.range 4096).map fun i => BitVec.ofNat 8 (i / 16)

/-- R106, R108, R110, R116. -/
def Dve.reset : Dve :=
  { settings := DevelopParams.reset, auto := false, tones := List.replicate 4 toneRamp, jobs := [], nextJob := 1,
    applied := .normal, pendingThermal := none }

/-- R132: a card in the slot makes it PRESENT; the card-detect line is an input (log 7). -/
def Slot.reset (detect : Bool) : Slot :=
  { state := if detect then .present else .absent, detect := detect, fullPending := false, pool := [], queue := [],
    writing := none, blocks := [], op := none, lastWasBlock := false }

/-- R132, R138, R149. -/
def Crw.reset (detectA detectB : Bool) : Crw :=
  { slotA := Slot.reset detectA, slotB := Slot.reset detectB, contentA := false, contentB := false, overflow := false,
    stallLimit := 1500 }

/-- R162. -/
def SendRule.reset : SendRule :=
  { enabled := false, flagMask := 0, flagValue := 0, anyOf := 0, minRating := 0, requireLock := false, content := .raw,
    scale := .quarter, maxClip := 1000, cls := .normal }

/-- R156. -/
def Ttc.reset : Ttc :=
  { attached := false, silence := none, silenceLimit := 10, policy := .keep, rules := List.replicate 8 SendRule.reset,
    queue := [], nextSerial := 1, errors := 0, threshold := 8, armed := true, drops := 0 }

/-- R178. -/
def Sensor.reset : Sensor := { reading := none, invalid := false, state := .normal, hold := 0 }

/-- R178, R201; the time of a latest sample that never was is 0 (log 19). -/
def Thm.reset : Thm := { die := Sensor.reset, stack := Sensor.reset, part := .normal, sinceSample := 0, sampleTime := 0 }

/-- R191. -/
def Classes.reset : Classes := { thermal := false, shortage := false, slotState := false, autosend := false }

/-- R185, R191, R201. -/
def Ptc.reset : Ptc :=
  { timeBase := 0, bodyQueue := [], tetherQueue := [], lensQueue := [], enables := Classes.reset, bodyOut := [],
    tetherOut := [], lensOut := [], read := none }

/-- The part after the reset line, with no card in a slot, no lens fitted, nothing written to the DRAM since power-on
and no command waiting (log 5, log 7). -/
def State.reset : State :=
  { pending := [], fsc := Fsc.reset, dram := [], siu := Siu.reset, cat := Cat.reset, fe := Fe.reset false,
    dve := Dve.reset, crw := Crw.reset false false, ttc := Ttc.reset, thm := Thm.reset, ptc := Ptc.reset }

end Sys2Proof.Machine
end

