-- ==== Sys2Proof/Machine/Operands.lean ====
section
/-! DEFINITION. How the bytes of a request's operands are read (R188, R197): named values by their position in the manual's
list, on/off as 1 or 0, clamps, absent values, and the body length the operands of each request make. -/

namespace Sys2Proof.Machine

/-- Clamp into a range (00, Clamping). -/
def clampNat (lo hi v : Nat) : Nat := if v < lo then lo else if hi < v then hi else v

/-- Clamp of a signed quantity (00, Clamping). -/
def clampInt (lo hi v : Int) : Int := if v < lo then lo else if hi < v then hi else v

/-- An on/off or set/clear operand: 1 or 0, anything else is neither (R197). -/
def readFlag (b : Byte) : Option Bool := if b = 1 then some true else if b = 0 then some false else none

/-- A slot operand: A or B (R135). -/
def readSlot (b : Byte) : Option SlotId := if b = 0 then some .a else if b = 1 then some .b else none

/-- A slot choice: A, B or BOTH (R153), as the slots it names, A first. -/
def readSlots (b : Byte) : Option (List SlotId) :=
  if b = 0 then some [.a] else if b = 1 then some [.b] else if b = 2 then some [.a, .b] else none

/-- FULL or CROP (R3). -/
def readMode (b : Byte) : Option Mode := if b = 0 then some .full else if b = 1 then some .crop else none

/-- The slab count of CONFIGURE_STORE (R3). -/
def readSlabCount (v : Half) : Option Nat := if v = 1024 then some 1024 else if v = 2048 then some 2048 else none

/-- URGENT or NORMAL (R112, R162, R168). -/
def readPriority (b : Byte) : Option Priority := if b = 0 then some .urgent else if b = 1 then some .normal else none

/-- HALF or QUARTER (R107, R112, R162). -/
def readScale (b : Byte) : Option Scale := if b = 0 then some .half else if b = 1 then some .quarter else none

/-- RAW or PROOF (R162, R168). -/
def readContent (b : Byte) : Option Content := if b = 0 then some .raw else if b = 1 then some .proof else none

/-- RAW or NONE, the content of a slot (R138, R196). -/
def readSlotContent (b : Byte) : Option Bool := if b = 0 then some true else if b = 1 then some false else none

/-- MIRROR or OVERFLOW: whether slot B overflows from A (R138, R196). -/
def readSlotMode (b : Byte) : Option Bool := if b = 0 then some false else if b = 1 then some true else none

/-- KEEP or DROP (R156, R196). -/
def readPolicy (b : Byte) : Option DetachPolicy := if b = 0 then some .keep else if b = 1 then some .drop else none

/-- NEAR, FAR, CLOSEST or TRACK (R89). -/
def readFocusMode (b : Byte) : Option FocusMode :=
  if b = 0 then some .near else if b = 1 then some .far else if b = 2 then some .closest
  else if b = 3 then some .track else none

/-- CLAMP or HOLD (R89). -/
def readTravelPolicy (b : Byte) : Option TravelPolicy := if b = 0 then some .clamp else if b = 1 then some .hold else none

/-- ARM or DISARM (R30). -/
def readArm (b : Byte) : Option Bool := if b = 0 then some true else if b = 1 then some false else none

/-- SNAPSHOT or CONTINUOUS (R100). -/
def readWatch (b : Byte) : Option Watch := if b = 0 then some .snapshot else if b = 1 then some .continuous else none

/-- OK or FAILED (R172). -/
def readOutcome (b : Byte) : Option Bool := if b = 0 then some true else if b = 1 then some false else none

/-- A develop parameter of DEVELOP: what the operands say in place of the snapshot's values (R112, log 12). `none` when
a presence byte, the tone table or the scale is outside its values. -/
def readDevelop (o : DevelopOps) (snapshot : DevelopParams) : Option DevelopParams :=
  match readFlag o.gainsPresent, readFlag o.tonePresent with
  | some gains, some tone =>
    if tone && 3 < o.tone.toNat then none
    else
      let base := if gains then
          { snapshot with wr := clampNat 0 16383 o.wr.toNat, wg := clampNat 0 16383 o.wg.toNat,
                          wb := clampNat 0 16383 o.wb.toNat }
        else snapshot
      let base := if tone then { base with tone := o.tone.toNat } else base
      if o.scale = 0xFF then some base else (readScale o.scale).map fun sc => { base with scale := sc }
  | _, _ => none

/-- Whether the operands of DEVELOP that are choices lie within them, before the shot is looked for (R112). -/
def developChoices (o : DevelopOps) : Bool := (readPriority o.cls).isSome && (readDevelop o DevelopParams.reset).isSome

/-- The settings of SET_DEVELOP: gains clamped, choices read (R107). -/
def readSettings (o : SettingsOps) : Option (DevelopParams × Bool) :=
  match readScale o.scale, readFlag o.auto with
  | some sc, some auto =>
    if 3 < o.tone.toNat then none
    else some ({ wr := clampNat 0 16383 o.wr.toNat, wg := clampNat 0 16383 o.wg.toNat,
                 wb := clampNat 0 16383 o.wb.toNat, tone := o.tone.toNat, scale := sc }, auto)
  | _, _ => none

/-- The focus parameters of SET_FOCUS, clamped (R89). -/
def readFocus (o : FocusOps) : Option FocusParams :=
  match readFocusMode o.priority, readTravelPolicy o.policy with
  | some mode, some policy =>
    let eIn := clampNat 0 32767 o.eIn.toNat
    some { mode := mode, far := clampNat 0 16383 o.far.toNat, near := clampNat 0 16383 o.near.toNat, eIn := eIn,
           eOut := max eIn (clampNat 0 32767 o.eOut.toNat), m := clampNat 1 15 o.m.toNat, n := clampNat 1 15 o.n.toNat,
           lead := clampNat 0 8 o.lead.toNat, policy := policy, trackLoss := clampNat 1 15 o.trackLoss.toNat }
  | _, _ => none

/-- The lens state of LENS_STATE: clamps, Kc 0 taken as 1, a reversed travel exchanged (R73). -/
def readLens (o : LensOps) (moving : Bool) : Lens :=
  let lo := clampNat 0 16383 o.travelMin.toNat
  let hi := clampNat 0 16383 o.travelMax.toNat
  { position := clampNat 0 16383 o.position.toNat, kc := if o.kc = 0 then 1 else o.kc.toNat,
    travelMin := min lo hi, travelMax := max lo hi, moving := moving }

/-- One zone entry, clamped (R71). -/
def readZone (o : ZoneOps) : Option Zone :=
  (readFlag o.active).map fun a =>
    { active := a, contrastFloor := clampNat 0 262143 o.contrast.toNat,
      confidenceFloor := clampNat 0 4095 o.confidence.toNat }

/-- The fields of a send rule, clamped (R162). -/
def readRule (o : RuleOps) : Option SendRule :=
  match readFlag o.enabled, readFlag o.requireLock, readContent o.content, readScale o.scale, readPriority o.cls with
  | some en, some lock, some content, some scale, some cls =>
    some { enabled := en, flagMask := o.flagMask, flagValue := o.flagValue, anyOf := o.anyOf,
           minRating := clampNat 0 5 o.minRating.toNat, requireLock := lock, content := content, scale := scale,
           maxClip := clampNat 0 1000 o.maxClip.toNat, cls := cls }
  | _, _, _, _, _ => none

/-- The eleven operating parameters as their owners take them (R196). -/
structure Params where
  reserve : Nat
  contentA : Bool
  contentB : Bool
  overflow : Bool
  yielding : Bool
  policy : DetachPolicy
  silence : Nat
  threshold : Nat
  stall : Nat
  shotWait : Nat
  clip : Nat
  deriving DecidableEq, Repr

/-- The operands of SET_PARAMS, clamped; `none` when a choice lies outside its values (R196). -/
def readParams (o : ParamsOps) : Option Params :=
  match readSlotContent o.contentA, readSlotContent o.contentB, readSlotMode o.modeB, readFlag o.yielding,
      readPolicy o.detach with
  | some ca, some cb, some ov, some y, some pol =>
    some { reserve := clampNat 0 512 o.reserve.toNat, contentA := ca, contentB := cb, overflow := ov, yielding := y,
           policy := pol, silence := clampNat 1 60 o.silence.toNat, threshold := clampNat 1 31 o.threshold.toNat,
           stall := clampNat 100 5000 o.stall.toNat, shotWait := clampNat 0 5000 o.shotWait.toNat,
           clip := clampNat 0 16383 o.clip.toNat }
  | _, _, _, _, _ => none

/-- An extent as sent, as a run of blocks (R141). -/
def readExtent (e : ExtentOps) : Extent := { first := e.first.toNat, count := e.count.toNat }

/-- The rating operand of SET_TAGS: 255 leaves the rating, anything above 5 becomes 5 (R50). -/
def readRating (b : Byte) (old : Nat) : Nat := if b.toNat = 255 then old else min 5 b.toNat

/-! ## Body lengths

The number of body bytes the operands of a request make (R188 step 3), by the widths of R197. -/

/-- A request without operands, and the fixed lengths of the others. -/
def lenNone : Nat := 0
def lenByte : Nat := 1
def lenShot : Nat := 4
def lenZone : Nat := 7
def lenExtent : Nat := 8
def lenBlockRequest : Nat := 6
def lenBurst : Nat := 4
def lenConfigure : Nat := 3
def lenDevelop : Nat := 15
def lenShotByte : Nat := 5
def lenLens : Nat := 9
def lenClasses : Nat := 4
def lenPrecapture : Nat := 3
def lenSend : Nat := 6
def lenSettings : Nat := 9
def lenFocus : Nat := 14
def lenParams : Nat := 16
def lenRule : Nat := 15
def lenTags : Nat := 9

/-- A body of the length the operands make, and within the message's limit (R186, R188). -/
def bodyFits (h : Header) (len : Nat) : Bool := h.bodyLen.toNat == len && len ≤ Config.maxBody

end Sys2Proof.Machine
end

