-- ==== Sys2Proof/Machine/Flags.lean ====
section
/-! DEFINITION. Flags and counts: the flag bits of headers and layouts (R197 to R199), attention signals (R185), counts that
saturate or wrap, the higher of two states or classes. -/

namespace Sys2Proof.Machine

/-- A 16-bit count that stays at its top (R22, R25, R75, R156, R190). -/
def sat16 (n : Nat) : Nat := if n < Config.top16 then n + 1 else n

/-- A 32-bit count that goes on at 0 after its top (R15, R25, R201). -/
def wrap32 (n : Nat) : Nat := (n + 1) % Config.wrap32

/-- A count 0..15 that stays at 15 (R93, R96). -/
def sat15 (n : Nat) : Nat := if n < 15 then n + 1 else 15

/-- The DATA-follows flag of a request's header (R197); the other bits are not read (log 14). -/
def dataFollows (h : Header) : Bool := h.flags.getLsbD 0

/-- The flags byte of a response (R197). -/
def responseFlags (follows : Bool) : Nat := if follows then 1 else 0

/-- The flags byte of a DATA frame: bit 1 ABORTED (R197). -/
def frameFlags (aborted : Bool) : Nat := if aborted then 2 else 0

/-- The value of one flag bit at a place. -/
def flagBit (place : Nat) (on : Bool) : Nat := if on then 2 ^ place else 0

/-- Byte 19 of the shot info record (R198). -/
def recordFlags (r : Record) : Nat :=
  flagBit 0 r.raw.isSome + flagBit 1 r.truncated + flagBit 2 r.guarded + flagBit 3 r.hold + flagBit 4 r.proof.isSome

/-- Byte 4 of a FOCUS_RESULT (R199). -/
def focusFlags (f : FocusSummary) : Nat :=
  flagBit 0 f.noLens + flagBit 1 f.overrun + flagBit 2 f.truncated
    + flagBit 3 (match f.lens with | some (_, m) => m | none => false) + flagBit 4 f.selection.isSome
    + flagBit 5 (match f.selection with | some w => w.dClamped | none => false)

/-- The notice queue of a port (R190). -/
def Ptc.queue (p : Ptc) : Port → List Notice
  | .body => p.bodyQueue
  | .tether => p.tetherQueue
  | .lens => p.lensQueue

/-- A port's attention signal: active while its notice queue holds an entry (R185). -/
def attention (s : State) (p : Port) : Bool := !(s.ptc.queue p).isEmpty

/-- The higher of two thermal states, HOT above WARM above NORMAL (R181). -/
def Thermal.higher : Thermal → Thermal → Thermal
  | .hot, _ => .hot
  | _, .hot => .hot
  | .warm, _ => .warm
  | _, .warm => .warm
  | .normal, .normal => .normal

/-- The higher of two classes, URGENT above NORMAL (R113, R165). -/
def Priority.higher : Priority → Priority → Priority
  | .urgent, _ => .urgent
  | _, .urgent => .urgent
  | .normal, .normal => .normal

/-- A settled card requirement (R46). -/
def Requirement.settled : Requirement → Bool
  | .notRequired => true
  | .written => true
  | .waived => true
  | .queued => false
  | .writing => false
  | .failed => false

/-- The open states of a slot (R133). -/
def SlotState.isOpen : SlotState → Bool
  | .idle => true
  | .writing => true
  | .waitExtents => true
  | .full => true
  | .absent => false
  | .present => false
  | .fault => false

end Sys2Proof.Machine
end

