-- ==== Sys2Proof/Machine/Ops.lean ====
section
/-! DEFINITION. The named operations over the state that every block's rules use: one update per block, the DRAM by byte and by
chain (R1, R5, R6), the sizes of a mode (00 Sizes, R5), records, slots and send items by name, responses and DATA
frames (R186, R187), and the offer of a notice (R190, R102). -/

namespace Sys2Proof.Machine

/-! ## Updates by block -/

def State.updFsc (s : State) (f : Fsc → Fsc) : State := { s with fsc := f s.fsc }
def State.updDram (s : State) (f : Memory → Memory) : State := { s with dram := f s.dram }
def State.updSiu (s : State) (f : Siu → Siu) : State := { s with siu := f s.siu }
def State.updCat (s : State) (f : Cat → Cat) : State := { s with cat := f s.cat }
def State.updFe (s : State) (f : Fe → Fe) : State := { s with fe := f s.fe }
def State.updDve (s : State) (f : Dve → Dve) : State := { s with dve := f s.dve }
def State.updCrw (s : State) (f : Crw → Crw) : State := { s with crw := f s.crw }
def State.updTtc (s : State) (f : Ttc → Ttc) : State := { s with ttc := f s.ttc }
def State.updThm (s : State) (f : Thm → Thm) : State := { s with thm := f s.thm }
def State.updPtc (s : State) (f : Ptc → Ptc) : State := { s with ptc := f s.ptc }

end Sys2Proof.Machine

namespace Sys2Proof

open Machine

/-! ## Sizes of a mode (00 Sizes; R5, R14, R18, R19, R122) -/

/-- Samples of a line, W (R14). -/
def Mode.width : Mode → Nat
  | .full => 8064
  | .crop => 5376

/-- Lines of a frame, L (R14). -/
def Mode.lines : Mode → Nat
  | .full => 5392
  | .crop => 3600

/-- Optical black lines of a frame (R14). -/
def obLines : Nat := 16

/-- Optical black pixels, n (R19). -/
def Mode.obPixels : Mode → Nat
  | .full => 129024
  | .crop => 86016

/-- Bytes of a packed raw row, B (R18). -/
def Mode.rowBytes : Mode → Nat
  | .full => 14112
  | .crop => 9408

/-- Bytes of a raw (R5). -/
def Mode.rawBytes : Mode → Nat
  | .full => 75866112
  | .crop => 33718272

/-- Slabs of a raw (R5). -/
def Mode.rawSlabs : Mode → Nat
  | .full => 19
  | .crop => 9

/-- Bytes of a proof (R5). -/
def Mode.proofBytes : Mode → Scale → Nat
  | .full, .half => 32514048
  | .full, .quarter => 8128512
  | .crop, .half => 14450688
  | .crop, .quarter => 3612672

/-- Slabs of a proof (R5). -/
def Mode.proofSlabs : Mode → Scale → Nat
  | .full, .half => 8
  | .full, .quarter => 2
  | .crop, .half => 4
  | .crop, .quarter => 1

/-- Quads of a raw (00 Sizes, R45). -/
def Mode.quads : Mode → Nat
  | .full => 10838016
  | .crop => 4816896

/-- Stripes of a raw (R122). -/
def Mode.stripes : Mode → Nat
  | .full => 84
  | .crop => 56

/-- Blocks of a card item (R139). -/
def Mode.itemBlocks : Mode → Nat
  | .full => 148177
  | .crop => 65857

/-- Chunks of a card item (R139). -/
def Mode.itemChunks : Mode → Nat
  | .full => 73
  | .crop => 33

end Sys2Proof

namespace Sys2Proof.Machine

/-- DATA frames of a content of that many bytes (R66, R170). -/
def frameCount (bytes : Nat) : Nat := (bytes + (Config.framePayload - 1)) / Config.framePayload

/-- Payload of frame k of a stream of that many bytes (R66, R171). -/
def framePayloadLen (bytes k : Nat) : Nat := min Config.framePayload (bytes - k * Config.framePayload)

/-! ## Memory (R1, R5, R6) -/

/-- The byte at an address: what was last written there, or, where nothing was written since the part was powered,
an unknown value (R1, log 5). -/
def Memory.read (m : Memory) (a : Nat) : Byte :=
  match m.find? fun c => c.1 == a with
  | some c => c.2
  | none => Config.dramPowerOn a

/-- Write one byte, keeping the addresses in rising order. -/
def Memory.write : Memory → Nat → Byte → Memory
  | [], a, b => [(a, b)]
  | c :: m, a, b =>
    if a < c.1 then (a, b) :: c :: m
    else if a = c.1 then (a, b) :: m
    else c :: Memory.write m a b

/-- Canonical form: addresses strictly rising. An unlisted address reads as a free value, which no listed byte is known
to equal, so a write always lists its byte (log 5). -/
def Memory.wf : Memory → Bool
  | [] => true
  | [_] => true
  | c :: d :: m => c.1 < d.1 && Memory.wf (d :: m)

/-- The address of byte o of a chain (R5). -/
def chainAddr (chain : List Nat) (o : Nat) : Option Nat :=
  (chain[o / Config.slabBytes]?).map fun sl => sl * Config.slabBytes + o % Config.slabBytes

/-- An access lies within its chain (R6). -/
def inChain (chain : List Nat) (off len : Nat) : Bool := off + len ≤ chain.length * Config.slabBytes

/-- The bytes of a read access; an access that would run past the chain's end is not carried out (R6). -/
def readChain (m : Memory) (chain : List Nat) (off len : Nat) : List Byte :=
  if inChain chain off len then (List.range len).filterMap fun i => (chainAddr chain (off + i)).map (Memory.read m)
  else []

/-- Write consecutive bytes of a chain from an offset on. -/
def writeRun (chain : List Nat) : Nat → List Byte → Memory → Memory
  | _, [], m => m
  | o, b :: bs, m =>
    writeRun chain (o + 1) bs (match chainAddr chain o with | some a => Memory.write m a b | none => m)

/-- A write access; one that would run past the chain's end is not carried out (R6). -/
def writeChain (m : Memory) (chain : List Nat) (off : Nat) (bytes : List Byte) : Memory :=
  if inChain chain off bytes.length then writeRun chain off bytes m else m

/-! ## Records (R39, R40) -/

/-- The record with a shot number. -/
def State.record (s : State) (shot : Nat) : Option Record := s.cat.records.find? fun r => r.shot == shot

/-- Change the record with a shot number; its shot number stays. -/
def State.updRecord (s : State) (shot : Nat) (f : Record → Record) : State :=
  s.updCat fun c => { c with records := c.records.map fun r => if r.shot == shot then { f r with shot := r.shot } else r }

/-- Take the record with a shot number out of the collection (R42). -/
def State.dropRecord (s : State) (shot : Nat) : State :=
  s.updCat fun c => { c with records := c.records.filter fun r => r.shot != shot }

/-- A card requirement by slot. -/
def Record.req (r : Record) : SlotId → Requirement
  | .a => r.reqA
  | .b => r.reqB

/-- Set a card requirement (R46). -/
def State.setReq (s : State) (shot : Nat) (slot : SlotId) (q : Requirement) : State :=
  s.updRecord shot fun r => match slot with
    | .a => { r with reqA := q }
    | .b => { r with reqB := q }

/-- A tether mark by content. -/
def Record.tetherMark (r : Record) : Content → TetherMark
  | .raw => r.markRaw
  | .proof => r.markProof

/-- Set a tether mark (R46, R166). -/
def State.setMark (s : State) (shot : Nat) (c : Content) (m : TetherMark) : State :=
  s.updRecord shot fun r => match c with
    | .raw => { r with markRaw := m }
    | .proof => { r with markProof := m }

/-- Take a pin (R53). -/
def State.pin (s : State) (shot : Nat) (c : Content) : State :=
  s.updRecord shot fun r => match c with
    | .raw => { r with rawPins := r.rawPins + 1 }
    | .proof => { r with proofPins := r.proofPins + 1 }

/-- Give a pin back; a count never falls below 0 (R53). The caller has the release conditions tested (R57). -/
def State.unpin (s : State) (shot : Nat) (c : Content) : State :=
  s.updRecord shot fun r => match c with
    | .raw => { r with rawPins := r.rawPins - 1 }
    | .proof => { r with proofPins := r.proofPins - 1 }

/-- A content the TTC can pin (R53, R167 step 1). -/
def Record.available (r : Record) : Content → Bool
  | .raw => r.state == .stored && r.raw.isSome
  | .proof => r.state == .stored && (r.raw.isSome || r.proof.isSome)

/-- The catalog-space test: fewer than 256 records, and a shot number left to give (R32, R41). -/
def State.catalogSpace (s : State) : Bool :=
  s.cat.records.length < Config.maxRecords && s.cat.nextShot < Config.shotNumbersSpent

/-! ## Slots and send items -/

/-- A slot by name. -/
def State.slot (s : State) : SlotId → Slot
  | .a => s.crw.slotA
  | .b => s.crw.slotB

/-- Change one slot. -/
def State.updSlot (s : State) (i : SlotId) (f : Slot → Slot) : State :=
  s.updCrw fun c => match i with
    | .a => { c with slotA := f c.slotA }
    | .b => { c with slotB := f c.slotB }

/-- Overflow is in force (R138). -/
def State.overflowInForce (s : State) : Bool := s.crw.contentA && s.crw.contentB && s.crw.overflow

/-- The send item for a shot and content, if one is in the queue (R177: at most one). -/
def State.itemFor (s : State) (shot : Nat) (c : Content) : Option SendItem :=
  s.ttc.queue.find? fun i => i.shot == shot && i.content == c

/-- The SENDING item, if there is one (R177: at most one). -/
def State.sendingItem (s : State) : Option SendItem := s.ttc.queue.find? fun i => i.state == .sending

/-- Change the send item with a serial; its serial stays. -/
def State.updItem (s : State) (serial : Nat) (f : SendItem → SendItem) : State :=
  s.updTtc fun t => { t with queue := t.queue.map fun i => if i.serial == serial then { f i with serial := i.serial } else i }

/-- Take the send item with a serial out of the queue. -/
def State.dropItem (s : State) (serial : Nat) : State :=
  s.updTtc fun t => { t with queue := t.queue.filter fun i => i.serial != serial }

/-- The develop job of a shot, if one exists (R110: at most one). -/
def State.job (s : State) (shot : Nat) : Option Job := s.dve.jobs.find? fun j => j.shot == shot

/-- Change the develop job of a shot; its shot and its number stay. -/
def State.updJob (s : State) (shot : Nat) (f : Job → Job) : State :=
  s.updDve fun d => { d with jobs := d.jobs.map fun j => if j.shot == shot then { f j with shot := j.shot, number := j.number } else j }

/-- Take the develop job of a shot out of the list. -/
def State.dropJob (s : State) (shot : Nat) : State :=
  s.updDve fun d => { d with jobs := d.jobs.filter fun j => j.shot != shot }

/-- The current job: the one that is RUNNING or in WAIT_SLABS (R111). -/
def State.currentJob (s : State) : Option Job :=
  s.dve.jobs.find? fun j => j.state == .running || j.state == .waitSlabs

/-- The job in the suspension context of a class (R123). -/
def State.suspendedJob (s : State) (p : Priority) : Option Job :=
  s.dve.jobs.find? fun j => j.state == .suspended && j.cls == p

/-! ## What leaves the part (R185 to R187) -/

/-- Append a message to what a port has still to deliver, in the order produced (R185). -/
def State.send (s : State) (p : Port) (m : OutMsg) : State :=
  s.updPtc fun q => match p with
    | .body => { q with bodyOut := q.bodyOut ++ [m] }
    | .tether => { q with tetherOut := q.tetherOut ++ [m] }
    | .lens => { q with lensOut := q.lensOut ++ [m] }

/-- The kind of a request: its place in the manual's numbering, 1..44 (R186). -/
def Request.code (r : Request) : Nat := r.ctorIdx + 1

/-- The code of a result (R189). -/
def Result.code (r : Result) : Nat := r.ctorIdx

/-- Send the response of a request: its kind plus 0x80, its tag, the result, the DATA-follows flag, the body (R186). -/
def State.respond (s : State) (r : Request) (p : Port) (tag : Byte) (res : Result) (body : List Byte)
    (follows : Bool := false) : State :=
  s.send p (.response (BitVec.ofNat 8 (r.code + 0x80)) tag res follows body)

/-- Answer a request OK with a body. -/
def State.answer (s : State) (r : Request) (h : Header) (body : List Byte) : State := s.respond r h.port h.tag .ok body

/-- Refuse a request: an empty body, and nothing else changes (R186). -/
def State.refuse (s : State) (r : Request) (h : Header) (res : Result) : State := s.respond r h.port h.tag res []

/-- The messages left once one that `p` picks out has been delivered: those before it were delivered before (R185). -/
def dropThrough (p : OutMsg → Bool) : List OutMsg → List OutMsg
  | [] => []
  | m :: ms => if p m then ms else if ms.any p then dropThrough p ms else m :: ms

/-- Whether a message is the DATA frame of that tag and chunk index. -/
def isFrame (tag : Byte) (chunk : Nat) : OutMsg → Bool
  | .frame t c _ _ => t == tag && c == chunk
  | .response .. => false

/-! ## Notices (R190, R102) -/

/-- Capacity of a notice queue (R190). -/
def noticeCapacity : Port → Nat
  | .body => 32
  | .tether => 32
  | .lens => 1

def Notice.isOverrun : Notice → Bool
  | .overrun _ => true
  | _ => false

def Notice.isFocusResult : Notice → Bool
  | .focusResult _ => true
  | _ => false

/-- The lost count of an OVERRUN rises by 1 and stays at 65,535 (R190). -/
def Notice.loseOne : Notice → Notice
  | .overrun n => .overrun (sat16 n)
  | x => x

/-- Offer a notice to a body or tether queue of capacity c (R190). -/
def offerTo (c : Nat) (q : List Notice) (n : Notice) : List Notice :=
  if q.any Notice.isOverrun then q.map Notice.loseOne
  else if q.length < c - 1 then q ++ [n]
  else q ++ [.overrun 1]

/-- Offer a FOCUS_RESULT to the lens queue: it replaces the one the queue holds, or is appended (R102). -/
def offerLens (q : List Notice) (n : Notice) : List Notice :=
  if q.any Notice.isFocusResult then q.map fun x => if x.isFocusResult then n else x else q ++ [n]

/-- Set a port's notice queue. -/
def Ptc.setQueue (p : Ptc) (port : Port) (q : List Notice) : Ptc :=
  match port with
  | .body => { p with bodyQueue := q }
  | .tether => { p with tetherQueue := q }
  | .lens => { p with lensQueue := q }

/-- A block offers a notice to a port (R190). -/
def State.offer (s : State) (p : Port) (n : Notice) : State :=
  s.updPtc fun q => q.setQueue p (match p with
    | .lens => offerLens q.lensQueue n
    | .body => offerTo (noticeCapacity .body) q.bodyQueue n
    | .tether => offerTo (noticeCapacity .tether) q.tetherQueue n)

/-- Offer a notice of a condition class to the body port: dropped, and not counted, while the class is disabled
(R190, R191). -/
def State.offerClass (s : State) (enabled : Classes → Bool) (n : Notice) : State :=
  if enabled s.ptc.enables then s.offer .body n else s

/-- Whether a chain stands in an access or an operation that has not completed: a read of the TTC, the CRW or the READ
stream, the row writes of a frame, the stripe of the RUNNING job (R6, R10, log 9). -/
def State.chainInUse (s : State) (chain : List Nat) : Bool :=
  s.fsc.accesses.any (fun a => a.chain == chain)
    || (match s.siu.frame with
        | some f => (match f.capture with | some c => c.chain == chain | none => false)
        | none => false)
    || s.siu.ended.any (fun e => e.capture.chain == chain)
    || s.dve.jobs.any (fun j => j.state == .running
        && ((match j.progress with | some p => p.chain == chain | none => false)
          || (match s.record j.shot with | some r => r.raw == some chain | none => false)))

/-! ## Rounding (R69, 00 Integer arithmetic) -/

/-- Nearest integer to n / d, a half away from zero; d above 0. -/
def roundDiv (n : Int) (d : Nat) : Int :=
  let q : Nat := (2 * n.natAbs + d) / (2 * d)
  if n < 0 then -(q : Int) else (q : Int)

end Sys2Proof.Machine
end

