-- ==== Sys2Proof/Machine/Layout.lean ====
section
/-! DEFINITION. Byte layouts (R192, R195, R197 to R200): little-endian fields, named values by position, absent values, the shot info
record, the item header block, the notices, the GET_STATUS sections, the packing of raw samples. -/

namespace Sys2Proof

/-- FULL 0, CROP 1; A 0, B 1; body 0, tether 1, lens 2 (R194, R197). -/
def Mode.code (m : Mode) : Nat := m.ctorIdx
def SlotId.code (i : SlotId) : Nat := i.ctorIdx
def Port.code (p : Port) : Nat := p.ctorIdx

end Sys2Proof

namespace Sys2Proof.Machine

/-- A field of n bytes, little-endian (R197). -/
def le : Nat → Nat → List Byte
  | 0, _ => []
  | n + 1, v => BitVec.ofNat 8 v :: le n (v / 256)

/-- A signed field of n bytes, two's complement, little-endian (R197). -/
def leInt (n : Nat) (v : Int) : List Byte := le n (v % (256 ^ n : Nat)).toNat

/-- An on/off, set/clear or present/absent value (R197). -/
def leBool (b : Bool) : List Byte := le 1 (if b then 1 else 0)

/-- An absent value as all ones, where that pattern lies outside the field's range (R197). -/
def leOpt (n : Nat) : Option Nat → List Byte
  | some v => le n v
  | none => le n (256 ^ n - 1)

/-- A field whose all-ones pattern lies within its range, behind a presence byte; the bytes of an absent one are 0
(R197, log 17). -/
def leMaybe (n : Nat) : Option Nat → List Byte
  | some v => le 1 1 ++ le n v
  | none => le 1 0 ++ le n 0

/-- The same for a signed field. -/
def leMaybeInt (n : Nat) : Option Int → List Byte
  | some v => le 1 1 ++ leInt n v
  | none => le 1 0 ++ le n 0

/-! ## Named values (R197): position in the manual's list -/

def Thermal.code (t : Thermal) : Nat := t.ctorIdx
def Priority.code (p : Priority) : Nat := p.ctorIdx
def Scale.code (x : Scale) : Nat := x.ctorIdx
def Content.code (c : Content) : Nat := c.ctorIdx
def CaptureKind.code (k : CaptureKind) : Nat := k.ctorIdx
def RingMark.code (m : RingMark) : Nat := m.ctorIdx
def RecordState.code (x : RecordState) : Nat := x.ctorIdx
def Requirement.code (q : Requirement) : Nat := q.ctorIdx
def TetherMark.code (m : TetherMark) : Nat := m.ctorIdx
def ProofState.code (x : ProofState) : Nat := x.ctorIdx
def ZoneState.code (z : ZoneState) : Nat := z.ctorIdx
def PredFlag.code (f : PredFlag) : Nat := f.ctorIdx
def Engine.code (e : Engine) : Nat := e.ctorIdx
def Blocking.code (b : Blocking) : Nat := b.ctorIdx
def JobOrigin.code (o : JobOrigin) : Nat := o.ctorIdx
def JobState.code (x : JobState) : Nat := x.ctorIdx
def SlotState.code (x : SlotState) : Nat := x.ctorIdx
def ItemStatus.code (x : ItemStatus) : Nat := x.ctorIdx
def DetachPolicy.code (p : DetachPolicy) : Nat := p.ctorIdx

/-- Focus record code of the shot info record: 0 PENDING, 1 absent, 2 filled (R198). -/
def FocusRecord.code (f : FocusRecord) : Nat := f.ctorIdx

/-! ## Shot info record and item header block (R198) -/

/-- Bytes 40 to 59: zero unless the focus record is filled, and 41 to 54 zero when no zone was selected. -/
def focusBytes : FocusRecord → List Byte
  | .filled f =>
    (match f.selection with
      | some w => le 1 w.zone ++ le 1 ZoneState.valid.code ++ leInt 2 w.p ++ le 2 w.q ++ leInt 2 w.d ++ leInt 4 w.t
          ++ leInt 2 w.tPred ++ le 1 w.flag.code
      | none => le 1 0xFF ++ le 14 0)
      ++ leBool f.locked ++ le 2 f.lensPosition ++ le 1 f.negEdges ++ le 1 f.posEdges
  | .pending => le 20 0
  | .absent => le 20 0

/-- Bytes 60 to 71: zero while no done proof is present. -/
def proofBytes : Option DoneProof → List Byte
  | some p => le 1 p.params.scale.code ++ le 1 p.params.tone ++ le 2 p.params.wr ++ le 2 p.params.wg ++ le 2 p.params.wb
      ++ le 4 p.clipCount
  | none => le 12 0

/-- The 80-byte shot info record (R198). -/
def infoRecord (r : Record) : List Byte :=
  le 4 r.shot ++ le 4 r.frame ++ le 4 r.time
    ++ le 1 r.mode.code ++ le 1 r.kind.code ++ le 1 r.mark.code ++ le 1 r.state.code
    ++ le 2 r.tags.toNat ++ le 1 r.rating ++ le 1 (recordFlags r)
    ++ leOpt 2 r.bl ++ le 2 r.clip
    ++ le 1 r.reqA.code ++ le 1 r.reqB.code ++ le 1 r.markRaw.code ++ le 1 r.markProof.code
    ++ le 1 r.rawPins ++ le 1 r.proofPins ++ le 1 r.proofState.code ++ le 1 r.focus.code
    ++ le 2 r.snapshot.wr ++ le 2 r.snapshot.wg ++ le 2 r.snapshot.wb ++ le 1 r.snapshot.tone ++ le 1 r.snapshot.scale.code
    ++ focusBytes r.focus ++ proofBytes r.proof ++ le 8 0

/-- The 512-byte item header block of a raw item or a proof item (R198). -/
def headerBlock (r : Record) (c : Content) : List Byte :=
  infoRecord r ++ le 176 0 ++ (match c, r.proof with
    | .proof, some p => (List.range 64).flatMap fun i => le 4 (p.histogram.getD i 0)
    | _, _ => le 256 0)

/-! ## Notices (R191, R192, R199) -/

/-- Type code of a notice (R191). -/
def Notice.code : Notice → Nat
  | .autosendSuspended .. => 1
  | .cardItemDone .. => 2
  | .focusResult .. => 3
  | .itemAborted .. => 4
  | .itemsReady .. => 5
  | .overrun .. => 6
  | .proofDone .. => 7
  | .shortage .. => 8
  | .shotReleased .. => 9
  | .shotStored .. => 10
  | .slotState .. => 11
  | .thermalState .. => 12

/-- A sensor in a THERMAL_STATE notice: latest reading, invalid flag, sensor state (R183). -/
def sensorNotice (x : Sensor) : List Byte := leInt 2 (x.reading.getD (-1)) ++ leBool x.invalid ++ le 1 x.state.code

/-- The fields of a FOCUS_RESULT (R199). -/
def focusResultBytes (f : FocusSummary) : List Byte :=
  le 4 f.frame ++ le 1 (focusFlags f)
    ++ le 1 (match f.selection with | some w => w.zone | none => 0xFF)
    ++ le 2 (match f.lens with | some (p, _) => p | none => 0)
    ++ (match f.selection with
        | some w => le 4 w.c ++ leInt 2 w.p ++ le 2 w.q ++ leInt 2 w.d ++ leInt 4 w.t ++ leInt 2 w.tPred ++ le 1 w.flag.code
        | none => le 17 0)
    ++ leBool f.locked ++ le 1 f.validCount ++ le 1 f.negEdges ++ le 1 f.posEdges ++ le 3 0

/-- The fields of a notice, in the order of the owner's rule or of R199. -/
def Notice.fields : Notice → List Byte
  | .autosendSuspended e t => le 1 e ++ le 1 t
  | .cardItemDone shot slot status length written frags =>
      le 4 shot ++ le 1 slot.code ++ le 1 status.code ++ le 1 frags.length ++ le 1 0 ++ le 4 length ++ le 4 written
        ++ frags.flatMap fun e => le 4 e.first ++ le 4 e.count
  | .focusResult f => focusResultBytes f
  | .itemAborted serial shot c chunks => le 4 serial ++ le 4 shot ++ le 1 c.code ++ le 2 chunks
  | .itemsReady serial length => le 4 serial ++ le 1 length
  | .overrun lost => le 2 lost
  | .proofDone shot number origin scale tone clip quads hist =>
      le 4 shot ++ le 2 number ++ le 1 origin.code ++ le 1 scale.code ++ le 1 tone ++ le 4 clip ++ le 4 quads
        ++ (List.range 64).flatMap fun i => le 4 (hist.getD i 0)
  | .shortage frame free records skips => le 4 frame ++ le 2 free ++ le 2 records ++ le 2 skips
  | .shotReleased shot deleted => le 4 shot ++ leBool deleted
  | .shotStored shot frame mode kind truncated =>
      le 4 shot ++ le 4 frame ++ le 1 mode.code ++ le 1 kind.code ++ leBool truncated
  | .slotState slot previous new queue extents =>
      le 1 slot.code ++ le 1 previous.code ++ le 1 new.code ++ le 2 queue ++ le 1 extents
  | .thermalState previous new time die stack =>
      le 1 previous.code ++ le 1 new.code ++ le 4 time ++ sensorNotice die ++ sensorNotice stack

/-- A notice as FETCH_NOTICES carries it: type code, length of its fields, fields (R192). -/
def Notice.entry (n : Notice) : List Byte := le 1 n.code ++ le 2 n.fields.length ++ n.fields

/-! ## Headers (R197) -/

/-- A message as it leaves the part: message header and body, or DATA frame header and payload (R197). -/
def OutMsg.bytes : OutMsg → List Byte
  | .response kind tag result follows body =>
      [kind, tag] ++ le 1 result.code ++ le 1 (responseFlags follows) ++ le 2 body.length ++ body
  | .frame tag chunk payload aborted =>
      [0xFF, tag] ++ le 1 0 ++ le 1 (frameFlags aborted) ++ le 4 chunk ++ le 4 payload.length ++ payload

/-! ## GET_STATUS (R195) -/

/-- PTC section (R195, R201). -/
def ptcSection (s : State) : List Byte :=
  le 4 s.ptc.timeBase ++ le 1 s.ptc.bodyQueue.length ++ le 1 s.ptc.tetherQueue.length ++ le 1 s.ptc.lensQueue.length
    ++ leBool s.ptc.enables.thermal ++ leBool s.ptc.enables.shortage ++ leBool s.ptc.enables.slotState
    ++ leBool s.ptc.enables.autosend

/-- The eleven parameters, each in the width of its operand (R195, R196, log 16). -/
def paramsSection (s : State) : List Byte :=
  le 2 s.fsc.reserve ++ leBool (!s.crw.contentA) ++ leBool (!s.crw.contentB) ++ leBool s.crw.overflow
    ++ leBool s.cat.pressureYield ++ le 1 s.ttc.policy.code ++ le 2 s.ttc.silenceLimit ++ le 1 s.ttc.threshold
    ++ le 2 s.crw.stallLimit ++ le 2 s.siu.waitLimit ++ le 2 s.cat.clipLevel

/-- FSC section (R2). -/
def fscSection (s : State) : List Byte :=
  leBool s.fsc.configured ++ le 2 s.fsc.slabCount ++ leOpt 1 (s.fsc.mode.map Mode.code) ++ le 2 s.fsc.freeList.length
    ++ le 2 s.fsc.reserve

/-- SIU section (R22, R25). -/
def siuSection (s : State) : List Byte :=
  le 4 s.siu.frameCounter ++ le 2 s.siu.syncFaults ++ leOpt 2 s.siu.lastBl
    ++ le 1 s.siu.engine.code ++ leBool s.siu.shoot.isSome ++ leOpt 1 (s.siu.shoot.map fun p => p.reason.code)
    ++ le 1 s.siu.burst.divisor ++ le 2 s.siu.burst.maximum ++ le 4 s.siu.burst.frames ++ le 2 s.siu.burst.taken
    ++ le 2 s.siu.burst.skips ++ leBool s.siu.burst.shortage
    ++ leBool (!s.siu.pre.armed) ++ le 1 s.siu.pre.depth ++ le 1 s.siu.pre.divisor ++ le 4 s.siu.pre.frames
    ++ le 2 s.siu.waitLimit

/-- CAT section (R39): the next shot number 4,294,967,296 reads 0 in its four bytes. -/
def catSection (s : State) : List Byte := le 2 s.cat.records.length ++ le 4 s.cat.nextShot

/-- FE section (R72, R98). -/
def feSection (s : State) : List Byte :=
  leBool s.fe.lens.isSome ++ leOpt 2 (s.fe.lens.map Lens.position) ++ leMaybe 2 (s.fe.lens.map Lens.kc)
    ++ leOpt 2 (s.fe.lens.map Lens.travelMin) ++ leOpt 2 (s.fe.lens.map Lens.travelMax)
    ++ leOpt 1 (s.fe.lens.map fun l => if l.moving then 1 else 0) ++ le 2 s.fe.overruns
    ++ leBool s.fe.locked ++ le 1 s.fe.inCount ++ le 1 s.fe.outCount ++ le 1 s.fe.history.length
    ++ leMaybe 4 (s.fe.latest.map fun p => p.summary.frame)

/-- DVE section (R106, R110). -/
def dveSection (s : State) : List Byte :=
  let cur := s.currentJob
  let run := cur.bind fun j => if j.state == .running then some j else none
  le 2 s.dve.settings.wr ++ le 2 s.dve.settings.wg ++ le 2 s.dve.settings.wb ++ le 1 s.dve.settings.tone
    ++ le 1 s.dve.settings.scale.code ++ leBool s.dve.auto ++ le 1 s.dve.jobs.length
    ++ leMaybe 4 (cur.map Job.shot) ++ leMaybe 2 (cur.map Job.number) ++ leOpt 1 (cur.map fun j => j.state.code)
    ++ leOpt 1 (cur.map fun j => j.cls.code)
    ++ leOpt 1 (run.bind fun j => j.progress.map Progress.next) ++ leOpt 1 (run.map fun j => j.mode.stripes)
    ++ leMaybe 4 ((s.suspendedJob .urgent).map Job.shot) ++ leMaybe 4 ((s.suspendedJob .normal).map Job.shot)
    ++ le 1 s.dve.applied.code

/-- CRW section of one slot (R132); the pool's blocks may number 2^32, so they take 8 bytes (R197, log 16). -/
def slotSection (x : Slot) : List Byte :=
  le 1 x.state.code ++ leBool x.fullPending ++ le 1 x.pool.length ++ le 8 (x.pool.map Extent.count).sum
    ++ le 2 x.queue.length ++ leMaybe 4 (x.writing.map fun w => w.item.shot) ++ leOpt 1 (x.writing.map WritingItem.next)
    ++ le 1 x.blocks.length

/-- TTC section (R156). -/
def ttcSection (s : State) : List Byte :=
  leBool s.ttc.attached ++ le 1 s.ttc.queue.length ++ le 1 (s.ttc.queue.filter fun i => i.state == .ready).length
    ++ leMaybe 4 (s.sendingItem.map SendItem.serial) ++ le 1 s.ttc.errors ++ le 1 s.ttc.threshold
    ++ leBool (!s.ttc.armed) ++ le 2 s.ttc.drops

/-- A sensor in GET_STATUS (R184). -/
def sensorSection (x : Sensor) : List Byte :=
  leMaybeInt 2 x.reading ++ leBool x.invalid ++ le 1 x.state.code ++ le 1 x.hold

/-- THM section (R184), die first. -/
def thmSection (s : State) : List Byte := le 1 s.thm.part.code ++ sensorSection s.thm.die ++ sensorSection s.thm.stack

/-- The body of a GET_STATUS response, in the order of R195. -/
def statusBody (s : State) : List Byte :=
  ptcSection s ++ paramsSection s ++ fscSection s ++ siuSection s ++ catSection s ++ feSection s ++ dveSection s
    ++ slotSection s.crw.slotA ++ slotSection s.crw.slotB ++ ttcSection s ++ thmSection s

/-- The body of a GET_ZONE_MAP response (R103). Before any publication its NO_LENS and overrun flags are 0, which is the model's
choice (log 49). -/
def zoneMapBody (p : Option Publication) : List Byte :=
  let mark := fun (z : ZoneMark) => le 1 z.state.code ++ leMaybeInt 2 z.p ++ leOpt 2 z.q
  match p with
  | some p =>
      leBool true ++ le 4 p.summary.frame ++ leBool p.summary.noLens ++ leBool p.summary.overrun
        ++ leOpt 1 (p.summary.selection.map Selection.zone) ++ p.map.flatMap mark
  | none =>
      leBool false ++ le 4 0 ++ leBool false ++ leBool false ++ leOpt 1 none
        ++ (List.replicate Config.zones (ZoneMark.mk .inactive none none)).flatMap mark

/-- One record in a LIST_SHOTS response: shot number, record state, raw present, proof state (R64). -/
def listEntry (r : Record) : List Byte := le 4 r.shot ++ le 1 r.state.code ++ leBool r.raw.isSome ++ le 1 r.proofState.code

/-! ## Raw samples (R200) -/

/-- Four samples in seven bytes. -/
def packGroup (s0 s1 s2 s3 : Sample) : List Byte :=
  le 7 (s0.toNat + s1.toNat * 2 ^ 14 + s2.toNat * 2 ^ 28 + s3.toNat * 2 ^ 42)

/-- A row of samples, packed group after group. -/
def packRow : List Sample → List Byte
  | s0 :: s1 :: s2 :: s3 :: rest => packGroup s0 s1 s2 s3 ++ packRow rest
  | _ => []

/-- The number a run of bytes holds, little-endian. -/
def fromLe : List Byte → Nat
  | [] => 0
  | b :: bs => b.toNat + 256 * fromLe bs

/-- Sample k, 0..3, of a packed group. -/
def unpackSample (group : List Byte) (k : Nat) : Nat := fromLe group / 2 ^ (14 * k) % 2 ^ 14

end Sys2Proof.Machine
end

