-- ==== Sys2Proof/Machine/FrameStore.lean ====
section
/-! DEFINITION. The frame store's claims (R7, R8) and the develop engine's choice of its job, which the store's announcements
drive (R11, R116 to R120). -/

namespace Sys2Proof.Machine

/-! ## Claims (R7, R8) -/

/-- Take the first k slabs of the free list as a new chain (R5, R7). -/
def State.takeSlabs (s : State) (k : Nat) : State := s.updFsc fun f => { f with freeList := f.freeList.drop k }

/-- A CAPTURE claim for k slabs: whole or not at all, not limited by the reserve (R7). -/
def claimCapture (k : Nat) (s : State) : Option (List Nat × State) :=
  if s.fsc.configured && k ≤ s.fsc.freeList.length then some (s.fsc.freeList.take k, s.takeSlabs k) else none

/-- A DEVELOP claim for k slabs: it must leave at least the capture reserve (R8). -/
def claimDevelop (k : Nat) (s : State) : Option (List Nat × State) :=
  if s.fsc.configured && s.fsc.reserve + k ≤ s.fsc.freeList.length then some (s.fsc.freeList.take k, s.takeSlabs k)
  else none

/-! ## The engine's current job (R117 to R120) -/

/-- The claim of a picked or waiting job for its proof chain: RUNNING with fresh progress, or WAIT_SLABS (R118). -/
def claimFor (j : Job) (s : State) : State :=
  match claimDevelop (j.mode.proofSlabs j.params.scale) s with
  | some (chain, s') => s'.updJob j.shot fun x =>
      { x with state := .running,
               progress := some { chain := chain, next := 0, clipCount := 0, histogram := List.replicate 64 0 } }
  | none => s.updJob j.shot fun x => { x with state := .waitSlabs }

/-- The oldest job of a state and a class that may be picked (R117). -/
def State.oldestJob (s : State) (st : JobState) (c : Priority) : Option Job :=
  s.dve.jobs.find? fun j => j.state == st && j.cls == c && !j.cancel

/-- The job the pick takes: suspended URGENT, oldest QUEUED URGENT, suspended NORMAL, oldest QUEUED NORMAL; WARM passes
NORMAL jobs over, HOT passes over all (R117). -/
def State.nextPick (s : State) : Option Job :=
  let urgent := (s.oldestJob .suspended .urgent).or (s.oldestJob .queued .urgent)
  match s.dve.applied with
  | .hot => none
  | .warm => urgent
  | .normal => (urgent.or (s.oldestJob .suspended .normal)).or (s.oldestJob .queued .normal)

/-- The pick, made when the engine has no current job (R117): a suspended job resumes from its context without a claim
(R120), a queued job claims its chain (R118). -/
def pick (s : State) : State :=
  match s.currentJob, s.nextPick with
  | none, some j => if j.state == .suspended then s.updJob j.shot fun x => { x with state := .running } else claimFor j s
  | _, _ => s

/-- A job in WAIT_SLABS that `c` picks out returns to QUEUED and is no longer current (R119). -/
def requeueWaiting (c : Job → Bool) (s : State) : State :=
  match s.currentJob with
  | some j => if j.state == .waitSlabs && c j then s.updJob j.shot fun x => { x with state := .queued } else s
  | none => s

/-- An URGENT job appears: a NORMAL job in WAIT_SLABS gives way (R119). -/
def urgentAppears (s : State) : State := requeueWaiting (fun j => j.cls == .normal) s

/-- A release or a lowered reserve is announced: a job in WAIT_SLABS claims again at once (R11, R118). -/
def announceSlabs (s : State) : State :=
  match s.currentJob with
  | some j => if j.state == .waitSlabs then claimFor j s else s
  | none => s

/-- Apply a thermal state: WARM returns a waiting NORMAL job to QUEUED, HOT a waiting job of either class, and the engine
picks if it has no current job (R116, R119). -/
def applyThermal (t : Thermal) (s : State) : State :=
  pick (requeueWaiting (fun j => t == .hot || (t == .warm && j.cls == .normal))
    (s.updDve fun d => { d with applied := t }))

/-- The Thermal Monitor hands a change to the DVE: applied at once, or kept pending while a job is RUNNING (R116). -/
def handThermalToDve (t : Thermal) (s : State) : State :=
  if s.dve.jobs.any fun j => j.state == .running then s.updDve fun d => { d with pendingThermal := some t }
  else applyThermal t s

end Sys2Proof.Machine
end

