-- ==== Sys2Proof/Machine/Release.lean ====
section
/-! DEFINITION. Release: how a chain returns to the free list (R10, R11), the accesses it waits for (R6), the release conditions of a
record (R54 to R57) and the READ stream that a release or a cut meets (R67). -/

namespace Sys2Proof.Machine

/-- The FSC carries a release out: the chain's slabs join the tail of the free list, and the release is announced
(R10, R11). -/
def carryOutRelease (chain : List Nat) (s : State) : State :=
  announceSlabs (s.updFsc fun f => { f with freeList := f.freeList ++ chain })

/-- The FSC takes a release: at once, or after the last access to the chain completes (R10). -/
def releaseChain (chain : List Nat) (s : State) : State :=
  if s.chainInUse chain then s.updFsc fun f => { f with releasing := f.releasing ++ [chain] }
  else carryOutRelease chain s

/-- Carry out the releases of the given chains that no access holds back any longer (R10). -/
def settleReleases : List (List Nat) → State → State
  | [], s => s
  | c :: cs, s =>
    settleReleases cs
      (if s.chainInUse c then s
       else carryOutRelease c (s.updFsc fun f => { f with releasing := f.releasing.erase c }))

/-- An access begins (R6). -/
def beginAccess (u : AccessUser) (chain : List Nat) (s : State) : State :=
  s.updFsc fun f => { f with accesses := f.accesses ++ [{ user := u, chain := chain }] }

/-- The access of a user to a chain completes, with those it made before it to the same chain (R6: completions come in
order); a release that waited for it is carried out (R10). -/
def endAccess (u : AccessUser) (chain : List Nat) (s : State) : State :=
  let s := s.updFsc fun f => { f with accesses := f.accesses.filter fun a => !(a.user == u && a.chain == chain) }
  settleReleases s.fsc.releasing s

/-! ## Release conditions (R54 to R57) -/

/-- R54: the raw of a record is released. -/
def Record.rawFree (r : Record) (s : State) : Bool :=
  (r.state == .stored || r.state == .deleting) && r.rawPins == 0 && r.reqA.settled && r.reqB.settled
    && (s.job r.shot).isNone

/-- Release the raw of a record when R54 allows it. -/
def releaseRaw (shot : Nat) (s : State) : State :=
  match s.record shot with
  | some r =>
    match r.raw with
    | some chain =>
      if r.rawFree s then releaseChain chain (s.updRecord shot fun x => { x with raw := none }) else s
    | none => s
  | none => s

/-- R55: the done proof of a record is released; the proof state becomes NONE. -/
def releaseProof (shot : Nat) (s : State) : State :=
  match s.record shot with
  | some r =>
    match r.proof with
    | some p =>
      if r.proofPins == 0 && (r.raw.isNone || r.state == .deleting) then
        releaseChain p.chain (s.updRecord shot fun x => { x with proof := none, proofState := .none })
      else s
    | none => s
  | none => s

/-- R56: nothing refers to the record any longer. -/
def Record.freeable (r : Record) (s : State) : Bool :=
  (r.state == .stored || r.state == .deleting) && r.raw.isNone && r.proof.isNone && (s.job r.shot).isNone
    && !(match s.crw.slotA.writing with | some w => w.item.shot == r.shot | none => false)
    && !(match s.crw.slotB.writing with | some w => w.item.shot == r.shot | none => false)
    && !(s.ttc.queue.any fun i => i.shot == r.shot && i.state == .sending)
    && !(match s.ptc.read with | some x => x.shot == r.shot | none => false)

/-- R56: free a record: SHOT_RELEASED to the body port, then the deferred answer of its DELETE. -/
def freeRecord (shot : Nat) (s : State) : State :=
  match s.record shot with
  | some r =>
    if r.freeable s then
      let s := (s.offer .body (.shotReleased shot (r.state == .deleting))).dropRecord shot
      match r.deleteTag with
      | some tag => s.respond .delete .body tag .ok []
      | none => s
    else s
  | none => s

/-- R57: test the release conditions of one record: R54, then R55, then R56. -/
def testRelease (shot : Nat) (s : State) : State := freeRecord shot (releaseProof shot (releaseRaw shot s))

/-- Unpin a content and test the record (R53, R57). -/
def unpinAndTest (shot : Nat) (c : Content) (s : State) : State := testRelease shot (s.unpin shot c)

/-! ## The READ stream (R66, R67) -/

/-- Send frame `next` of the READ stream: one access to its chain, one DATA frame on the body port (R67). -/
def sendReadFrame (x : ReadStream) (s : State) : State :=
  let payload := readChain s.dram x.chain (x.next * Config.framePayload) (framePayloadLen x.total x.next)
  ((beginAccess .readStream x.chain s).updPtc fun p => { p with read := some x }).send .body
    (.frame x.tag x.next payload false)

/-- Cut the READ stream if `c` picks it out: the frame being sent is completed first (R67). -/
def cutRead (c : ReadStream → Bool) (s : State) : State :=
  match s.ptc.read with
  | some x => if c x then s.updPtc fun p => { p with read := some { x with cut := true } } else s
  | none => s

/-- The READ stream ends, and the record of its shot is tested (R67, R57). -/
def endRead (shot : Nat) (s : State) : State := testRelease shot (s.updPtc fun p => { p with read := none })

end Sys2Proof.Machine
end

