-- ==== Sys2Proof/Machine/SendQueue.lean ====
section
/-! DEFINITION. The send queue and the job list where they touch: READY and leaving of send items (R166), creation, merge, end and
cancellation of develop jobs with their announcements (R112 to R115, R129, R130, R169). -/

namespace Sys2Proof.Machine

/-- The first number from n on that none of the held ones equals (R110, R166); `fuel` exceeds the number held. -/
def freeNumber (next : Nat → Nat) (held : List Nat) : Nat → Nat → Nat
  | 0, n => n
  | fuel + 1, n => if held.contains n then freeNumber next held fuel (next n) else n

/-- A serial advances from 4,294,967,295 to 1 (R166). -/
def nextSerialAfter (n : Nat) : Nat := if n + 1 < Config.wrap32 then n + 1 else 1

/-- A job number advances from 65,535 to 0 (R110). -/
def nextJobAfter (n : Nat) : Nat := (n + 1) % Config.wrap16

/-! ## Send items (R166) -/

/-- An item becomes READY: ITEMS_READY is offered when no other item is READY (R166). -/
def becomeReady (serial : Nat) (s : State) : State :=
  let others := s.ttc.queue.any fun i => i.state == .ready && i.serial != serial
  let s := s.updItem serial fun i => { i with state := .ready }
  if others then s else s.offer .tether (.itemsReady serial s.ttc.queue.length)

/-- An item leaves the queue: its shot's mark for its content takes the outcome, the content is unpinned (R166). -/
def leaveQueue (i : SendItem) (m : TetherMark) (s : State) : State :=
  ((s.dropItem i.serial).setMark i.shot i.content m).unpin i.shot i.content

/-- The same, and the CAT tests the record (R57). -/
def leaveAndTest (i : SendItem) (m : TetherMark) (s : State) : State := testRelease i.shot (leaveQueue i m s)

/-- Condition 6 of R164 and the clip test of R169: clip count times 1000 at most limit times quad count. -/
def withinClip (clip limit : Nat) (mode : Mode) : Bool := clip * 1000 ≤ limit * mode.quads

/-! ## Announcements to the TTC (R115, R169) -/

/-- A job is created: a READY PROOF item of the shot returns to WAITING_PROOF (R169). -/
def ttcJobCreated (shot : Nat) (s : State) : State :=
  match s.itemFor shot .proof with
  | some i => if i.state == .ready then s.updItem i.serial fun x => { x with state := .waitingProof } else s
  | none => s

/-- A job has completed: the shot's WAITING_PROOF item becomes READY, or is dropped by the clip test (R169). -/
def ttcJobCompleted (shot clip : Nat) (mode : Mode) (s : State) : State :=
  match s.itemFor shot .proof with
  | some i =>
    if i.state == .waitingProof then
      if withinClip clip i.maxClip mode then becomeReady i.serial s else leaveAndTest i .dropped s
    else s
  | none => s

/-! ## Develop jobs (R110 to R115, R130) -/

/-- The number the next job is given (R110); the next number goes on from the one given, also when held ones were passed over
(log 46). -/
def State.newJobNumber (s : State) : Nat :=
  freeNumber nextJobAfter (s.dve.jobs.map Job.number) Config.maxJobs s.dve.nextJob

/-- A new job at the tail of the list, announced to the CAT and to the TTC, and then the pick (R112 step 7, R114 step 5,
R115, R117). -/
def createJob (shot : Nat) (mode : Mode) (params : DevelopParams) (cls : Priority) (origin : JobOrigin) (s : State) : State :=
  let number := s.newJobNumber
  let job : Job := { number := number, shot := shot, mode := mode, params := params, cls := cls, origin := origin,
                     state := .queued, cancel := false, progress := none }
  let s := s.updDve fun d => { d with jobs := d.jobs ++ [job], nextJob := nextJobAfter number }
  let s := ttcJobCreated shot (s.updRecord shot fun r => { r with proofState := .pending })
  pick (if cls == .urgent then urgentAppears s else s)

/-- What the DVE answers to an internal request (R114). -/
inductive JobAnswer where
  | notReady | merged | proofBusy | queueFull | new
  deriving DecidableEq, Repr

/-- A PROOF item of the shot is SENDING (R112 step 4, R114 step 3). -/
def State.proofSending (s : State) (shot : Nat) : Bool :=
  s.ttc.queue.any fun i => i.shot == shot && i.content == .proof && i.state == .sending

/-- The job a DEVELOP or an internal request merges into rises to URGENT: a NORMAL job in WAIT_SLABS gives way; then the
pick (R113, R114, R117, R119). -/
def afterMerge (raised : Bool) (s : State) : State := pick (if raised then urgentAppears s else s)

/-- An internal merge raises the class of a QUEUED or WAIT_SLABS job, and a job in WAIT_SLABS that it raises returns to
QUEUED; parameters and origin stay (R114 step 2). -/
def mergeInternal (j : Job) (cls : Priority) (s : State) : State :=
  if j.state == .queued || j.state == .waitSlabs then
    let raised := j.cls == .normal && cls == .urgent
    afterMerge raised (s.updJob j.shot fun x =>
      { x with cls := j.cls.higher cls, state := if raised then .queued else x.state })
  else s

/-- An internal job request (R114). -/
def internalRequest (shot : Nat) (params : DevelopParams) (cls : Priority) (origin : JobOrigin) (s : State) :
    JobAnswer × State :=
  match s.record shot with
  | none => (.notReady, s)
  | some r =>
    if r.state != .stored || r.raw.isNone then (.notReady, s)
    else match s.job shot with
      | some j => (.merged, mergeInternal j cls s)
      | none =>
        if s.proofSending shot then (.proofBusy, s)
        else if Config.maxJobs ≤ s.dve.jobs.length then (.queueFull, s)
        else (.new, createJob shot r.mode params cls origin s)

/-- A DEVELOP merged into a QUEUED or WAIT_SLABS job (R113). -/
def mergeDevelop (j : Job) (params : DevelopParams) (cls : Priority) (origin : JobOrigin) (s : State) : State :=
  afterMerge (j.cls == .normal && cls == .urgent) (s.updJob j.shot fun x =>
    { x with params := params, cls := j.cls.higher cls, origin := origin, state := .queued })

/-- A job leaves the list cancelled or removed: the CAT sets the proof state, releases a partial chain handed back and
tests the record; the TTC has nothing to do; the engine picks (R45, R115, R130, R169). -/
def endCancelled (j : Job) (s : State) : State :=
  let s := (s.dropJob j.shot).updRecord j.shot fun r => { r with proofState := if r.proof.isSome then .done else .none }
  let s := match j.progress with
    | some p => releaseChain p.chain s
    | none => s
  pick (testRelease j.shot s)

/-- The CAT asks the DVE to cancel a shot's job (R130). -/
def cancelJob (shot : Nat) (s : State) : State :=
  match s.job shot with
  | some j => if j.state == .running then s.updJob shot fun x => { x with cancel := true } else endCancelled j s
  | none => s

/-- A job completes (R129): out of the list; the CAT sets the new done proof in place of the old one, cuts a READ_PROOF of
it, releases the old chain, sets DONE and tests the record; PROOF_DONE; the TTC; the pick. -/
def completeJob (j : Job) (p : Progress) (s : State) : State :=
  let old := (s.record j.shot).bind Record.proof
  let new : DoneProof := { params := j.params, chain := p.chain, clipCount := p.clipCount, histogram := p.histogram }
  let s := (s.dropJob j.shot).updRecord j.shot fun r => { r with proof := some new, proofState := .done }
  let s := match old with
    | some o => releaseChain o.chain (cutRead (fun x => x.shot == j.shot && x.content == .proof) s)
    | none => s
  let s := testRelease j.shot s
  let s := s.offer .body
    (.proofDone j.shot j.number j.origin j.params.scale j.params.tone p.clipCount j.mode.quads p.histogram)
  pick (ttcJobCompleted j.shot p.clipCount j.mode s)

/-! ## Enqueueing send items (R167) -/

/-- How an enqueueing ends (R167). -/
inductive Enqueued where
  | unavailable | noSpace | noJob (answer : JobAnswer) | joined
  deriving DecidableEq, Repr

/-- The serial the next item is given (R166); the next serial goes on from the one given, also when held ones were passed over
(log 46). -/
def State.newSerial (s : State) : Nat :=
  freeNumber nextSerialAfter (s.ttc.queue.map SendItem.serial) Config.maxSendItems s.ttc.nextSerial

/-- Steps 4 and 5 of R167: pin and join, then the state. -/
def joinQueue (shot : Nat) (c : Content) (cls : Priority) (origin : Option Nat) (maxClip : Nat) (scale : Scale) (s : State) : State :=
  let serial := s.newSerial
  let item : SendItem := { serial := serial, shot := shot, content := c, cls := cls, state := .waitingProof, attempts := 0,
                           origin := origin, maxClip := maxClip, scale := scale, transfer := none, cut := .clear,
                           cancelTag := none }
  let s := ((s.pin shot c).updTtc fun t => { t with queue := t.queue ++ [item], nextSerial := nextSerialAfter serial }).setMark
    shot c .queued
  match c, s.record shot with
  | .raw, _ => becomeReady serial s
  | .proof, some r => if r.proofState == .done then becomeReady serial s else s
  | .proof, none => s

/-- A rule item or a manual item is enqueued (R167). -/
def enqueueItem (shot : Nat) (c : Content) (cls : Priority) (origin : Option Nat) (maxClip : Nat) (scale : Scale) (s : State) :
    Enqueued × State :=
  match s.record shot with
  | none => (.unavailable, s)
  | some r =>
    if !r.available c then (.unavailable, s)
    else if Config.maxSendItems ≤ s.ttc.queue.length then (.noSpace, s)
    else if c == .proof && r.proofState == .none then
      match internalRequest shot { r.snapshot with scale := scale } cls
          (if origin.isSome then .rule else .tether) s with
      | (.new, s') => (.joined, joinQueue shot c cls origin maxClip scale s')
      | (.merged, s') => (.joined, joinQueue shot c cls origin maxClip scale s')
      | (a, s') => (.noJob a, s')
    else (.joined, joinQueue shot c cls origin maxClip scale s)

/-- An existing item's class rises to the higher of two; a WAITING_PROOF item so raised to URGENT has the DVE raise its
job (R165 step 1, R168 step 3). -/
def raiseItem (i : SendItem) (cls : Priority) (s : State) : State :=
  let s' := s.updItem i.serial fun x => { x with cls := i.cls.higher cls }
  if i.state == .waitingProof && i.cls == .normal && cls == .urgent then
    match s.record i.shot with
    | some r => (internalRequest i.shot { r.snapshot with scale := i.scale } .urgent
        (if i.origin.isSome then .rule else .tether) s').2
    | none => s'
  else s'

/-! ## Rules (R163 to R165) -/

/-- The record's focus record is filled and LOCKED (R164 condition 5). -/
def Record.lockedFocus (r : Record) : Bool :=
  match r.focus with
  | .filled f => f.locked
  | .pending => false
  | .absent => false

/-- R164: a rule matches a shot. -/
def SendRule.matchesRecord (u : SendRule) (r : Record) : Bool :=
  u.enabled && (r.tags ^^^ u.flagValue) &&& u.flagMask == 0 && (u.anyOf == 0 || u.anyOf &&& r.tags != 0)
    && u.minRating ≤ r.rating && (!u.requireLock || r.lockedFocus)
    && (u.content != .proof || r.proofState != .done
        || (match r.proof with | some p => withinClip p.clipCount u.maxClip r.mode | none => true))

/-- A matching rule acts (R165): raise an existing item, pass a SENT content over, or enqueue; an item that finds no space
or no job is dropped (R167). -/
def actOnMatch (index : Nat) (u : SendRule) (shot : Nat) (s : State) : State :=
  match s.itemFor shot u.content with
  | some i => raiseItem i u.cls s
  | none =>
    match s.record shot with
    | none => s
    | some r =>
      if r.tetherMark u.content == .sent then s
      else match enqueueItem shot u.content u.cls (some index) u.maxClip u.scale s with
        | (.unavailable, s') => s'
        | (.noSpace, s') => (s'.setMark shot u.content .dropped).updTtc fun t => { t with drops := sat16 t.drops }
        | (.noJob _, s') => s'.setMark shot u.content .dropped
        | (.joined, s') => s'

/-- The rules from an index on, in order; each sees what the ones before it changed (R163). -/
def applyRules (shot : Nat) : Nat → List SendRule → State → State
  | _, [], s => s
  | k, u :: us, s =>
    applyRules shot (k + 1) us (match s.record shot with
      | some r => if u.matchesRecord r then actOnMatch k u shot s else s
      | none => s)

/-- Evaluate the send rules for one shot: carried out when the session is ATTACHED and auto-send ARMED (R163). -/
def evaluateRules (shot : Nat) (s : State) : State :=
  if s.ttc.attached && s.ttc.armed then applyRules shot 0 s.ttc.rules s else s

/-! ## Cuts, detaching, suspension (R160, R173, R174) -/

/-- The outstanding CANCEL_ITEM of an item, if any, is answered OK (R173). -/
def answerCancel (i : SendItem) (s : State) : State :=
  match i.cancelTag with
  | some tag => s.respond .cancelItem .tether tag .ok []
  | none => s

/-- The number of chunks of an item that have been delivered (R173). -/
def SendItem.delivered (i : SendItem) : Nat := match i.transfer with | some t => t.next | none => 0

/-- A deletion cut ends an item: it leaves with its mark DROPPED, ITEM_ABORTED, an outstanding CANCEL_ITEM answered, the
record tested (R173). -/
def endDeleted (i : SendItem) (s : State) : State :=
  testRelease i.shot (answerCancel i
    ((leaveQueue i .dropped s).offer .tether (.itemAborted i.serial i.shot i.content i.delivered)))

/-- A cancellation ends an item (R173). -/
def endCanceled (i : SendItem) (s : State) : State := testRelease i.shot (answerCancel i (leaveQueue i .dropped s))

/-- A SENDING item returns to READY at the head of the queue, its transfer phase cleared (R160, R172). -/
def returnToHead (i : SendItem) (s : State) : State :=
  let back := { i with state := .waitingProof, transfer := none, cut := .clear, cancelTag := none }
  becomeReady i.serial ((s.dropItem i.serial).updTtc fun t => { t with queue := back :: t.queue })

/-- The stream of an item stops at once: its frame in flight is abandoned and not delivered, and its read of the content is
over, since a READY item's raw is not being read (R160, R61, log 9). -/
def abandonFrame (i : SendItem) (s : State) : State :=
  match i.transfer with
  | some t =>
    if t.awaiting then s
    else endAccess .tether t.chain
      (s.updPtc fun p => { p with tetherOut := p.tetherOut.filter fun m => !isFrame t.tag t.next m })
  | none => s

/-- First step of R160 and R157: the SENDING item by its cut mark; `keep` is the policy KEEP, or a reopened session. -/
def settleSending (keep : Bool) (s : State) : State :=
  match s.sendingItem with
  | none => s
  | some i =>
    let s := abandonFrame i s
    match i.cut with
    | .delete => endDeleted i s
    | .cancel => endCanceled i s
    | .clear => if keep then returnToHead i s else s

/-- Second step of R160 under DROP: every remaining item leaves, in queue order. -/
def dropItems : List SendItem → State → State
  | [], s => s
  | i :: is, s => dropItems is (leaveAndTest i .dropped s)

/-- The session enters DETACHED (R160). -/
def detachSession (s : State) : State :=
  let s := s.updTtc fun t => { t with attached := false, silence := none }
  let s := settleSending (s.ttc.policy == .keep) s
  match s.ttc.policy with
  | .keep => s
  | .drop => dropItems s.ttc.queue s

/-- Auto-send becomes SUSPENDED, with its notice to the tether and the body port (R174). -/
def suspendAutosend (s : State) : State :=
  let s := s.updTtc fun t => { t with armed := false }
  let n := Notice.autosendSuspended s.ttc.errors s.ttc.threshold
  (s.offer .tether n).offerClass Classes.autosend n

/-- The silence timer starts anew with the silence limit (R159). -/
def startSilence (s : State) : State := s.updTtc fun t => { t with silence := some (t.silenceLimit * 1000) }

/-- The TTC ends the items of a shot that is being deleted (R59 steps 2 and 3, R173): READY and WAITING_PROOF items leave at
once; an item awaiting its result is cut at once; a streaming one is marked DELETE. -/
def deleteItems : List SendItem → State → State
  | [], s => s
  | i :: is, s =>
    deleteItems is (match i.state with
      | .waitingProof => leaveQueue i .dropped s
      | .ready => leaveQueue i .dropped s
      | .sending =>
        match i.transfer with
        | some t => if t.awaiting then endDeleted i s else s.updItem i.serial fun x => { x with cut := .delete }
        | none => endDeleted i s)

/-! ## Downgrades (R61, R62) -/

/-- The item that a downgrade turns to PROOF joins that content (R62). Its attempts and its proof scale, of which R62 does not
speak, stay as they were (log 47). -/
def renameToProof (i : SendItem) (st : ItemState) (s : State) : State :=
  ((s.updItem i.serial fun x => { x with content := .proof, state := st }).pin i.shot .proof).setMark i.shot .proof .queued

/-- A downgrade of a READY NORMAL RAW item (R62), with the release test that follows it. -/
def downgrade (i : SendItem) (s : State) : State :=
  let had := (s.itemFor i.shot .proof).isSome
  let s := (s.unpin i.shot .raw).setMark i.shot .raw .dropped
  testRelease i.shot (match s.record i.shot with
    | none => s.dropItem i.serial
    | some r =>
      if had then s.dropItem i.serial
      else match r.proofState with
        | .done => renameToProof i .ready s
        | .pending => renameToProof i .waitingProof s
        | .none =>
          match internalRequest i.shot { r.snapshot with scale := .quarter } .normal .relief (renameToProof i .waitingProof s) with
          | (.new, s') => s'
          | (.merged, s') => s'
          | (_, s') => ((s'.dropItem i.serial).unpin i.shot .proof).setMark i.shot .proof .dropped)

/-- The need of a capture candidate is met: a record's place and k slabs (R61). -/
def needMet (k : Nat) (s : State) : Bool :=
  s.cat.records.length < Config.maxRecords && k ≤ s.fsc.freeList.length

/-- The oldest item that relief may downgrade: READY, NORMAL, naming RAW (R61). -/
def State.yieldingItem (s : State) : Option SendItem :=
  s.ttc.queue.find? fun i => i.state == .ready && i.cls == .normal && i.content == .raw

/-- Pressure relief (R61): downgrades while the need is unmet. Each downgrade leaves one RAW item fewer, so the length of
the queue bounds them. -/
def relieve (k : Nat) : Nat → State → State
  | 0, s => s
  | fuel + 1, s =>
    if needMet k s || !s.cat.pressureYield then s
    else match s.yieldingItem with
      | some i => relieve k fuel (downgrade i s)
      | none => s

end Sys2Proof.Machine
end

