-- ==== Sys2Proof/Machine/CardSlots.lean ====
section
/-! DEFINITION. The card writer's operations: slot states and their notices (R133), extents and fragments (R141 to R144), starting the
head item (R143), the arbiter (R146), the end of an item (R151), faults and removal (R149, R150), migration (R140),
aborts and removals for deletion (R152), enqueueing (R139). -/

namespace Sys2Proof.Machine

/-! ## Slot states (R133) -/

/-- A change between IDLE and WRITING offers no notice (R133). -/
def quietMove : SlotState → SlotState → Bool
  | .idle, .writing => true
  | .writing, .idle => true
  | _, _ => false

/-- The SLOT_STATE notice of a slot as it stands (R133). -/
def slotNotice (i : SlotId) (previous : SlotState) (s : State) : Notice :=
  .slotState i previous (s.slot i).state (s.slot i).queue.length (s.slot i).pool.length

/-- A slot changes state and the notice is offered (R133). -/
def moveSlot (i : SlotId) (new : SlotState) (s : State) : State :=
  let old := (s.slot i).state
  let s := s.updSlot i fun x => { x with state := new }
  if old == new || quietMove old new then s else s.offerClass Classes.slotState (slotNotice i old s)

/-! ## Extents (R141, R143, R144) -/

/-- Two extents overlap when they share a block (R141). -/
def Extent.overlaps (x y : Extent) : Bool := x.first < y.first + y.count && y.first < x.first + x.count

/-- The extents a new extent or a block write must not touch: the pool's and the writing item's fragments (R141, R147). -/
def Slot.taken (x : Slot) : List Extent := x.pool ++ (match x.writing with | some w => w.fragments | none => [])

/-- The extents of a list are pairwise disjoint (R142). -/
def disjointExtents : List Extent → Bool
  | [] => true
  | e :: es => es.all (fun x => !e.overlaps x) && disjointExtents es

/-- Build fragments from the head of the pool until the need is covered, at most `limit` of them: the fragments and the
pool that is left (R143). -/
def buildFragments : Nat → List Extent → Nat → Option (List Extent × List Extent)
  | _, pool, 0 => some ([], pool)
  | 0, _, _ + 1 => none
  | _ + 1, [], _ + 1 => none
  | limit + 1, e :: pool, need + 1 =>
    if need + 1 < e.count then
      some ([{ first := e.first, count := need + 1 }], { first := e.first + (need + 1), count := e.count - (need + 1) } :: pool)
    else (buildFragments limit pool (need + 1 - e.count)).map fun r => (e :: r.1, r.2)

/-- Skip the first blocks of a list of fragments. -/
def skipBlocks : Nat → List Extent → List Extent
  | _, [] => []
  | 0, es => es
  | n + 1, e :: es =>
    if n + 1 < e.count then { first := e.first + (n + 1), count := e.count - (n + 1) } :: es
    else skipBlocks (n + 1 - e.count) es

/-- The first blocks of a list of fragments, as runs. -/
def firstBlocks : Nat → List Extent → List Extent
  | _, [] => []
  | 0, _ => []
  | n + 1, e :: es =>
    if n + 1 < e.count then [{ first := e.first, count := n + 1 }] else e :: firstBlocks (n + 1 - e.count) es

/-- The blocks of chunk j of an item (R144). -/
def chunkLength (m : Mode) (j : Nat) : Nat := min Config.chunkBlocks (m.itemBlocks - j * Config.chunkBlocks)

/-- The card addresses of chunk j: one run for each fragment it touches, in item block order (R144). -/
def chunkRuns (w : WritingItem) : List Extent :=
  firstBlocks (chunkLength w.item.mode w.next) (skipBlocks (w.next * Config.chunkBlocks) w.fragments)

/-- The bytes of chunk j: item block 0 is the header block as the CAT holds the record now, block k the k-th 512 bytes of
the raw (R144, R145). -/
def chunkBytes (w : WritingItem) (s : State) : List Byte :=
  match s.record w.item.shot with
  | some r =>
    let chain := r.raw.getD []
    if w.next = 0 then headerBlock r .raw ++ readChain s.dram chain 0 ((chunkLength w.item.mode 0 - 1) * 512)
    else readChain s.dram chain ((w.next * Config.chunkBlocks - 1) * 512) (chunkLength w.item.mode w.next * 512)
  | none => []

/-! ## The arbiter (R146) -/

/-- The writing item has a chunk to go (R146). -/
def Slot.chunkReady (x : Slot) : Bool :=
  match x.writing with
  | some w => x.state == .writing && !w.abort && w.next < w.item.mode.itemChunks
  | none => false

/-- Issue the oldest block request as one card operation and start the stall timer (R146 to R149). -/
def takeBlock (i : SlotId) (b : BlockRequest) (s : State) : State :=
  s.updSlot i fun x =>
    { x with op := some { kind := if b.write then .blockWrite else .blockRead, issued := true, timer := s.crw.stallLimit,
                          runs := [{ first := b.first, count := b.count }], payload := b.payload },
             lastWasBlock := true }

/-- Begin the next chunk of the writing item: the FSC reads of its raw bytes (R145). The operation is issued when they
have completed. -/
def takeChunk (i : SlotId) (w : WritingItem) (s : State) : State :=
  let chain := ((s.record w.item.shot).bind Record.raw).getD []
  (beginAccess (.card i) chain s).updSlot i fun x =>
    { x with op := some { kind := .chunk, issued := false, timer := s.crw.stallLimit, runs := chunkRuns w,
                          payload := chunkBytes w s },
             lastWasBlock := false }

/-- The slot arbiter: with no operation in flight, block request and chunk alternate, and the only kind that is ready is
taken (R146). -/
def arbitrate (i : SlotId) (s : State) : State :=
  let x := s.slot i
  if x.op.isSome || !x.state.isOpen then s
  else match x.blocks, x.writing with
    | b :: _, some w => if x.chunkReady && x.lastWasBlock then takeChunk i w s else takeBlock i b s
    | b :: _, none => takeBlock i b s
    | [], some w => if x.chunkReady then takeChunk i w s else s
    | [], none => s

/-! ## Starting the head item (R143) -/

/-- Try to start the head item of a slot that is IDLE or in WAIT_EXTENTS; a slot in WAIT_EXTENTS whose queue is empty
becomes IDLE (R143). -/
def tryHead (i : SlotId) (s : State) : State :=
  let x := s.slot i
  if x.state == .idle || x.state == .waitExtents then
    match x.queue with
    | [] => if x.state == .waitExtents then moveSlot i .idle s else s
    | item :: rest =>
      match buildFragments Config.maxFragments x.pool item.mode.itemBlocks with
      | some (fragments, pool) =>
        let w : WritingItem := { item := item, fragments := fragments, next := 0, written := 0, abort := false }
        let s := (s.updSlot i fun y => { y with queue := rest, pool := pool, writing := some w }).setReq item.shot i .writing
        arbitrate i (moveSlot i .writing s)
      | none => moveSlot i .waitExtents s
  else s

/-- Try the head item of a slot that is IDLE (R139, R140, R153). -/
def tryIdle (i : SlotId) (s : State) : State := if (s.slot i).state == .idle then tryHead i s else s

/-- Append an item to a slot's queue; the requirement becomes QUEUED (R139, R153). -/
def queueItem (i : SlotId) (item : CardItem) (s : State) : State :=
  (s.updSlot i fun x => { x with queue := x.queue ++ [item] }).setReq item.shot i .queued

/-- A slot that can write an item it is given now: A under overflow (R139), any slot at a retry (R153). -/
def Slot.takesItems (x : Slot) : Bool :=
  x.state == .idle || x.state == .waitExtents || (x.state == .writing && !x.fullPending)

/-- Enqueue the card items of a record that has become STORED, by the slot policy (R139). -/
def enqueueCard (r : Record) (s : State) : State :=
  let item : CardItem := { shot := r.shot, mode := r.mode }
  if s.overflowInForce then
    if s.crw.slotA.takesItems then tryIdle .a (queueItem .a item s) else tryIdle .b (queueItem .b item s)
  else
    let s := if s.crw.contentA then tryIdle .a (queueItem .a item s) else s
    if s.crw.contentB then tryIdle .b (queueItem .b item s) else s

/-! ## Migration (R140) -/

/-- Move one item from A to B, or drop it from A when B's requirement says it stands there already; the record is
tested (R140). -/
def migrateItem (item : CardItem) (s : State) : State :=
  match s.record item.shot with
  | none => s
  | some r =>
    let s := s.setReq item.shot .a .notRequired
    testRelease item.shot (if r.reqB == .notRequired then queueItem .b item s else s)

/-- Move items from A to B in order. -/
def migrateItems : List CardItem → State → State
  | [], s => s
  | x :: xs, s => migrateItems xs (migrateItem x s)

/-- A's entry into FULL, FAULT or ABSENT under overflow: the failed writing item first, then A's queue (R140). -/
def migrateFrom (i : SlotId) (failed : List CardItem) (s : State) : State :=
  if i == .a && s.overflowInForce then
    let queue := s.crw.slotA.queue
    tryIdle .b (migrateItems (failed ++ queue) (s.updSlot .a fun x => { x with queue := [] }))
  else s

/-! ## The end of an item (R151) -/

/-- Steps 1 and 2 of R151: the item ceases to be the writing item, CARD_ITEM_DONE, the requirement, the release test. -/
def endItem (i : SlotId) (w : WritingItem) (status : ItemStatus) (s : State) : State :=
  let s := s.updSlot i fun x => { x with writing := none }
  let s := s.offer .body
    (.cardItemDone w.item.shot i status w.item.mode.itemBlocks w.written w.fragments)
  testRelease w.item.shot (s.setReq w.item.shot i (match status with
    | .written => .written
    | .failed => .failed
    | .aborted => .waived))

/-- Step 3 of R151 at a WRITTEN or ABORTED end: FULL (and migration) when full-pending is set, else IDLE and the head
item. -/
def slotAfterItem (i : SlotId) (s : State) : State :=
  if (s.slot i).fullPending then migrateFrom i [] (moveSlot i .full s) else tryHead i (moveSlot i .idle s)

/-- The writing item ends WRITTEN or ABORTED, and the arbiter takes what is ready then (R146, R151). -/
def finishItem (i : SlotId) (w : WritingItem) (status : ItemStatus) (s : State) : State :=
  arbitrate i (slotAfterItem i (endItem i w status s))

/-! ## Faults and removal (R149, R150) -/

/-- The request a block request came as. -/
def BlockRequest.request (b : BlockRequest) : Request := if b.write then .blockWrite else .blockRead

/-- Answer block requests CARD_FAULT, oldest first (R149 step 3). -/
def failBlocks : List BlockRequest → State → State
  | [], s => s
  | b :: bs, s => failBlocks bs (s.respond b.request .body b.tag .cardFault [])

/-- A card fault, or a removal from an open state: steps 1 to 6 of R149, the slot ending in `new` (R149, R150). -/
def faultSlot (i : SlotId) (new : SlotState) (s : State) : State :=
  let x := s.slot i
  let s := s.updSlot i fun y => { y with op := none }
  let s := match x.writing with
    | some w => endItem i w (if w.abort then .aborted else .failed) s
    | none => s
  let s := (failBlocks x.blocks s).updSlot i fun y => { y with blocks := [], pool := [], fullPending := false }
  migrateFrom i (match x.writing with | some w => if w.abort then [] else [w.item] | none => []) (moveSlot i new s)

/-! ## Deletion (R59, R152) -/

/-- Remove a QUEUED item of a shot from a slot's queue; a head item that was waiting for extents gives way to the next
(R152, R154). -/
def removeQueued (i : SlotId) (shot : Nat) (s : State) : State :=
  let head := match (s.slot i).queue with | x :: _ => x.shot == shot | [] => false
  let waiting := (s.slot i).state == .waitExtents
  let s := s.updSlot i fun x => { x with queue := x.queue.filter fun y => y.shot != shot }
  if head && waiting then tryHead i s else s

/-- R59 step 4 at one slot: the QUEUED item is removed, and a QUEUED or FAILED requirement becomes WAIVED. -/
def waiveDeleted (i : SlotId) (shot : Nat) (s : State) : State :=
  match s.record shot with
  | some r =>
    match r.req i with
    | .queued => removeQueued i shot (s.setReq shot i .waived)
    | .failed => s.setReq shot i .waived
    | _ => s
  | none => s

/-- A chunk of the writing item is in flight (R152). -/
def Slot.chunkInFlight (x : Slot) : Bool := match x.op with | some o => o.kind == .chunk | none => false

/-- R59 step 5 at one slot: the writing item of the shot is marked for abort, or ends ABORTED at once (R152). -/
def abortWriting (i : SlotId) (shot : Nat) (s : State) : State :=
  match (s.slot i).writing with
  | some w =>
    if w.item.shot == shot then
      if (s.slot i).chunkInFlight then s.updSlot i fun x => { x with writing := some { w with abort := true } }
      else finishItem i w .aborted s
    else s
  | none => s

end Sys2Proof.Machine
end

