-- ==== Sys2Proof/Machine/Gate.lean ====
section
/-! DEFINITION. The Port Controller's gate: port rights, body length, DATA-follows flag, the session check of the tether port, and the
hand-over to the owner (R158, R159, R185 to R188). -/

namespace Sys2Proof.Machine

/-- The requests the tether port may make (R188). -/
def tetherRequests : List Request :=
  [.identify, .openSession, .closeSession, .listShots, .shotInfo, .setTags, .sendShot, .takeNext, .itemResult, .cancelItem,
   .develop, .rearmAutosend, .getStatus, .fetchNotices]

/-- The requests the lens port may make (R188). -/
def lensRequests : List Request := [.identify, .lensState, .watch, .unwatch, .fetchNotices]

/-- The requests the body port may not make (R188). -/
def notBodyRequests : List Request :=
  [.lensState, .watch, .unwatch, .openSession, .closeSession, .takeNext, .itemResult, .cancelItem]

/-- Port right (R188 step 2). -/
def granted (r : Request) : Port → Bool
  | .lens => lensRequests.contains r
  | .tether => tetherRequests.contains r
  | .body => !notBodyRequests.contains r

/-- The four requests a DETACHED session does not refuse (R158). -/
def sessionFree : Request → Bool
  | .identify => true
  | .openSession => true
  | .closeSession => true
  | .fetchNotices => true
  | _ => false

/-- The session check of the tether port, which starts the silence timer anew when it passes in ATTACHED (R158, R159). -/
def throughSession (r : Request) (h : Header) (owner : State → State) (s : State) : State :=
  if h.port = .tether then
    if s.ttc.attached then owner (startSilence s)
    else if sessionFree r then owner s
    else s.refuse r h .noSession
  else owner s

/-- The PTC takes a request: right, body and flag, session, owner; the first failure refuses it (R188). `fits` is
step 3 for the body; only a BLOCK_WRITE has DATA follow (R187). -/
def takeRequest (r : Request) (h : Header) (fits : Bool) (owner : State → State) (s : State) : State :=
  if !granted r h.port then s.refuse r h .notPermitted
  else if !(fits && dataFollows h == (r == .blockWrite)) then s.refuse r h .badRequest
  else throughSession r h owner s

end Sys2Proof.Machine
end

