-- ==== Sys2Proof/Machine/Catalog.lean ====
section
/-! DEFINITION. The Shot Catalog: creating, storing, promoting and discarding records (R35, R37, R41, R47 to R49), and its requests SET_TAGS,
PROTECT, HOLD, UNHOLD, DELETE, LIST_SHOTS, SHOT_INFO, READ_RAW, READ_PROOF (R50 to R67). -/

namespace Sys2Proof.Machine

/-! ## Records come and go -/

/-- The record created for a taken frame (R40, R41, R43). -/
def newRecord (s : State) (kind : CaptureKind) (mode : Mode) (frame : Nat) (chain : List Nat) : Record :=
  { shot := s.cat.nextShot, frame := frame, time := s.ptc.timeBase, mode := mode, kind := kind, mark := .none,
    state := .exposing, raw := some chain, bl := none, clip := s.cat.clipLevel, truncated := false, focus := .pending,
    snapshot := s.dve.settings, proofState := .none, proof := none, tags := 0, rating := 0, guarded := false,
    hold := false, reqA := .notRequired, reqB := .notRequired, markRaw := .none, markProof := .none, rawPins := 0,
    proofPins := 0, deleteTag := none }

/-- Create a record at the tail of the catalog with the next shot number (R41). -/
def createRecord (kind : CaptureKind) (mode : Mode) (frame : Nat) (chain : List Nat) (s : State) : State :=
  let r := newRecord s kind mode frame chain
  s.updCat fun c => { c with records := c.records ++ [r], nextShot := c.nextShot + 1 }

/-- The follow-on work of a record that becomes STORED: card items, send rules, auto-develop, SHOT_STORED, release test
(R48). -/
def storeRecord (shot : Nat) (s : State) : State :=
  match s.record shot with
  | none => s
  | some r =>
    let s := enqueueCard r (s.updRecord shot fun x => { x with state := .stored })
    let s := evaluateRules shot s
    let s := if s.dve.auto then (internalRequest shot r.snapshot .normal .auto s).2 else s
    testRelease shot (s.offer .body (.shotStored shot r.frame r.mode r.kind r.truncated))

/-- Remove a record by discard: its raw is released, no notice (R42, R47, R49). -/
def removeRecord (shot : Nat) (s : State) : State :=
  match s.record shot with
  | none => s
  | some r =>
    match r.raw with
    | some chain => (releaseChain chain (s.updRecord shot fun x => { x with raw := none })).dropRecord shot
    | none => s.dropRecord shot

/-- A ring member: a PRE record that is PROVISIONAL, or EXPOSING and not marked (R35). -/
def Record.inRing (r : Record) : Bool :=
  r.kind == .pre && (r.state == .provisional || (r.state == .exposing && r.mark == .none))

/-- The shot numbers of the ring, oldest first (R35). -/
def State.ring (s : State) : List Nat := (s.cat.records.filter Record.inRing).map Record.shot

/-- Discard a ring member: at once when PROVISIONAL, by mark when EXPOSING (R35, R49). -/
def discardMember (shot : Nat) (s : State) : State :=
  match s.record shot with
  | none => s
  | some r =>
    if r.state == .provisional then removeRecord shot s else s.updRecord shot fun x => { x with mark := .discard }

/-- Promote a ring member: at once when PROVISIONAL, by mark when EXPOSING (R35, R49). -/
def promoteMember (shot : Nat) (s : State) : State :=
  match s.record shot with
  | none => s
  | some r =>
    if r.state == .provisional then storeRecord shot s else s.updRecord shot fun x => { x with mark := .promote }

/-- Discard members in the order given. -/
def discardMembers : List Nat → State → State
  | [], s => s
  | n :: ns, s => discardMembers ns (discardMember n s)

/-- Promote members in the order given. -/
def promoteMembers : List Nat → State → State
  | [], s => s
  | n :: ns, s => promoteMembers ns (promoteMember n s)

/-- Promote the ring when pre-capture is ARMED (R26, R28, R37). -/
def promoteRing (s : State) : State := if s.siu.pre.armed then promoteMembers s.ring s else s

/-- The SIU reports a raw completion: BL and TRUNCATED into the record, and then by capture kind and ring mark (R24, R47). -/
def reportRaw (e : EndedFrame) (s : State) : State :=
  let shot := e.capture.shot
  match s.record shot with
  | none => s
  | some r =>
    let s := s.updRecord shot fun x => { x with bl := some e.bl, truncated := e.truncated }
    if r.state != .exposing then s
    else match r.kind, r.mark with
      | .shot, _ => storeRecord shot s
      | .pre, .promote => storeRecord shot s
      | .pre, .discard => removeRecord shot s
      | .pre, .none => s.updRecord shot fun x => { x with state := .provisional }

/-- The CAT fills or clears the focus record of the shot taken on a published frame (R44). A record that is marked DISCARD has been
discarded (R35, R49) and is not looked for: its focus record stays PENDING (log 51). -/
def fillFocus (f : FocusSummary) (s : State) : State :=
  match s.cat.records.find? fun r => r.frame == f.frame && r.focus == .pending && r.mark != .discard with
  | some r => s.updRecord r.shot fun x =>
      { x with focus := match f.lens with
                 | none => .absent
                 | some (pos, _) => .filled { selection := f.selection, locked := f.locked, lensPosition := pos,
                                              negEdges := f.negEdges, posEdges := f.posEdges } }
  | none => s

/-! ## Deletion (R58, R59) -/

/-- A record becomes DELETING, and everything that refers to it is ended in the order of R59; then the release test. Within
steps 4 and 5, slot A comes before slot B (the model's choice, log 42). -/
def beginDeleting (shot : Nat) (tag : Byte) (s : State) : State :=
  let s := s.updRecord shot fun r =>
    { r with state := .deleting, deleteTag := some tag, hold := false,
             rawPins := if r.hold then r.rawPins - 1 else r.rawPins,
             proofPins := if r.hold then r.proofPins - 1 else r.proofPins }
  let mine := s.ttc.queue.filter fun i => i.shot == shot
  let s := deleteItems (mine.filter fun i => i.state != .sending) s
  let s := deleteItems (mine.filter fun i => i.state == .sending) s
  let s := waiveDeleted .b shot (waiveDeleted .a shot s)
  let s := abortWriting .b shot (abortWriting .a shot s)
  let s := cancelJob shot s
  testRelease shot (cutRead (fun x => x.shot == shot) s)

/-- DELETE at its owner (R58). -/
def ownDelete (h : Header) (shot : Nat) (s : State) : State :=
  match s.record shot with
  | none => s.refuse .delete h .notFound
  | some r =>
    match r.state with
    | .deleting => s.refuse .delete h .busy
    | .exposing => s.refuse .delete h .notReady
    | .provisional =>
      if r.guarded then s.refuse .delete h .protectedShot else (discardMember shot s).answer .delete h []
    | .stored => if r.guarded then s.refuse .delete h .protectedShot else beginDeleting shot h.tag s

/-- DELETE (R58). -/
def execDelete (h : Header) (shot : Word) (s : State) : Host.Outcome State Fault Refusal :=
  .next (takeRequest .delete h (bodyFits h lenShot) (ownDelete h shot.toNat) s)

/-! ## Tags, protection, holds (R50 to R52) -/

/-- SET_TAGS at its owner (R50). -/
def ownSetTags (h : Header) (shot : Nat) (setMask clearMask : BitVec 16) (rating : Byte) (s : State) : State :=
  match s.record shot with
  | none => s.refuse .setTags h .notFound
  | some r =>
    if r.state == .deleting then s.refuse .setTags h .notReady
    else
      let s := s.updRecord shot fun x =>
        { x with tags := (x.tags &&& ~~~clearMask) ||| setMask, rating := readRating rating x.rating }
      let s := s.answer .setTags h []
      if r.state == .stored then evaluateRules shot s else s

/-- SET_TAGS (R50). -/
def execSetTags (h : Header) (shot : Word) (setMask clearMask : Half) (rating : Byte) (s : State) :
    Host.Outcome State Fault Refusal :=
  .next (takeRequest .setTags h (bodyFits h lenTags) (ownSetTags h shot.toNat setMask clearMask rating) s)

/-- PROTECT at its owner (R51). -/
def ownProtect (h : Header) (shot : Nat) (action : Byte) (s : State) : State :=
  match readFlag action with
  | none => s.refuse .protect h .badRequest
  | some on =>
    match s.record shot with
    | none => s.refuse .protect h .notFound
    | some r =>
      if r.state != .stored then s.refuse .protect h .notReady
      else (s.updRecord shot fun x => { x with guarded := on }).answer .protect h []

/-- PROTECT (R51). -/
def execProtect (h : Header) (shot : Word) (action : Byte) (s : State) : Host.Outcome State Fault Refusal :=
  .next (takeRequest .protect h (bodyFits h lenShotByte) (ownProtect h shot.toNat action) s)

/-- HOLD at its owner (R52). -/
def ownHold (h : Header) (shot : Nat) (s : State) : State :=
  match s.record shot with
  | none => s.refuse .hold h .notFound
  | some r =>
    if r.state != .stored then s.refuse .hold h .notReady
    else if r.hold then s.answer .hold h []
    else (((s.updRecord shot fun x => { x with hold := true }).pin shot .raw).pin shot .proof).answer .hold h []

/-- HOLD (R52). -/
def execHold (h : Header) (shot : Word) (s : State) : Host.Outcome State Fault Refusal :=
  .next (takeRequest .hold h (bodyFits h lenShot) (ownHold h shot.toNat) s)

/-- UNHOLD at its owner (R52): the hold is cleared, both contents are unpinned, a READ stream of the shot is cut, the
request is answered and the record tested. -/
def ownUnhold (h : Header) (shot : Nat) (s : State) : State :=
  match s.record shot with
  | none => s.refuse .unhold h .notFound
  | some r =>
    if r.hold then
      let s := ((s.updRecord shot fun x => { x with hold := false }).unpin shot .raw).unpin shot .proof
      testRelease shot ((cutRead (fun x => x.shot == shot) s).answer .unhold h [])
    else s.answer .unhold h []

/-- UNHOLD (R52). -/
def execUnhold (h : Header) (shot : Word) (s : State) : Host.Outcome State Fault Refusal :=
  .next (takeRequest .unhold h (bodyFits h lenShot) (ownUnhold h shot.toNat) s)

/-! ## Finding shots (R64, R65) -/

/-- LIST_SHOTS at its owner (R64). -/
def ownListShots (h : Header) (first maximum : Nat) (s : State) : State :=
  let found := s.cat.records.filter fun r => first ≤ r.shot
  let n := clampNat 1 16 maximum
  let listed := found.take n
  s.answer .listShots h (le 1 listed.length ++ listed.flatMap listEntry
    ++ le 4 (match found.drop n with | r :: _ => r.shot | [] => 0))

/-- LIST_SHOTS (R64). -/
def execListShots (h : Header) (first : Word) (maximum : Byte) (s : State) : Host.Outcome State Fault Refusal :=
  .next (takeRequest .listShots h (bodyFits h lenShotByte) (ownListShots h first.toNat maximum.toNat) s)

/-- SHOT_INFO at its owner (R65). -/
def ownShotInfo (h : Header) (shot : Nat) (s : State) : State :=
  match s.record shot with
  | none => s.refuse .shotInfo h .notFound
  | some r => s.answer .shotInfo h (infoRecord r)

/-- SHOT_INFO (R65). -/
def execShotInfo (h : Header) (shot : Word) (s : State) : Host.Outcome State Fault Refusal :=
  .next (takeRequest .shotInfo h (bodyFits h lenShot) (ownShotInfo h shot.toNat) s)

/-! ## READ streams (R66, R67) -/

/-- What a READ request of a content streams: its chain, its byte count and its scale byte (R66). -/
def Record.readable (r : Record) : Content → Option (List Nat × Nat × Option Nat)
  | .raw => r.raw.map fun chain => (chain, r.mode.rawBytes, none)
  | .proof => r.proof.map fun p => (p.chain, r.mode.proofBytes p.params.scale, some p.params.scale.code)

/-- READ_RAW and READ_PROOF at their owner (R66). The response of READ_RAW has the scale byte too, as none (the model's choice,
log 52). -/
def ownRead (q : Request) (c : Content) (h : Header) (shot : Nat) (s : State) : State :=
  match s.record shot with
  | none => s.refuse q h .notFound
  | some r =>
    if !r.hold then s.refuse q h .notHeld
    else if s.ptc.read.isSome then s.refuse q h .busy
    else match r.readable c with
      | none => s.refuse q h .notReady
      | some (chain, total, scale) =>
        let s := s.respond q h.port h.tag .ok
          (le 1 c.code ++ leOpt 1 scale ++ le 4 total ++ le 2 (frameCount total)) true
        sendReadFrame { tag := h.tag, shot := shot, content := c, chain := chain, total := total,
                        frames := frameCount total, next := 0, cut := false } s

/-- READ_RAW (R66). -/
def execReadRaw (h : Header) (shot : Word) (s : State) : Host.Outcome State Fault Refusal :=
  .next (takeRequest .readRaw h (bodyFits h lenShot) (ownRead .readRaw .raw h shot.toNat) s)

/-- READ_PROOF (R66). -/
def execReadProof (h : Header) (shot : Word) (s : State) : Host.Outcome State Fault Refusal :=
  .next (takeRequest .readProof h (bodyFits h lenShot) (ownRead .readProof .proof h shot.toNat) s)

/-- The frame in flight of the READ stream has been delivered: the next frame, the end, or the ABORTED frame of a cut
stream (R67). A stream that is not cut ends when its last frame has been delivered; a cut one ends as its ABORTED frame goes into
the port's out queue, before that frame is delivered (the model's choice, log 53). -/
def readFrameDone (s : State) : State :=
  match s.ptc.read with
  | none => s
  | some x =>
    let s := s.updPtc fun p => { p with bodyOut := dropThrough (isFrame x.tag x.next) p.bodyOut }
    let s := endAccess .readStream x.chain s
    -- a cut never comes from the end of an access, so the mark is the one the stream had
    if x.cut then endRead x.shot (s.send .body (.frame x.tag (x.next + 1) [] true))
    else if x.next + 1 = x.frames then endRead x.shot s
    else sendReadFrame { x with next := x.next + 1 } s

/-- READ_FRAME_COMPLETION (R67). -/
def execReadFrameCompletion (s : State) : Host.Outcome State Fault Refusal := .next (readFrameDone s)

end Sys2Proof.Machine
end

