-- ==== Sys2Proof/Machine/Focus.lean ====
section
/-! DEFINITION. The Focus Engine: the computation of a zone (R77 to R86), selection, tracking, prediction, lock and publication (R90 to
R99), the frame end (R75), and the commands SET_ZONES, LENS_STATE, SET_FOCUS, WATCH, UNWATCH, GET_ZONE_MAP,
FOCUS_RESULT_READY, LENS_DETACH and LENS_ATTACH. -/

namespace Sys2Proof.Machine

/-! ## One zone (R77 to R85) -/

/-- Sample i of a profile. -/
def profileAt (p : List ProfileSample) (i : Nat) : Int := ((p.getD i 0).toNat : Int)

/-- Contrast C: 63 absolute differences of neighbouring left samples (R78). -/
def contrast (p : AfPacket) : Nat :=
  ((List.range 63).map fun i => (profileAt p.left (i + 1) - profileAt p.left i).natAbs).sum

/-- SAD(s): 40 absolute differences (R79). -/
def sad (p : AfPacket) (s : Int) : Nat :=
  ((List.range 40).map fun i =>
    (profileAt p.left (i + 12) - profileAt p.right (((i : Int) + 12 + s).toNat)).natAbs).sum

/-- The 25 shifts in the order in which R80 prefers them: 0, −1, 1, −2, 2, …, −12, 12. -/
def shiftOrder : List Int := 0 :: (List.range 12).flatMap fun (k : Nat) => [-((k : Int) + 1), (k : Int) + 1]

/-- The first of the least entries of a list, by a measure. -/
def firstLeast {α : Type} (f : α → Int) : α → List α → α
  | best, [] => best
  | best, x :: xs => firstLeast f (if f x < f best then x else best) xs

/-- s*, the minimum shift (R80). -/
def bestShift (p : AfPacket) : Int := firstLeast (fun s => (sad p s : Int)) 0 (shiftOrder.drop 1)

/-- q of R82: eight times (a − c) over d, rounded; 0 where d is 0. -/
def interpolate (a b c : Nat) : Int :=
  let d : Int := (a : Int) - 2 * b + c
  if 0 < d then roundDiv (8 * ((a : Int) - c)) d.toNat else 0

/-- Confidence Q of R83. -/
def confidence (a b c : Nat) : Nat := min 4095 (256 * (min a c - b) / (b + 256))

/-- Defocus of R84: P·Kc/256 rounded, clamped, and whether the clamp acted. -/
def defocus (p : Int) (kc : Nat) : Int × Bool :=
  let d := roundDiv (p * (kc : Int)) 256
  (clampInt (-32767) 32767 d, d < -32767 || 32767 < d)

/-- A zone result that carries no figures (R77). -/
def ZoneResult.plain (st : ZoneState) : ZoneResult :=
  { state := st, c := none, p := none, q := none, d := none, t := none, dClamped := false }

/-- A zone result with defocus and target (R84, R85). -/
def ZoneResult.placed (st : ZoneState) (c : Nat) (p : Int) (q : Nat) (lens : Lens) : ZoneResult :=
  let (d, clamped) := defocus p lens.kc
  { state := st, c := some c, p := some p, q := some q, d := some d, t := some ((lens.position : Int) + d),
    dClamped := clamped }

/-- The limiter: CLIPPED below the far limit or above the near limit, else VALID (R85). -/
def limiter (t : Int) (far near : Nat) : ZoneState := if t < (far : Int) || (near : Int) < t then .clipped else .valid

/-- A zone that passed the contrast test (R79 to R85). -/
def correlate (z : Zone) (lens : Lens) (far near : Nat) (p : AfPacket) : ZoneResult :=
  let c := contrast p
  let s := bestShift p
  if s = -12 || s = 12 then ZoneResult.placed .edge c (16 * s) 0 lens
  else
    let a := sad p (s - 1)
    let b := sad p s
    let cc := sad p (s + 1)
    let ph := 16 * s + interpolate a b cc
    let q := confidence a b cc
    if q < z.confidenceFloor then
      { state := .lowConfidence, c := some c, p := some ph, q := some q, d := none, t := none, dClamped := false }
    else ZoneResult.placed (limiter ((lens.position : Int) + (defocus ph lens.kc).1) far near) c ph q lens

/-- The result of one latched zone of a frame with a lens state (R77, R78). -/
def zoneResult (z : Zone) (lens : Lens) (far near : Nat) (packet : Option AfPacket) : ZoneResult :=
  if !z.active then .plain .inactive
  else match packet with
    | none => .plain .noData
    | some p =>
      if contrast p < z.contrastFloor then { ZoneResult.plain .lowContrast with c := some (contrast p) }
      else correlate z lens far near p

/-! ## The frame result (R86) -/

/-- A frame result. `lens` is the latched lens state. -/
structure FrameResult where
  frame : Nat
  lens : Option Lens
  truncated : Bool
  overrun : Bool
  zones : List ZoneResult
  deriving DecidableEq, Repr

/-- Active zones take one state, the others INACTIVE (R75 step 1, R77). -/
def uniformZones (st : ZoneState) (zs : List Zone) : List ZoneResult :=
  zs.map fun z => .plain (if z.active then st else .inactive)

/-- The result of the computation of a latched frame (R77). -/
def computeResult (l : Latched) : FrameResult :=
  { frame := l.frame, lens := l.lens, truncated := l.truncated, overrun := false,
    zones := match l.lens with
      | none => uniformZones .noLens l.zones
      | some lens => (l.zones.zip l.packets).map fun x => zoneResult x.1 lens l.far l.near x.2 }

/-- The result of a computation that the next frame end cuts short (R75 step 1). -/
def overrunResult (l : Latched) : FrameResult :=
  { frame := l.frame, lens := l.lens, truncated := l.truncated, overrun := true,
    zones := uniformZones (if l.lens.isNone then .noLens else .noData) l.zones }

/-- Zones of a state with a phase picked out by `c` (R86). -/
def FrameResult.count (r : FrameResult) (st : ZoneState) (c : Int → Bool) : Nat :=
  (r.zones.filter fun z => z.state == st && (match z.p with | some p => c p | none => false)).length

/-! ## Selection (R91) -/

/-- A candidate with its figures (R91). -/
structure Candidate where
  zone : Nat
  c : Nat
  p : Int
  q : Nat
  d : Int
  t : Int
  dClamped : Bool
  deriving DecidableEq, Repr

/-- The candidates from an index on, in zone order: the VALID zones (R91). -/
def candidates : Nat → List ZoneResult → List Candidate
  | _, [] => []
  | k, z :: zs =>
    match z.state, z.c, z.p, z.q, z.d, z.t with
    | .valid, some c, some p, some q, some d, some t =>
        { zone := k, c := c, p := p, q := q, d := d, t := t, dClamped := z.dClamped } :: candidates (k + 1) zs
    | _, _, _, _, _, _ => candidates (k + 1) zs

/-- What the best candidate has least of, by priority mode and the newest tracked target (R91). -/
def focusMeasure (m : FocusMode) (prev : Option Int) (x : Candidate) : Int :=
  match m, prev with
  | .near, _ => -x.t
  | .far, _ => x.t
  | .closest, _ => (x.d.natAbs : Int)
  | .track, some t => ((x.t - t).natAbs : Int)
  | .track, none => -x.t

/-- The winner: the best candidate, the lowest zone index among equals (R91). -/
def selectZone (m : FocusMode) (prev : Option Int) : List Candidate → Option Candidate
  | [] => none
  | x :: xs => some (firstLeast (focusMeasure m prev) x xs)

/-! ## Tracking and prediction (R92 to R95) -/

/-- An entry joins the history, the oldest giving way to a fifth (R92). -/
def joinHistory (h : List Track) (e : Track) : List Track :=
  (if Config.maxHistory ≤ h.length then h.drop 1 else h) ++ [e]

/-- The velocity V (R94). -/
def velocity (h : List Track) : Int :=
  match h with
  | [] => 0
  | [_] => 0
  | a :: b :: rest =>
    let n := (b :: rest).getLast (List.cons_ne_nil b rest)
    roundDiv (16 * (n.target - a.target)) ((n.frame + Config.wrap32 - a.frame) % Config.wrap32)

/-- The raw prediction (R94). -/
def rawPrediction (t : Int) (v : Int) (lead : Nat) : Int := t + roundDiv (v * (lead : Int)) 16

/-- The published predicted target and its flag (R95). -/
def predict (raw t : Int) (prev : Option Int) (policy : TravelPolicy) (lens : Lens) : Int × PredFlag :=
  let lo : Int := lens.travelMin
  let hi : Int := lens.travelMax
  if lo ≤ raw && raw ≤ hi then (raw, .inTravel)
  else match policy with
    | .clamp => (clampInt lo hi raw, .atLimit)
    | .hold => (clampInt lo hi (prev.getD t), .held)

/-- Clear the tracking history, the previous prediction and the no-selection run (R93). -/
def Fe.clearTracking (f : Fe) : Fe := { f with history := [], previous := none, noSelection := 0 }

/-- Steps 2 and 3 of R90 with a winner: history, velocity, prediction, previous prediction. -/
def Fe.track (f : Fe) (x : Candidate) (frame : Nat) (lens : Lens) : Selection × Fe :=
  let h := joinHistory f.history { target := x.t, frame := frame }
  let (tPred, flag) := predict (rawPrediction x.t (velocity h) f.params.lead) x.t f.previous f.params.policy lens
  ({ zone := x.zone, c := x.c, p := x.p, q := x.q, d := x.d, t := x.t, dClamped := x.dClamped, tPred := tPred, flag := flag },
   { f with noSelection := 0, history := h, previous := some tPred })

/-- Step 2 of R90 without a selection: the run advances, and at the track-loss count it clears the history (R93). -/
def Fe.lose (f : Fe) : Fe :=
  let n := sat15 f.noSelection
  if f.params.trackLoss ≤ n then { f with noSelection := n, history := [], previous := none }
  else { f with noSelection := n }

/-! ## Lock (R96, R97) -/

/-- A winner's |D| lies within a tolerance. -/
def inside (d : Option Int) (e : Nat) : Bool := match d with | some d => d.natAbs ≤ e | none => false

/-- Step 4 of R90: the lock hysteresis. `d` is the winner's D, none without a selection. -/
def Fe.lockStep (f : Fe) (d : Option Int) : Fe :=
  if f.locked then
    let n := if inside d f.params.eOut then 0 else sat15 f.outCount
    if f.params.n ≤ n then { f with locked := false, inCount := 0, outCount := n } else { f with outCount := n }
  else
    let n := if inside d f.params.eIn then sat15 f.inCount else 0
    if f.params.m ≤ n then { f with locked := true, inCount := n, outCount := 0 } else { f with inCount := n }

/-! ## The ready event (R90, R98, R99) -/

/-- Steps 1 to 3 of R90. -/
def Fe.followSubject (f : Fe) (r : FrameResult) : Option Selection × Fe :=
  match selectZone f.params.mode (f.history.getLast?.map Track.target) (candidates 0 r.zones), r.lens with
  | some x, some lens => let (sel, f') := f.track x r.frame lens; (some sel, f')
  | _, _ => (none, f.lose)

/-- The published focus result (R98). -/
def summarize (r : FrameResult) (sel : Option Selection) (locked : Bool) : FocusSummary :=
  { frame := r.frame, noLens := r.lens.isNone, overrun := r.overrun, truncated := r.truncated,
    lens := r.lens.map fun l => (l.position, l.moving), selection := sel, locked := locked,
    validCount := (r.zones.filter fun z => z.state == .valid).length,
    negEdges := r.count .edge (· < 0), posEdges := r.count .edge (0 < ·) }

/-- Step 3 of R99: the watch offers the result to the lens port (R100). -/
def offerWatch (n : Notice) (s : State) : State :=
  match s.fe.watch with
  | .none => s
  | .snapshot => (s.offer .lens n).updFe fun f => { f with watch := .none }
  | .continuous => s.offer .lens n

/-- The focus-result-ready event of a frame (R90), with its publication (R98, R99). -/
def readyEvent (r : FrameResult) (s : State) : State :=
  let (sel, f) := s.fe.followSubject r
  let f := f.lockStep (sel.map Selection.d)
  let summary := summarize r sel f.locked
  let map := r.zones.map fun z => { state := z.state, p := z.p, q := z.q : ZoneMark }
  let s := s.updFe fun _ => { f with latest := some { summary := summary, map := map } }
  offerWatch (.focusResult summary) (fillFocus summary s)

/-! ## Frames at the FE (R74, R75) -/

/-- The SIU notifies a new frame number: the collecting store is emptied and numbered (R74). -/
def feFrameStart (number : Nat) (s : State) : State :=
  s.updFe fun f => { f with collectFrame := some number, collect := List.replicate Config.zones none }

/-- The SIU hands over an AF packet (R74). -/
def fePacket (zone : Nat) (p : AfPacket) (s : State) : State :=
  if p.left.length = 64 && p.right.length = 64 then s.updFe fun f => { f with collect := f.collect.set zone (some p) } else s

/-- The SIU hands over a frame end (R75): overrun of the frame in flight, latch, begin. -/
def feFrameEnd (number : Nat) (truncated : Bool) (s : State) : State :=
  let s := match s.fe.inFlight with
    | some l => readyEvent (overrunResult l) (s.updFe fun f => { f with inFlight := none, overruns := sat16 f.overruns })
    | none => s
  s.updFe fun f =>
    { f with inFlight := some { frame := number, truncated := truncated, packets := f.collect, zones := f.zones,
                                lens := f.lens, far := f.params.far, near := f.params.near },
             collectFrame := none, collect := List.replicate Config.zones none }

/-- FOCUS_RESULT_READY at the FE (R90): the computation in flight ends. -/
def focusReady (s : State) : State :=
  match s.fe.inFlight with
  | some l => readyEvent (computeResult l) (s.updFe fun f => { f with inFlight := none })
  | none => s

/-- FOCUS_RESULT_READY (R90). -/
def execFocusResultReady (s : State) : Host.Outcome State Fault Refusal := .next (focusReady s)

/-! ## Requests of the body port -/

/-- SET_ZONES at its owner (R71, R93). -/
def ownSetZones (h : Header) (entries : List ZoneOps) (s : State) : State :=
  match entries.mapM readZone with
  | some zs =>
    if zs.length = Config.zones then
      (s.updFe fun f => { f.clearTracking with zones := zs }).answer .setZones h []
    else s.refuse .setZones h .badRequest
  | none => s.refuse .setZones h .badRequest

/-- SET_ZONES (R71). -/
def execSetZones (h : Header) (entries : List ZoneOps) (s : State) : Host.Outcome State Fault Refusal :=
  .next (takeRequest .setZones h (bodyFits h (lenZone * Config.zones)) (ownSetZones h entries) s)

/-- SET_FOCUS at its owner (R89, R93). -/
def ownSetFocus (h : Header) (o : FocusOps) (s : State) : State :=
  match readFocus o with
  | some p => (s.updFe fun f => { f.clearTracking with params := p }).answer .setFocus h []
  | none => s.refuse .setFocus h .badRequest

/-- SET_FOCUS (R89). -/
def execSetFocus (h : Header) (o : FocusOps) (s : State) : Host.Outcome State Fault Refusal :=
  .next (takeRequest .setFocus h (bodyFits h lenFocus) (ownSetFocus h o) s)

/-- GET_ZONE_MAP (R103). -/
def execGetZoneMap (h : Header) (s : State) : Host.Outcome State Fault Refusal :=
  .next (takeRequest .getZoneMap h (bodyFits h lenNone) (fun s => s.answer .getZoneMap h (zoneMapBody s.fe.latest)) s)

/-! ## Requests of the lens port -/

/-- LENS_STATE at its owner (R73, log 13). -/
def ownLensState (h : Header) (o : LensOps) (s : State) : State :=
  match readFlag o.moving with
  | none => s.refuse .lensState h .badRequest
  | some moving =>
    if !s.fe.lensPresent then s.refuse .lensState h .notReady
    else (s.updFe fun f => { f with lens := some (readLens o moving) }).answer .lensState h []

/-- LENS_STATE (R73). -/
def execLensState (h : Header) (o : LensOps) (s : State) : Host.Outcome State Fault Refusal :=
  .next (takeRequest .lensState h (bodyFits h lenLens) (ownLensState h o) s)

/-- WATCH at its owner (R100). -/
def ownWatch (h : Header) (mode : Byte) (s : State) : State :=
  match readWatch mode with
  | none => s.refuse .watch h .badRequest
  | some w =>
    if !s.fe.lensPresent then s.refuse .watch h .notReady
    else (s.updFe fun f => { f with watch := w }).answer .watch h []

/-- WATCH (R100). -/
def execWatch (h : Header) (mode : Byte) (s : State) : Host.Outcome State Fault Refusal :=
  .next (takeRequest .watch h (bodyFits h lenByte) (ownWatch h mode) s)

/-- UNWATCH at its owner (R101). -/
def ownUnwatch (h : Header) (s : State) : State := (s.updFe fun f => { f with watch := .none }).answer .unwatch h []

/-- UNWATCH (R101). -/
def execUnwatch (h : Header) (s : State) : Host.Outcome State Fault Refusal :=
  .next (takeRequest .unwatch h (bodyFits h lenNone) (ownUnwatch h) s)

/-! ## The lens-present line (R104, R193) -/

/-- The FE's part of lens detach (R104). -/
def Fe.detach (f : Fe) : Fe :=
  { f.clearTracking with lensPresent := false, lens := none, watch := .none, locked := false, inCount := 0, outCount := 0 }

/-- LENS_DETACH (R104): the FE; then the lens queue loses its FOCUS_RESULT, and what the lens port has still to
deliver is discarded (R193). -/
def execLensDetach (s : State) : Host.Outcome State Fault Refusal :=
  .next ((s.updFe Fe.detach).updPtc fun p =>
    { p with lensQueue := p.lensQueue.filter fun n => !n.isFocusResult, lensOut := [] })

/-- LENS_ATTACH (R104): the rise of the line changes nothing else. -/
def execLensAttach (s : State) : Host.Outcome State Fault Refusal :=
  .next (s.updFe fun f => { f with lensPresent := true })

end Sys2Proof.Machine
end

