-- ==== Sys2Proof/Machine/Sensor.lean ====
section
/-! DEFINITION. The sensor link and the capture engine (R3, R14 to R38): CONFIGURE_STORE, frames, lines, AF packets, raw completions,
SHOOT, bursts, pre-capture, and the decision at a frame start. -/

namespace Sys2Proof.Machine

/-! ## CONFIGURE_STORE (R3) -/

/-- Something is held that a new configuration would strand (R3). -/
def State.holdsAnything (s : State) : Bool :=
  !s.cat.records.isEmpty || !s.dve.jobs.isEmpty || s.siu.pre.armed || !s.fsc.releasing.isEmpty

/-- CONFIGURE_STORE at its owner (R3). -/
def ownConfigureStore (h : Header) (slabs : Half) (mode : Byte) (s : State) : State :=
  match readSlabCount slabs, readMode mode with
  | some n, some m =>
    if s.holdsAnything then s.refuse .configureStore h .catalogNotEmpty
    else (s.updFsc fun f =>
      { f with configured := true, slabCount := n, mode := some m, freeList := List.range n }).answer .configureStore h []
  | _, _ => s.refuse .configureStore h .badRequest

/-- CONFIGURE_STORE (R3). -/
def execConfigureStore (h : Header) (slabs : Half) (mode : Byte) (s : State) : Host.Outcome State Fault Refusal :=
  .next (takeRequest .configureStore h (bodyFits h lenConfigure) (ownConfigureStore h slabs mode) s)

/-! ## The frame in progress (R15 to R21) -/

/-- Set the frame in progress. -/
def State.setFrame (s : State) (f : Option Frame) : State := s.updSiu fun u => { u with frame := f }

/-- BL of R19: the rounded mean of the OB part, clamped. -/
def blackLevel (m : Mode) (obSum : Nat) : Nat := clampNat 0 4095 ((obSum + m.obPixels / 2) / m.obPixels)

/-- Close the OB part if it is open (R19). -/
def Frame.closeOb (f : Frame) (m : Mode) : Frame :=
  match f.bl with
  | some _ => f
  | none => { f with bl := some (blackLevel m f.obSum) }

/-- BL of a frame whose OB part is closed. -/
def Frame.level (f : Frame) : Sample := BitVec.ofNat 14 (f.bl.getD 0)

/-- The W samples of a taken line: a short one padded with `pad`, a long one cut (R17). -/
def fitLine (m : Mode) (pad : Sample) (xs : List Sample) : List Sample :=
  xs.take m.width ++ List.replicate (m.width - xs.length) pad

/-- Write active row r of a taken frame (R18). -/
def writeRow (f : Frame) (m : Mode) (r : Nat) (xs : List Sample) (d : Memory) : Memory :=
  match f.capture with
  | some c => writeChain d c.chain (r * m.rowBytes) (packRow xs)
  | none => d

/-- Fill `n` active rows from row r on with BL (R17, R20). -/
def fillRows (f : Frame) (m : Mode) : Nat → Nat → Memory → Memory
  | 0, _, d => d
  | n + 1, r, d => fillRows f m n (r + 1) (writeRow f m r (List.replicate m.width f.level) d)

/-- Fill the active rows of the missing lines lo..hi−1 (R17, R20). -/
def fillLines (f : Frame) (m : Mode) (lo hi : Nat) (d : Memory) : Memory :=
  fillRows f m (hi - max lo obLines) (max lo obLines - obLines) d

/-- The sum of the samples of an OB line (R18). -/
def sampleSum (xs : List Sample) : Nat := (xs.map BitVec.toNat).sum

/-- Take the line of an index in place, all missing lines before it filled: its effect on frame and DRAM (R17, R18). -/
def takeLine (f : Frame) (m : Mode) (index : Nat) (xs : List Sample) (d : Memory) : Frame × Memory :=
  let f := if m.width < xs.length then { f with framingFault := true } else f
  if index < obLines then ({ f with obSum := f.obSum + sampleSum (xs.take m.width), nextLine := index + 1 }, d)
  else
    let f := f.closeOb m
    ({ f with nextLine := index + 1 }, writeRow f m (index - obLines) (fitLine m f.level xs) d)

/-- A line at a frame with a mode (R17). A discarded line of index L or above may or may not close the OB part
(log 8). -/
def placeLine (f : Frame) (m : Mode) (index : Nat) (xs : List Sample) (d : Memory) : Frame × Memory :=
  if index = f.nextLine ∧ index < m.lines then takeLine f m index xs d
  else if index < f.nextLine then ({ f with framingFault := true }, d)
  else if index < m.lines then
    let f := { f with framingFault := true }
    let f := if obLines ≤ index then f.closeOb m else f
    takeLine f m index xs (fillLines f m f.nextLine index d)
  else
    let f := { f with framingFault := true }
    (if Config.strayLineClosesOb then f.closeOb m else f, d)

/-- LINE at the SIU (R17, R21). -/
def lineArrives (index : Nat) (xs : List Sample) (s : State) : State :=
  match s.siu.frame with
  | none => s.updSiu fun u => { u with syncFaults := sat16 u.syncFaults }
  | some f =>
    match f.mode with
    | none => s
    | some m =>
      let (f', d) := placeLine f m index xs s.dram
      (s.setFrame (some f')).updDram fun _ => d

/-- LINE (R17). -/
def execLine (index : Nat) (samples : List Sample) (s : State) : Host.Outcome State Fault Refusal :=
  .next (lineArrives index samples s)

/-- The frame in progress ends (R20), or, for a frame without a mode, ends by R21; `byStart` says that a frame start ends
it. A frame that a frame start ends is TRUNCATED (R16), also one that every line reached, of which nothing is filled (the
model's reading, log 44); a frame that its frame end ends is TRUNCATED when a line is missing (R20). -/
def endFrame (f : Frame) (byStart : Bool) (s : State) : State :=
  match f.mode with
  | none => (feFrameEnd f.number byStart s).setFrame none
  | some m =>
    let f := f.closeOb m
    let truncated := byStart || f.nextLine < m.lines
    let s := s.updDram (fillLines f m f.nextLine m.lines)
    let bl := f.bl.getD 0
    let s := s.updSiu fun u =>
      { u with syncFaults := if truncated || f.framingFault then sat16 u.syncFaults else u.syncFaults,
               lastBl := some bl,
               ended := match f.capture with
                 | some c => u.ended ++ [{ capture := c, bl := bl, truncated := truncated }]
                 | none => u.ended }
    (feFrameEnd f.number truncated s).setFrame none

/-- FRAME_END at the SIU (R20, R21). -/
def frameEnds (s : State) : State :=
  match s.siu.frame with
  | some f => endFrame f false s
  | none => s.updSiu fun u => { u with syncFaults := sat16 u.syncFaults }

/-- FRAME_END (R20). -/
def execFrameEnd (s : State) : Host.Outcome State Fault Refusal := .next (frameEnds s)

/-- AF_PACKET (R23, R74). -/
def execAfPacket (zone : Nat) (left right : List ProfileSample) (s : State) : Host.Outcome State Fault Refusal :=
  .next (if s.siu.frame.isSome && zone < Config.zones then fePacket zone { left := left, right := right } s else s)

/-- The report of the oldest ended frame's raw completion (R24): its accesses are over, so a release that waited for
them is carried out (R10). -/
def rawCompletes (s : State) : State :=
  match s.siu.ended with
  | [] => s
  | e :: es =>
    let s := s.updSiu fun u => { u with ended := es }
    reportRaw e (settleReleases s.fsc.releasing s)

/-- RAW_COMPLETION (R24). -/
def execRawCompletion (s : State) : Host.Outcome State Fault Refusal := .next (rawCompletes s)

/-! ## SHOOT (R26, R27) -/

/-- Set the capture engine's state and pending SHOOT. -/
def State.setEngine (s : State) (e : Engine) (p : Option PendingShoot) : State :=
  s.updSiu fun u => { u with engine := e, shoot := p }

/-- The failure response of a pending SHOOT, by its blocking reason; the engine returns to IDLE (R27). -/
def failShoot (p : PendingShoot) (s : State) : State :=
  (s.setEngine .idle none).respond .shoot .body p.tag (match p.reason with
    | .space => .bufferFull
    | .focus => .focusTimeout
    | .none => .focusTimeout) []

/-- SHOOT at its owner (R26). -/
def ownShoot (h : Header) (focus : Byte) (s : State) : State :=
  match readFlag focus with
  | none => s.refuse .shoot h .badRequest
  | some flag =>
    if !s.fsc.configured then s.refuse .shoot h .notConfigured
    else if s.siu.engine != .idle then s.refuse .shoot h .busy
    else
      let s := promoteRing s
      let timer := if s.siu.waitLimit = 0 then none else some s.siu.waitLimit
      s.setEngine .singlePending (some { tag := h.tag, focus := flag, reason := .none, timer := timer })

/-- SHOOT (R26). -/
def execShoot (h : Header) (focus : Byte) (s : State) : Host.Outcome State Fault Refusal :=
  .next (takeRequest .shoot h (bodyFits h lenByte) (ownShoot h focus) s)

/-- The expiry of the wait timer (R27); a timer that does not run, or has time left, does not expire (log 3). -/
def waitExpires (s : State) : State :=
  match s.siu.shoot with
  | some p => if p.timer == some 0 then failShoot p s else s
  | none => s

/-- SHOT_WAIT_EXPIRY (R27). -/
def execShotWaitExpiry (s : State) : Host.Outcome State Fault Refusal := .next (waitExpires s)

/-! ## Bursts (R28, R29) -/

/-- BURST_BEGIN at its owner (R28). -/
def ownBurstBegin (h : Header) (divisor maximum : Nat) (focus : Byte) (s : State) : State :=
  match readFlag focus with
  | none => s.refuse .burstBegin h .badRequest
  | some flag =>
    if !s.fsc.configured then s.refuse .burstBegin h .notConfigured
    else if s.siu.engine != .idle then s.refuse .burstBegin h .busy
    else if s.siu.thermal == .hot then s.refuse .burstBegin h .thermal
    else
      ((promoteRing s).updSiu fun u =>
        { u with engine := .burst,
                 burst := { divisor := clampNat 1 16 divisor, maximum := clampNat 0 999 maximum, focus := flag, frames := 0,
                            fresh := true, taken := 0, skips := 0, shortage := false } }).answer .burstBegin h []

/-- BURST_BEGIN (R28). -/
def execBurstBegin (h : Header) (divisor : Byte) (maximum : Half) (focus : Byte) (s : State) :
    Host.Outcome State Fault Refusal :=
  .next (takeRequest .burstBegin h (bodyFits h lenBurst) (ownBurstBegin h divisor.toNat maximum.toNat focus) s)

/-- The burst ends (R29). -/
def endBurst (s : State) : State :=
  s.updSiu fun u => { u with engine := .idle, burst := { u.burst with shortage := false } }

/-- BURST_END at its owner (R29). -/
def ownBurstEnd (h : Header) (s : State) : State :=
  (if s.siu.engine == .burst then endBurst s else s).answer .burstEnd h []

/-- BURST_END (R29). -/
def execBurstEnd (h : Header) (s : State) : Host.Outcome State Fault Refusal :=
  .next (takeRequest .burstEnd h (bodyFits h lenNone) (ownBurstEnd h) s)

/-! ## Pre-capture (R30, R35) -/

/-- Pre-capture is disarmed and every member of the ring discarded (R30, R38). -/
def disarmRing (s : State) : State :=
  discardMembers s.ring (s.updSiu fun u => { u with pre := { u.pre with armed := false } })

/-- PRECAPTURE at its owner (R30). -/
def ownPrecapture (h : Header) (action : Byte) (depth divisor : Nat) (s : State) : State :=
  match readArm action with
  | none => s.refuse .precapture h .badRequest
  | some false => (disarmRing s).answer .precapture h []
  | some true =>
    if !s.fsc.configured then s.refuse .precapture h .notConfigured
    else if s.siu.thermal != .normal then s.refuse .precapture h .thermal
    else
      let depth := clampNat 0 24 depth
      let s := s.updSiu fun u =>
        { u with pre := { armed := true, depth := depth, divisor := clampNat 1 16 divisor, frames := 0, fresh := true } }
      (discardMembers (s.ring.take (s.ring.length - depth)) s).answer .precapture h []

/-- PRECAPTURE (R30). -/
def execPrecapture (h : Header) (action depth divisor : Byte) (s : State) : Host.Outcome State Fault Refusal :=
  .next (takeRequest .precapture h (bodyFits h lenPrecapture) (ownPrecapture h action depth.toNat divisor.toNat) s)

/-! ## Deciding at frame start (R31 to R36) -/

/-- Tests 2 and 3 of R32: catalog space, and a CAPTURE claim for one raw. -/
def spaceAndSlabs (m : Mode) (s : State) : Option (List Nat × State) :=
  if s.catalogSpace then claimCapture m.rawSlabs s else none

/-- What the tests of a candidate end in (R32). -/
inductive Verdict where
  | taken (chain : List Nat)
  | failed (reason : Blocking)
  deriving DecidableEq, Repr

/-- Tests 2 and 3, with pressure relief and one repetition (R32). -/
def testSpace (m : Mode) (s : State) : Verdict × State :=
  match spaceAndSlabs m s with
  | some (chain, s) => (.taken chain, s)
  | none =>
    let s := relieve m.rawSlabs s.ttc.queue.length s
    match spaceAndSlabs m s with
    | some (chain, s) => (.taken chain, s)
    | none => (.failed .space, s)

/-- The three tests of a candidate of a SHOOT or a burst (R32). `locked` is the lock state published before the SIU took the
frame start. -/
def testCandidate (focus locked : Bool) (m : Mode) (s : State) : Verdict × State :=
  if focus && !locked then (.failed .focus, s) else testSpace m s

/-- The frame in progress is taken: the record is created and the frame holds its shot number and chain (R33, R36). -/
def takeFrame (kind : CaptureKind) (f : Frame) (m : Mode) (chain : List Nat) (s : State) : State :=
  (createRecord kind m f.number chain s).setFrame
    (some { f with capture := some { kind := kind, shot := s.cat.nextShot, chain := chain } })

/-- The decision for a pending SHOOT (R33, R34). -/
def decideShoot (locked : Bool) (p : PendingShoot) (f : Frame) (m : Mode) (s : State) : State :=
  match testCandidate p.focus locked m s with
  | (.taken chain, s) =>
    ((takeFrame .shot f m chain s).setEngine .idle none).respond .shoot .body p.tag .ok (le 4 s.cat.nextShot)
  | (.failed reason, s) =>
    let p := { p with reason := reason }
    if p.timer = none then failShoot p s else s.setEngine .singlePending (some p)

/-- A burst shot has been taken; the burst ends with its last (R29, R33). -/
def countBurstShot (s : State) : State :=
  let s := s.updSiu fun u => { u with burst := { u.burst with taken := sat16 u.burst.taken } }
  if 0 < s.siu.burst.maximum && s.siu.burst.maximum ≤ s.siu.burst.taken then endBurst s else s

/-- A burst candidate is skipped; the first for want of space raises SHORTAGE (R34). -/
def skipBurstFrame (f : Frame) (reason : Blocking) (s : State) : State :=
  let s := s.updSiu fun u => { u with burst := { u.burst with skips := sat16 u.burst.skips } }
  if reason == .space && !s.siu.burst.shortage then
    (s.updSiu fun u => { u with burst := { u.burst with shortage := true } }).offerClass Classes.shortage
      (.shortage f.number s.fsc.freeList.length s.cat.records.length s.siu.burst.skips)
  else s

/-- The decision for a burst (R31, R33, R34). -/
def decideBurst (locked : Bool) (f : Frame) (m : Mode) (s : State) : State :=
  let s := s.updSiu fun u =>
    { u with burst := { u.burst with frames := if u.burst.fresh then u.burst.frames else wrap32 u.burst.frames,
                                     fresh := false } }
  if s.siu.burst.frames % s.siu.burst.divisor = 0 then
    match testCandidate s.siu.burst.focus locked m s with
    | (.taken chain, s) => countBurstShot (takeFrame .shot f m chain s)
    | (.failed reason, s) => skipBurstFrame f reason s
  else s

/-- The decision for pre-capture (R31, R36). -/
def decidePre (f : Frame) (m : Mode) (s : State) : State :=
  let s := s.updSiu fun u =>
    { u with pre := { u.pre with frames := if u.pre.fresh then u.pre.frames else wrap32 u.pre.frames, fresh := false } }
  if s.siu.pre.frames % s.siu.pre.divisor = 0 && 0 < s.siu.pre.depth then
    let s := match s.ring with
      | oldest :: rest => if s.siu.pre.depth ≤ rest.length + 1 then discardMember oldest s else s
      | [] => s
    match spaceAndSlabs m s with
    | some (chain, s) => takeFrame .pre f m chain s
    | none => s
  else s

/-- The capture decision of a new frame, by the engine state (R31). A frame without a mode is never taken (R21). -/
def decideCapture (locked : Bool) (f : Frame) (s : State) : State :=
  match f.mode with
  | none => s
  | some m =>
    match s.siu.engine, s.siu.shoot with
    | .singlePending, some p => decideShoot locked p f m s
    | .singlePending, none => s
    | .burst, _ => decideBurst locked f m s
    | .idle, _ => if s.siu.pre.armed then decidePre f m s else s

/-- A frame start (R16): the frame in progress ends as TRUNCATED, the counter rises, the new frame opens, the FE is told,
the decision is made. The lock state that test 1 of R32 asks is the one from before this event: an overrun that the ended
frame brings about publishes too late for it (R99). -/
def frameStarts (s : State) : State :=
  let locked := s.fe.locked
  let s := match s.siu.frame with
    | some f => endFrame f true s
    | none => s
  let number := wrap32 s.siu.frameCounter
  let f : Frame := { number := number, mode := s.fsc.mode, nextLine := 0, obSum := 0, bl := none, framingFault := false,
                     capture := none }
  let s := s.updSiu fun u => { u with frameCounter := number, frame := some f }
  decideCapture locked f (feFrameStart number s)

/-- FRAME_START (R16). -/
def execFrameStart (s : State) : Host.Outcome State Fault Refusal := .next (frameStarts s)

/-! ## Thermal state and capture (R38) -/

/-- The SIU takes a change of the part's thermal state (R38). -/
def handThermalToSiu (t : Thermal) (s : State) : State :=
  let leaves := s.siu.thermal == .normal && t != .normal
  let s := s.updSiu fun u => { u with thermal := t }
  let s := if leaves then disarmRing s else s
  if t == .hot && s.siu.engine == .burst then endBurst s else s

end Sys2Proof.Machine
end

