-- ==== Sys2Proof/Machine/Pipeline.lean ====
section
/-! DEFINITION. The quad pipeline of the Develop Engine and a whole stripe of it (R121, R124 to R128). -/

namespace Sys2Proof.Machine

/-- Quad columns of a mode (R124). -/
def quadColumns : Mode → Nat
  | .full => 4032
  | .crop => 2688

/-- Sample at a raw row and column, unpacked from its group (R18, R200). -/
def rawSample (d : Memory) (chain : List Nat) (m : Mode) (row col : Nat) : Nat :=
  unpackSample (readChain d chain (row * m.rowBytes + col / 4 * 7) 7) (col % 4)

/-- One RGB value: the tone outputs of a quad, or a proof pixel. -/
structure Rgb where
  red : Nat
  green : Nat
  blue : Nat
  deriving DecidableEq, Repr

/-- What a stripe reads beside the raw: the job's gains and table, and the record's BL and clip level (R121). -/
structure Recipe where
  params : DevelopParams
  bl : Nat
  clip : Nat
  tone : List Byte
  deriving DecidableEq, Repr

/-- Step 3: a channel times its gain, scaled by 1024 with rounding, limited (R125). -/
def balance (v gain : Nat) : Nat := min 65535 ((v * gain + 512) / 1024)

/-- Step 5: the table entry at the channel shifted right by 4 places (R125). -/
def toneOf (tone : List Byte) (v : Nat) : Nat := (tone.getD (v / 16) 0).toNat

/-- Step 4's test: a raw sample at or above the clip level (R125). -/
def clippedQuad (clip r g1 g2 b : Nat) : Bool := clip ≤ r || clip ≤ g1 || clip ≤ g2 || clip ≤ b

/-- Steps 1 to 5 of one quad (R124, R125). -/
def developQuad (x : Recipe) (r g1 g2 b : Nat) : Rgb :=
  let g := (g1 - x.bl + (g2 - x.bl) + 1) / 2
  let r' := balance (r - x.bl) x.params.wr
  let g' := balance g x.params.wg
  let b' := balance (b - x.bl) x.params.wb
  let top := max r' (max g' b')
  if clippedQuad x.clip r g1 g2 b then
    { red := toneOf x.tone top, green := toneOf x.tone top, blue := toneOf x.tone top }
  else { red := toneOf x.tone r', green := toneOf x.tone g', blue := toneOf x.tone b' }

/-- The four samples of quad (i, j): R, G1, G2, B (R124). -/
def quadSamples (d : Memory) (chain : List Nat) (m : Mode) (i j : Nat) : Nat × Nat × Nat × Nat :=
  (rawSample d chain m (2 * j) (2 * i), rawSample d chain m (2 * j) (2 * i + 1),
   rawSample d chain m (2 * j + 1) (2 * i), rawSample d chain m (2 * j + 1) (2 * i + 1))

/-- Quad (i, j) developed. -/
def quadAt (d : Memory) (chain : List Nat) (m : Mode) (x : Recipe) (i j : Nat) : Rgb :=
  let q := quadSamples d chain m i j
  developQuad x q.1 q.2.1 q.2.2.1 q.2.2.2

/-- Whether quad (i, j) is clipped (R125). -/
def quadClipped (d : Memory) (chain : List Nat) (m : Mode) (x : Recipe) (i j : Nat) : Bool :=
  let q := quadSamples d chain m i j
  clippedQuad x.clip q.1 q.2.1 q.2.2.1 q.2.2.2

/-- Step 6: the mean of four channel values, a half rounded up (R127). -/
def mean4 (a b c d : Nat) : Nat := (a + b + c + d + 2) / 4

/-- A quarter-scale pixel from four quads (R127). -/
def quarterPixel (a b c d : Rgb) : Rgb :=
  { red := mean4 a.red b.red c.red d.red, green := mean4 a.green b.green c.green d.green,
    blue := mean4 a.blue b.blue c.blue d.blue }

/-- Proof rows of one stripe (R121). -/
def Scale.stripeRows : Scale → Nat
  | .half => 32
  | .quarter => 16

/-- Proof columns (R126). -/
def Scale.columns (m : Mode) : Scale → Nat
  | .half => quadColumns m
  | .quarter => quadColumns m / 2

/-- Proof pixel at a column and a proof row (R125, R127). -/
def proofPixel (d : Memory) (chain : List Nat) (m : Mode) (x : Recipe) (col row : Nat) : Rgb :=
  match x.params.scale with
  | .half => quadAt d chain m x col row
  | .quarter => quarterPixel (quadAt d chain m x (2 * col) (2 * row)) (quadAt d chain m x (2 * col + 1) (2 * row))
      (quadAt d chain m x (2 * col) (2 * row + 1)) (quadAt d chain m x (2 * col + 1) (2 * row + 1))

/-- The proof pixels of stripe k, row after row (R121, R126). -/
def stripePixels (d : Memory) (chain : List Nat) (m : Mode) (x : Recipe) (k : Nat) : List Rgb :=
  (List.range x.params.scale.stripeRows).flatMap fun r =>
    (List.range (x.params.scale.columns m)).map fun c => proofPixel d chain m x c (k * x.params.scale.stripeRows + r)

/-- The clipped quads of stripe k: 32 rows of quads (R121, R125). -/
def stripeClips (d : Memory) (chain : List Nat) (m : Mode) (x : Recipe) (k : Nat) : Nat :=
  ((List.range 32).map fun r =>
    ((List.range (quadColumns m)).filter fun c => quadClipped d chain m x c (32 * k + r)).length).sum

/-- The bytes of pixels: red, green, blue (R126). -/
def pixelBytes (xs : List Rgb) : List Byte :=
  xs.flatMap fun p => [BitVec.ofNat 8 p.red, BitVec.ofNat 8 p.green, BitVec.ofNat 8 p.blue]

/-- Byte offset of stripe k in the proof (R126). -/
def stripeOffset (m : Mode) (sc : Scale) (k : Nat) : Nat := k * (sc.stripeRows * sc.columns m * 3)

/-- Luminance Y (R128). -/
def luminance (p : Rgb) : Nat := (77 * p.red + 150 * p.green + 29 * p.blue + 128) / 256

/-- Add one pixel to its bin (R128). -/
def countPixel (h : List Nat) (p : Rgb) : List Nat :=
  let k := luminance p / 4
  h.set k (h.getD k 0 + 1)

/-- The recipe of a job for a record (R121). -/
def recipeOf (j : Job) (r : Record) (d : Dve) : Recipe :=
  { params := j.params, bl := r.bl.getD 0, clip := r.clip, tone := d.tones.getD j.params.tone [] }

/-- A stripe carried out (R121, R122 step 1): the DRAM with its proof rows, and the progress after it. -/
def carryStripe (j : Job) (r : Record) (p : Progress) (dve : Dve) (d : Memory) : Memory × Progress :=
  let chain := r.raw.getD []
  let x := recipeOf j r dve
  let pixels := stripePixels d chain j.mode x p.next
  (writeChain d p.chain (stripeOffset j.mode j.params.scale p.next) (pixelBytes pixels),
   { p with next := p.next + 1, clipCount := p.clipCount + stripeClips d chain j.mode x p.next,
            histogram := pixels.foldl countPixel p.histogram })

end Sys2Proof.Machine
end

