-- ==== Sys2Proof/Machine/Develop.lean ====
section
/-! DEFINITION. The Develop Engine's commands: SET_DEVELOP, LOAD_TONE, DEVELOP and STRIPE_COMPLETION (R107, R109, R112, R122, R123). -/

namespace Sys2Proof.Machine

/-! ## Settings and tone tables -/

/-- SET_DEVELOP at its owner (R107). -/
def ownSetDevelop (h : Header) (o : SettingsOps) (s : State) : State :=
  match readSettings o with
  | none => s.refuse .setDevelop h .badRequest
  | some (p, auto) => (s.updDve fun d => { d with settings := p, auto := auto }).answer .setDevelop h []

/-- SET_DEVELOP (R107). -/
def execSetDevelop (h : Header) (o : SettingsOps) (s : State) : Host.Outcome State Fault Refusal :=
  .next (takeRequest .setDevelop h (bodyFits h lenSettings) (ownSetDevelop h o) s)

/-- A job names the table (R108). -/
def State.toneNamed (s : State) (table : Nat) : Bool := s.dve.jobs.any fun j => j.params.tone == table

/-- A table with a run of entries written from an index on (R109). -/
def loadRun (table : List Byte) (first : Nat) (entries : List Byte) : List Byte :=
  table.take first ++ entries ++ table.drop (first + entries.length)

/-- LOAD_TONE at its owner (R109). -/
def ownLoadTone (h : Header) (table first count : Nat) (entries : List Byte) (s : State) : State :=
  if count = 0 ∨ 512 < count ∨ 3 < table ∨ entries.length ≠ count then s.refuse .loadTone h .badRequest
  else if 4095 < first + count - 1 then s.refuse .loadTone h .badRequest
  else if s.toneNamed table then s.refuse .loadTone h .tableBusy
  else (s.updDve fun d => { d with tones := d.tones.modify table fun t => loadRun t first entries }).answer .loadTone h []

/-- LOAD_TONE (R109). -/
def execLoadTone (h : Header) (table : Byte) (first count : Half) (entries : List Byte) (s : State) :
    Host.Outcome State Fault Refusal :=
  .next (takeRequest .loadTone h (bodyFits h (5 + count.toNat))
    (ownLoadTone h table.toNat first.toNat count.toNat entries) s)

/-! ## DEVELOP (R112, R113) -/

/-- The origin of a DEVELOP by its port (R112). -/
def developOrigin : Port → JobOrigin
  | .tether => .tether
  | .body => .body
  | .lens => .body

/-- The body of a DEVELOP response: job number, outcome (MERGED 0, NEW 1), class after the request (R112, log 18). -/
def developBody (number : Nat) (new : Bool) (cls : Priority) : List Byte := le 2 number ++ leBool new ++ le 1 cls.code

/-- DEVELOP at its owner (R112). The answer is sent before the pick. -/
def ownDevelop (h : Header) (o : DevelopOps) (s : State) : State :=
  match readPriority o.cls, developChoices o with
  | some cls, true =>
    let shot := o.shot.toNat
    match s.record shot with
    | none => s.refuse .develop h .notFound
    | some r =>
      if r.state != .stored || r.raw.isNone then s.refuse .develop h .notReady
      else match readDevelop o r.snapshot, s.job shot with
        | none, _ => s.refuse .develop h .badRequest
        | some params, some j =>
          if j.state == .running || j.state == .suspended then s.refuse .develop h .developBusy
          else if s.proofSending shot then s.refuse .develop h .proofBusy
          else mergeDevelop j params cls (developOrigin h.port)
            (s.answer .develop h (developBody j.number false (j.cls.higher cls)))
        | some params, none =>
          if s.proofSending shot then s.refuse .develop h .proofBusy
          else if Config.maxJobs ≤ s.dve.jobs.length then s.refuse .develop h .queueFull
          else createJob shot r.mode params cls (developOrigin h.port)
            (s.answer .develop h (developBody s.newJobNumber true cls))
  | _, _ => s.refuse .develop h .badRequest

/-- DEVELOP (R112). -/
def execDevelop (h : Header) (o : DevelopOps) (s : State) : Host.Outcome State Fault Refusal :=
  .next (takeRequest .develop h (bodyFits h lenDevelop) (ownDevelop h o) s)

/-! ## STRIPE_COMPLETION (R122, R123) -/

/-- The preemption test of the RUNNING job (R123). -/
def preempted (j : Job) (s : State) : Bool :=
  match j.cls with
  | .normal => s.dve.jobs.any (fun x => x.cls == .urgent && (x.state == .queued || x.state == .suspended))
      || s.dve.applied != .normal
  | .urgent => s.dve.applied == .hot

/-- Steps 2 to 6 of R122, on the job with its progress after the stripe. -/
def afterStripe (j : Job) (p : Progress) (s : State) : State :=
  let s := match s.dve.pendingThermal with
    | some t => applyThermal t (s.updDve fun d => { d with pendingThermal := none })
    | none => s
  if j.cancel then endCancelled { j with progress := some p } s
  else if p.next = j.mode.stripes then completeJob j p s
  else if preempted j s then pick (s.updJob j.shot fun x => { x with state := .suspended })
  else s

/-- STRIPE_COMPLETION at the DVE (R122): the stripe in flight is the next stripe of the RUNNING job. -/
def stripeDone (s : State) : State :=
  match s.dve.jobs.find? (fun j => j.state == .running) with
  | none => s
  | some j =>
    match j.progress, s.record j.shot with
    | some p, some r =>
      let (d, p') := carryStripe j r p s.dve s.dram
      afterStripe j p' ((s.updDram fun _ => d).updJob j.shot fun x => { x with progress := some p' })
    | _, _ => s

/-- STRIPE_COMPLETION (R122). -/
def execStripeCompletion (s : State) : Host.Outcome State Fault Refusal := .next (stripeDone s)

end Sys2Proof.Machine
end

