-- ==== Sys2Proof/Machine/Card.lean ====
section
/-! DEFINITION. The Card Writer's commands: OPEN_SLOT, CLOSE_SLOT, SLOT_FULL, GRANT_EXTENTS, BLOCK_READ, BLOCK_WRITE, RETRY_CARD, WAIVE_CARD
and the events of a slot (R134 to R154). -/

namespace Sys2Proof.Machine

/-! ## Opening, closing, declaring full -/

/-- OPEN_SLOT at its owner (R135). -/
def ownOpenSlot (h : Header) (slot : Byte) (s : State) : State :=
  match readSlot slot with
  | none => s.refuse .openSlot h .badRequest
  | some i =>
    if (s.slot i).state != .present then s.refuse .openSlot h .slotState
    else
      let s := moveSlot i .idle (s.updSlot i fun x => { x with pool := [], fullPending := false })
      tryHead i (s.answer .openSlot h [])

/-- OPEN_SLOT (R135). -/
def execOpenSlot (h : Header) (slot : Byte) (s : State) : Host.Outcome State Fault Refusal :=
  .next (takeRequest .openSlot h (bodyFits h lenByte) (ownOpenSlot h slot) s)

/-- CLOSE_SLOT at its owner (R136). -/
def ownCloseSlot (h : Header) (slot : Byte) (s : State) : State :=
  match readSlot slot with
  | none => s.refuse .closeSlot h .badRequest
  | some i =>
    let x := s.slot i
    if x.state == .absent || x.state == .present then s.refuse .closeSlot h .slotState
    else if x.state == .writing || !x.blocks.isEmpty then s.refuse .closeSlot h .busy
    else (moveSlot i .present (s.updSlot i fun y => { y with pool := [], fullPending := false })).answer .closeSlot h []

/-- CLOSE_SLOT (R136). -/
def execCloseSlot (h : Header) (slot : Byte) (s : State) : Host.Outcome State Fault Refusal :=
  .next (takeRequest .closeSlot h (bodyFits h lenByte) (ownCloseSlot h slot) s)

/-- SLOT_FULL at its owner (R137). -/
def ownSlotFull (h : Header) (slot : Byte) (s : State) : State :=
  match readSlot slot with
  | none => s.refuse .slotFull h .badRequest
  | some i =>
    let x := s.slot i
    if !x.state.isOpen then s.refuse .slotFull h .slotState
    else
      let s := (s.updSlot i fun y => { y with pool := [] }).answer .slotFull h []
      if x.state == .writing then s.updSlot i fun y => { y with fullPending := true }
      else if x.state == .full then s
      else migrateFrom i [] (moveSlot i .full s)

/-- SLOT_FULL (R137). -/
def execSlotFull (h : Header) (slot : Byte) (s : State) : Host.Outcome State Fault Refusal :=
  .next (takeRequest .slotFull h (bodyFits h lenByte) (ownSlotFull h slot) s)

/-! ## GRANT_EXTENTS (R141) -/

/-- A slot that takes grants (R141 step 2). -/
def Slot.takesGrants (x : Slot) : Bool :=
  (x.state == .idle || x.state == .writing || x.state == .waitExtents) && !x.fullPending

/-- An extent as R141 step 1 asks it: a count, and a last block that is a block address. -/
def Extent.valid (e : Extent) : Bool := 0 < e.count && e.first + e.count - 1 < Config.wrap32

/-- The grant overlaps nothing: neither itself, nor the pool, nor a fragment of the writing item (R141 step 4). -/
def grantDisjoint (x : Slot) (es : List Extent) : Bool :=
  disjointExtents es && es.all fun e => x.taken.all fun t => !e.overlaps t

/-- GRANT_EXTENTS at its owner (R141). -/
def ownGrantExtents (h : Header) (slot count : Byte) (ops : List ExtentOps) (s : State) : State :=
  let es := ops.map readExtent
  match readSlot slot with
  | none => s.refuse .grantExtents h .badRequest
  | some i =>
    let x := s.slot i
    if es.length = 0 ∨ 8 < es.length ∨ es.length ≠ count.toNat ∨ !es.all Extent.valid then s.refuse .grantExtents h .badRequest
    else if !x.takesGrants then s.refuse .grantExtents h .slotState
    else if es.any (fun e => e.count < Config.minExtent) then s.refuse .grantExtents h .extentSmall
    else if !grantDisjoint x es then s.refuse .grantExtents h .overlap
    else if Config.maxPool < x.pool.length + es.length then s.refuse .grantExtents h .poolFull
    else
      let s := (s.updSlot i fun y => { y with pool := y.pool ++ es }).answer .grantExtents h []
      if x.state == .waitExtents then tryHead i s else s

/-- GRANT_EXTENTS (R141). -/
def execGrantExtents (h : Header) (slot count : Byte) (extents : List ExtentOps) (s : State) :
    Host.Outcome State Fault Refusal :=
  .next (takeRequest .grantExtents h (bodyFits h (2 + lenExtent * count.toNat)) (ownGrantExtents h slot count extents) s)

/-! ## Block requests (R147, R148) -/

/-- The range of a block request (R147 step 1). -/
def blockRange (first count : Nat) : Bool := 0 < count && count ≤ 64 && first + count - 1 < Config.wrap32

/-- The tests that BLOCK_READ and BLOCK_WRITE share after the first, and the joining of the queue (R147, R148). `clash` is
the overlap test of a write. -/
def takeBlockRequest (h : Header) (i : SlotId) (b : BlockRequest) (clash : Bool) (s : State) : State :=
  if !(s.slot i).state.isOpen then s.refuse b.request h .slotState
  else if Config.maxBlockRequests ≤ (s.slot i).blocks.length then s.refuse b.request h .busy
  else if clash then s.refuse b.request h .overlap
  else arbitrate i (s.updSlot i fun x => { x with blocks := x.blocks ++ [b] })

/-- BLOCK_READ at its owner (R148). -/
def ownBlockRead (h : Header) (slot : Byte) (first count : Nat) (s : State) : State :=
  match readSlot slot with
  | none => s.refuse .blockRead h .badRequest
  | some i =>
    if !blockRange first count then s.refuse .blockRead h .badRequest
    else takeBlockRequest h i { write := false, tag := h.tag, first := first, count := count, payload := [] } false s

/-- BLOCK_READ (R148). -/
def execBlockRead (h : Header) (slot : Byte) (first : Word) (count : Byte) (s : State) :
    Host.Outcome State Fault Refusal :=
  .next (takeRequest .blockRead h (bodyFits h lenBlockRequest) (ownBlockRead h slot first.toNat count.toNat) s)

/-- The DATA frame of a BLOCK_WRITE, when the very next message is one that belongs to it (R187, log 15). -/
def frameFor (h : Header) (count : Nat) : Option DataFrame → Option (List Byte)
  | some f => if f.tag = h.tag ∧ f.chunk = 0 ∧ f.payload.length = count * 512 then some f.payload else none
  | none => none

/-- BLOCK_WRITE at its owner (R147). -/
def ownBlockWrite (h : Header) (slot : Byte) (first count : Nat) (frame : Option DataFrame) (s : State) : State :=
  match readSlot slot, frameFor h count frame with
  | some i, some payload =>
    if !blockRange first count then s.refuse .blockWrite h .badRequest
    else takeBlockRequest h i { write := true, tag := h.tag, first := first, count := count, payload := payload }
      ((s.slot i).taken.any fun e => e.overlaps { first := first, count := count }) s
  | _, _ => s.refuse .blockWrite h .badRequest

/-- BLOCK_WRITE (R147). -/
def execBlockWrite (h : Header) (slot : Byte) (first : Word) (count : Byte) (frame : Option DataFrame) (s : State) :
    Host.Outcome State Fault Refusal :=
  .next (takeRequest .blockWrite h (bodyFits h lenBlockRequest) (ownBlockWrite h slot first.toNat count.toNat frame) s)

/-- BLOCK_REQUEST_COMPLETION at a slot (R147, R148): the oldest request leaves the queue and is answered, a read with its
DATA frame; the arbiter goes on. It is taken as the completion of the request in service (log 48). A read whose blocks are
not the length asked for completes nothing (log 27). -/
def blockDone (i : SlotId) (blocks : List Byte) (s : State) : State :=
  let x := s.slot i
  match x.op, x.blocks with
  | some o, b :: rest =>
    if o.kind = .chunk ∨ !o.issued then s
    else if !b.write && blocks.length ≠ b.count * 512 then s
    else
      let s := s.updSlot i fun y => { y with op := none, blocks := rest }
      arbitrate i (if b.write then s.respond .blockWrite .body b.tag .ok []
        else (s.respond .blockRead .body b.tag .ok [] true).send .body (.frame b.tag 0 blocks false))
  | _, _ => s

/-- BLOCK_REQUEST_COMPLETION (R147). -/
def execBlockRequestCompletion (slot : SlotId) (blocks : List Byte) (s : State) : Host.Outcome State Fault Refusal :=
  .next (blockDone slot blocks s)

/-! ## Chunks (R145, R152) -/

/-- The chunk of the writing item whose raw bytes are being read (R145). -/
def Slot.reading (x : Slot) : Option (CardOp × WritingItem) :=
  match x.op, x.writing with
  | some o, some w => if o.kind = .chunk ∧ !o.issued then some (o, w) else none
  | _, _ => none

/-- CHUNK_RAW_READ_COMPLETION at a slot (R145): the operation is issued and its stall timer starts. With no chunk being
read, the reads of an abandoned chunk have completed (log 9). -/
def chunkRead (i : SlotId) (s : State) : State :=
  match (s.slot i).reading with
  | some (o, w) =>
    let chain := ((s.record w.item.shot).bind Record.raw).getD []
    (endAccess (.card i) chain s).updSlot i fun y =>
      { y with op := some { o with issued := true, timer := s.crw.stallLimit } }
  | none =>
    match s.fsc.accesses.find? fun a => a.user == .card i with
    | some a => endAccess (.card i) a.chain s
    | none => s

/-- CHUNK_RAW_READ_COMPLETION (R145). -/
def execChunkRawReadCompletion (slot : SlotId) (s : State) : Host.Outcome State Fault Refusal := .next (chunkRead slot s)

/-- CARD_CHUNK_COMPLETION at a slot (R145, R152): taken as the completion of the chunk in flight; with none in flight it is the
late completion of an abandoned one, and ignored (R149, log 48). -/
def chunkDone (i : SlotId) (s : State) : State :=
  let x := s.slot i
  match x.op, x.writing with
  | some o, some w =>
    if o.kind = .chunk ∧ o.issued then
      let w' := { w with next := w.next + 1, written := w.written + chunkLength w.item.mode w.next }
      let s := s.updSlot i fun y => { y with op := none, writing := some w' }
      if w'.next = w'.item.mode.itemChunks then finishItem i w' .written s
      else if w'.abort then finishItem i w' .aborted s
      else arbitrate i s
    else s
  | _, _ => s

/-- CARD_CHUNK_COMPLETION (R145). -/
def execCardChunkCompletion (slot : SlotId) (s : State) : Host.Outcome State Fault Refusal := .next (chunkDone slot s)

/-! ## Faults, removal, insertion (R134, R149, R150) -/

/-- An operation has been issued to the card of a slot and has not completed (R149). -/
def Slot.issued (x : Slot) : Bool := match x.op with | some o => o.issued | none => false

/-- The stall timer of the operation in flight has run out (R149); one whose operation has completed, or that has time left,
does not expire (log 3). -/
def Slot.stalled (x : Slot) : Bool := match x.op with | some o => o.issued && o.timer == 0 | none => false

/-- CARD_ERROR_COMPLETION (R149): taken as the completion of the operation in flight (log 48). -/
def execCardErrorCompletion (slot : SlotId) (s : State) : Host.Outcome State Fault Refusal :=
  .next (if (s.slot slot).issued then faultSlot slot .fault s else s)

/-- CARD_STALL_EXPIRY (R149). -/
def execCardStallExpiry (slot : SlotId) (s : State) : Host.Outcome State Fault Refusal :=
  .next (if (s.slot slot).stalled then faultSlot slot .fault s else s)

/-- CARD_INSERT (R134). -/
def execCardInsert (slot : SlotId) (s : State) : Host.Outcome State Fault Refusal :=
  let s := s.updSlot slot fun x => { x with detect := true }
  .next (if (s.slot slot).state == .absent then moveSlot slot .present s else s)

/-- CARD_REMOVAL at a slot (R150). -/
def cardRemoved (i : SlotId) (s : State) : State :=
  let s := s.updSlot i fun x => { x with detect := false }
  if (s.slot i).state.isOpen then faultSlot i .absent s
  else if (s.slot i).state == .absent then s
  else migrateFrom i [] (moveSlot i .absent s)

/-- CARD_REMOVAL (R150). -/
def execCardRemoval (slot : SlotId) (s : State) : Host.Outcome State Fault Refusal := .next (cardRemoved slot s)

/-! ## Recovering requirements (R153, R154) -/

/-- The shot numbers a shot operand names: all for 0, else the one, if a record has it (R153, R154). -/
def State.namedShots (s : State) (shot : Nat) : Option (List Nat) :=
  if shot = 0 then some (s.cat.records.map Record.shot) else (s.record shot).map fun r => [r.shot]

/-- The pairs of shot and slot in the order in which they are handled: by record, A before B (R153). -/
def shotSlots (shots : List Nat) (slots : List SlotId) : List (Nat × SlotId) :=
  shots.flatMap fun n => slots.map fun i => (n, i)

/-- Retry the FAILED requirements among the pairs given; the count of items queued (R153). -/
def retryAll : List (Nat × SlotId) → State → Nat × State
  | [], s => (0, s)
  | (n, i) :: rest, s =>
    match s.record n with
    | some r =>
      if r.req i == .failed && (s.slot i).takesItems then
        let (k, s) := retryAll rest (queueItem i { shot := n, mode := r.mode } s)
        (k + 1, s)
      else retryAll rest s
    | none => retryAll rest s

/-- RETRY_CARD at its owner (R153). Of two IDLE slots that receive items, A tries its head item first (log 42). -/
def ownRetryCard (h : Header) (shot : Nat) (slot : Byte) (s : State) : State :=
  match readSlots slot with
  | none => s.refuse .retryCard h .badRequest
  | some slots =>
    match s.namedShots shot with
    | none => s.refuse .retryCard h .notFound
    | some shots =>
      let (k, s) := retryAll (shotSlots shots slots) s
      tryIdle .b (tryIdle .a (s.answer .retryCard h (le 2 k)))

/-- RETRY_CARD (R153). -/
def execRetryCard (h : Header) (shot : Word) (slot : Byte) (s : State) : Host.Outcome State Fault Refusal :=
  .next (takeRequest .retryCard h (bodyFits h lenShotByte) (ownRetryCard h shot.toNat slot) s)

/-- Waive the requirements among the pairs given, each changed record tested; the count waived (R154). -/
def waiveAll : List (Nat × SlotId) → State → Nat × State
  | [], s => (0, s)
  | (n, i) :: rest, s =>
    match s.record n with
    | some r =>
      if r.req i == .queued || r.req i == .failed then
        let s := (s.updSlot i fun x => { x with queue := x.queue.filter fun y => y.shot != n }).setReq n i .waived
        let (k, s) := waiveAll rest (testRelease n s)
        (k + 1, s)
      else waiveAll rest s
    | none => waiveAll rest s

/-- A slot in WAIT_EXTENTS whose head item has been removed tries its new head (R143, R154). -/
def tryNewHead (i : SlotId) (old : Option CardItem) (s : State) : State :=
  if (s.slot i).state == .waitExtents && (s.slot i).queue.head? != old then tryHead i s else s

/-- WAIVE_CARD at its owner (R154). -/
def ownWaiveCard (h : Header) (shot : Nat) (slot : Byte) (s : State) : State :=
  match readSlots slot with
  | none => s.refuse .waiveCard h .badRequest
  | some slots =>
    match s.namedShots shot with
    | none => s.refuse .waiveCard h .notFound
    | some shots =>
      let writing := shot != 0 && slots.any fun i => match s.record shot with | some r => r.req i == .writing | none => false
      if writing then s.refuse .waiveCard h .busy
      else
        let headA := s.crw.slotA.queue.head?
        let headB := s.crw.slotB.queue.head?
        let (k, s) := waiveAll (shotSlots shots slots) s
        tryNewHead .b headB (tryNewHead .a headA (s.answer .waiveCard h (le 2 k)))

/-- WAIVE_CARD (R154). -/
def execWaiveCard (h : Header) (shot : Word) (slot : Byte) (s : State) : Host.Outcome State Fault Refusal :=
  .next (takeRequest .waiveCard h (bodyFits h lenShotByte) (ownWaiveCard h shot.toNat slot) s)

end Sys2Proof.Machine
end

