-- ==== Sys2Proof/Machine/Tether.lean ====
section
/-! DEFINITION. The Tether Controller's commands (R157 to R175): the session, the rules, SEND_SHOT, the item transfer, auto-send. -/

namespace Sys2Proof.Machine

/-! ## The session (R157 to R161) -/

/-- OPEN_SESSION at its owner (R157): a SENDING item of a session that was open is dealt with as under KEEP. -/
def ownOpenSession (h : Header) (s : State) : State :=
  let s' := startSilence (s.updTtc fun t => { t with attached := true })
  let s' := if s.ttc.attached then settleSending true s' else s'
  s'.answer .openSession h (le 1 s'.ttc.queue.length ++ leBool (!s'.ttc.armed) ++ le 1 s'.ttc.errors)

/-- OPEN_SESSION (R157). -/
def execOpenSession (h : Header) (s : State) : Host.Outcome State Fault Refusal :=
  .next (takeRequest .openSession h (bodyFits h lenNone) (ownOpenSession h) s)

/-- CLOSE_SESSION at its owner (R158). -/
def ownCloseSession (h : Header) (s : State) : State :=
  (if s.ttc.attached then detachSession s else s).answer .closeSession h []

/-- CLOSE_SESSION (R158). -/
def execCloseSession (h : Header) (s : State) : Host.Outcome State Fault Refusal :=
  .next (takeRequest .closeSession h (bodyFits h lenNone) (ownCloseSession h) s)

/-- The expiry of the silence timer (R159), which runs while the session is ATTACHED; one that a restart has overtaken, so that
the timer has time left, does not happen (log 3). -/
def silenceExpires (s : State) : State :=
  if s.ttc.attached && s.ttc.silence == some 0 then detachSession s else s

/-- SILENCE_EXPIRY (R159). -/
def execSilenceExpiry (s : State) : Host.Outcome State Fault Refusal := .next (silenceExpires s)

/-- The link events of the tether port: DETACHED, then the port emptied (R161, R193). In DETACHED too what the port has still to
deliver is discarded, as R193 says, where R161 says that the event acts on the notice queue alone (the model's reading,
log 45). -/
def tetherLinkLost (s : State) : State :=
  (if s.ttc.attached then detachSession s else s).updPtc fun p => { p with tetherQueue := [], tetherOut := [] }

/-- USB_BUS_RESET (R161). -/
def execUsbBusReset (s : State) : Host.Outcome State Fault Refusal := .next (tetherLinkLost s)

/-- TETHER_CABLE_LOSS (R161). -/
def execTetherCableLoss (s : State) : Host.Outcome State Fault Refusal := .next (tetherLinkLost s)

/-! ## Rules and SEND_SHOT (R162, R168) -/

/-- SET_RULE at its owner (R162). -/
def ownSetRule (h : Header) (index : Nat) (o : RuleOps) (s : State) : State :=
  match readRule o with
  | some u =>
    if 7 < index then s.refuse .setRule h .badRequest
    else (s.updTtc fun t => { t with rules := t.rules.set index u }).answer .setRule h []
  | none => s.refuse .setRule h .badRequest

/-- SET_RULE (R162). -/
def execSetRule (h : Header) (index : Byte) (o : RuleOps) (s : State) : Host.Outcome State Fault Refusal :=
  .next (takeRequest .setRule h (bodyFits h lenRule) (ownSetRule h index.toNat o) s)

/-- The refusal of a SEND_SHOT whose job request was answered otherwise than NEW or MERGED (R168 step 4). -/
def jobRefusal : JobAnswer → Result
  | .queueFull => .queueFull
  | .notReady => .notReady
  | .proofBusy => .notReady
  | .merged => .notReady
  | .new => .notReady

/-- The body of a SEND_SHOT response: serial, outcome (EXISTING 0, NEW 1; log 18). -/
def sendBody (serial : Nat) (new : Bool) : List Byte := le 4 serial ++ leBool new

/-- SEND_SHOT at its owner (R168). -/
def ownSendShot (h : Header) (shot : Nat) (content cls : Byte) (s : State) : State :=
  match readContent content, readPriority cls with
  | some c, some p =>
    if !s.ttc.attached then s.refuse .sendShot h .noSession
    else match s.record shot, s.itemFor shot c with
      | none, _ => s.refuse .sendShot h .notFound
      | some _, some i => (raiseItem i p s).answer .sendShot h (sendBody i.serial false)
      | some r, none =>
        match enqueueItem shot c p none 1000 r.snapshot.scale s with
        | (.unavailable, _) => s.refuse .sendShot h .notReady
        | (.noSpace, _) => s.refuse .sendShot h .queueFull
        | (.noJob a, _) => s.refuse .sendShot h (jobRefusal a)
        | (.joined, s') => s'.answer .sendShot h (sendBody s.newSerial true)
  | _, _ => s.refuse .sendShot h .badRequest

/-- SEND_SHOT (R168). -/
def execSendShot (h : Header) (shot : Word) (content cls : Byte) (s : State) : Host.Outcome State Fault Refusal :=
  .next (takeRequest .sendShot h (bodyFits h lenSend) (ownSendShot h shot.toNat content cls) s)

/-! ## The item transfer (R170 to R173) -/

/-- The item TAKE_NEXT takes: the oldest READY URGENT item, else the oldest READY NORMAL one (R170). -/
def State.nextItem (s : State) : Option SendItem :=
  (s.ttc.queue.find? fun i => i.state == .ready && i.cls == .urgent).or
    (s.ttc.queue.find? fun i => i.state == .ready && i.cls == .normal)

/-- The payload of chunk k of a transfer: the header block and the content after it (R171). -/
def chunkPayload (t : Transfer) (k : Nat) (m : Memory) : List Byte :=
  if k = 0 then t.header ++ readChain m t.chain 0 (framePayloadLen t.total 0 - 512)
  else readChain m t.chain (k * Config.framePayload - 512) (framePayloadLen t.total k)

/-- A tether chunk begins: the read of its content, and its DATA frame (R171). -/
def startChunk (t : Transfer) (s : State) : State :=
  (beginAccess .tether t.chain s).send .tether (.frame t.tag t.next (chunkPayload t t.next s.dram) false)

/-- The body of a TAKE_NEXT response (R170): serial, shot, content and scale, origin, total bytes, chunks. A raw has the scale byte
too, as none (the model's choice, log 52). -/
def takeBody (i : SendItem) (scale : Option Nat) (t : Transfer) : List Byte :=
  le 4 i.serial ++ le 4 i.shot ++ le 1 i.content.code ++ leOpt 1 scale ++ leOpt 1 i.origin ++ le 4 t.total ++ le 2 t.chunks

/-- TAKE_NEXT at its owner (R170). -/
def ownTakeNext (h : Header) (s : State) : State :=
  if s.sendingItem.isSome then s.refuse .takeNext h .itemOpen
  else match s.nextItem with
    | none => s.refuse .takeNext h .noItem
    | some i =>
      match s.record i.shot with
      | none => s.refuse .takeNext h .noItem
      | some r =>
        match r.readable i.content with
        | none => s.refuse .takeNext h .noItem
        | some (chain, bytes, scale) =>
          let t : Transfer := { awaiting := false, next := 0, chunks := frameCount (512 + bytes), total := 512 + bytes,
                                tag := h.tag, chain := chain, header := headerBlock r i.content }
          let s := s.updItem i.serial fun x => { x with state := .sending, transfer := some t, cut := .clear }
          startChunk t (s.respond .takeNext h.port h.tag .ok (takeBody i scale t) true)

/-- TAKE_NEXT (R170). -/
def execTakeNext (h : Header) (s : State) : Host.Outcome State Fault Refusal :=
  .next (takeRequest .takeNext h (bodyFits h lenNone) (ownTakeNext h) s)

/-- The chunk in flight of the SENDING item has been delivered (R171, R173). A cut item ends as its ABORTED frame goes into the
port's out queue, before that frame is delivered (the model's choice, log 53). -/
def afterChunk (i : SendItem) (t : Transfer) (s : State) : State :=
  let s := s.updPtc fun p => { p with tetherOut := dropThrough (isFrame t.tag t.next) p.tetherOut }
  let s := startSilence (endAccess .tether t.chain s)
  let t := { t with next := t.next + 1 }
  let s := s.updItem i.serial fun x => { x with transfer := some t }
  match i.cut with
  | .delete => endDeleted { i with transfer := some t } (s.send .tether (.frame t.tag t.next [] true))
  | .cancel => endCanceled { i with transfer := some t } (s.send .tether (.frame t.tag t.next [] true))
  | .clear =>
    if t.next = t.chunks then s.updItem i.serial fun x => { x with transfer := some { t with awaiting := true } }
    else startChunk t s

/-- TETHER_CHUNK_COMPLETION at the TTC (R171): ignored when no chunk is in flight. -/
def tetherChunkDone (s : State) : State :=
  match s.sendingItem with
  | none => s
  | some i =>
    match i.transfer with
    | some t => if t.awaiting then s else afterChunk i t s
    | none => s

/-- TETHER_CHUNK_COMPLETION (R171). -/
def execTetherChunkCompletion (s : State) : Host.Outcome State Fault Refusal := .next (tetherChunkDone s)

/-- A transfer's item awaits its result (R166). -/
def SendItem.awaits (i : SendItem) : Bool := match i.transfer with | some t => t.awaiting | none => false

/-- ITEM_RESULT OK: the item leaves with its mark SENT, and the link error count falls (R172). -/
def itemSent (h : Header) (i : SendItem) (s : State) : State :=
  let s := (leaveQueue i .sent s).updTtc fun t => { t with errors := t.errors - 1 }
  testRelease i.shot (s.answer .itemResult h [])

/-- ITEM_RESULT FAILED: a further attempt, or the end of the item; the link error count rises, and at the threshold auto-send
is suspended (R172, R174). -/
def itemFailed (h : Header) (i : SendItem) (s : State) : State :=
  let s := s.updTtc fun t => { t with errors := if t.errors < t.threshold then t.errors + 1 else t.errors }
  let s := if i.attempts + 1 < 3 then returnToHead { i with attempts := i.attempts + 1 } s else leaveQueue i .failed s
  let s := testRelease i.shot (s.answer .itemResult h [])
  if s.ttc.armed && s.ttc.threshold ≤ s.ttc.errors then suspendAutosend s else s

/-- ITEM_RESULT at its owner (R172). -/
def ownItemResult (h : Header) (serial : Nat) (outcome : Byte) (s : State) : State :=
  match readOutcome outcome with
  | none => s.refuse .itemResult h .badRequest
  | some ok =>
    match s.sendingItem with
    | none => s.refuse .itemResult h .noItem
    | some i =>
      if i.serial ≠ serial ∨ i.cut ≠ .clear then s.refuse .itemResult h .noItem
      else if !i.awaits then s.refuse .itemResult h .itemOpen
      else if ok then itemSent h i s else itemFailed h i s

/-- ITEM_RESULT (R172). -/
def execItemResult (h : Header) (serial : Word) (outcome : Byte) (s : State) : Host.Outcome State Fault Refusal :=
  .next (takeRequest .itemResult h (bodyFits h lenShotByte) (ownItemResult h serial.toNat outcome) s)

/-- CANCEL_ITEM at its owner (R173). -/
def ownCancelItem (h : Header) (serial : Nat) (s : State) : State :=
  match s.ttc.queue.find? fun i => i.serial == serial with
  | none => s.refuse .cancelItem h .noItem
  | some i =>
    if i.state = .sending ∧ i.cut ≠ .clear then s.refuse .cancelItem h .noItem
    else if i.state = .sending ∧ !i.awaits then
      s.updItem i.serial fun x => { x with cut := .cancel, cancelTag := some h.tag }
    else testRelease i.shot ((leaveQueue i .dropped s).answer .cancelItem h [])

/-- CANCEL_ITEM (R173). -/
def execCancelItem (h : Header) (serial : Word) (s : State) : Host.Outcome State Fault Refusal :=
  .next (takeRequest .cancelItem h (bodyFits h lenShot) (ownCancelItem h serial.toNat) s)

/-! ## Auto-send (R175) -/

/-- Evaluate the rules for shots in the order given (R175). -/
def evaluateAll : List Nat → State → State
  | [], s => s
  | n :: ns, s => evaluateAll ns (evaluateRules n s)

/-- The shot numbers of the STORED records, in increasing order (R175). -/
def State.storedShots (s : State) : List Nat := (s.cat.records.filter fun r => r.state == .stored).map Record.shot

/-- REARM_AUTOSEND at its owner (R175, log 13). -/
def ownRearmAutosend (h : Header) (backfill : Byte) (s : State) : State :=
  match readFlag backfill with
  | none => s.refuse .rearmAutosend h .badRequest
  | some fill =>
    let s := (s.updTtc fun t => { t with errors := 0, armed := true }).answer .rearmAutosend h []
    if fill then evaluateAll s.storedShots s else s

/-- REARM_AUTOSEND (R175). -/
def execRearmAutosend (h : Header) (backfill : Byte) (s : State) : Host.Outcome State Fault Refusal :=
  .next (takeRequest .rearmAutosend h (bodyFits h lenByte) (ownRearmAutosend h backfill) s)

end Sys2Proof.Machine
end

