-- ==== Sys2Proof/Machine/Thermal.lean ====
section
/-! DEFINITION. The Thermal Monitor: the sample event, the sensors' states and the part state (R178 to R183). -/

namespace Sys2Proof.Machine

/-- The two thresholds of a sensor, WARM and HOT (09, Thresholds and hysteresis). -/
structure Thresholds where
  warm : Int
  hot : Int
  deriving DecidableEq, Repr

def dieThresholds : Thresholds := { warm := 95, hot := 110 }
def stackThresholds : Thresholds := { warm := 85, hot := 95 }

/-- The reading as the THM takes it: clamped, and 150 for an invalid conversion (R178). -/
def readingTaken (r : Reading) : Int := if r.valid then clampInt (-40) 150 r.value else 150

/-- The fall of a sensor that did not rise (R180): `fallPoint` and the state below are those of its current state. -/
def Sensor.settle (x : Sensor) (v fallPoint : Int) (below : Thermal) : Sensor :=
  if v < fallPoint then
    if Config.fallSamples ≤ x.hold + 1 then { x with state := below, hold := 0 } else { x with hold := x.hold + 1 }
  else { x with hold := 0 }

/-- One sensor at a sample: rise (R179), else fall (R180). -/
def Sensor.sample (x : Sensor) (t : Thresholds) (r : Reading) : Sensor :=
  let v := readingTaken r
  let x := { x with reading := some v, invalid := !r.valid }
  match x.state with
  | .normal =>
    if t.hot ≤ v then { x with state := .hot, hold := 0 }
    else if t.warm ≤ v then { x with state := .warm, hold := 0 }
    else { x with hold := 0 }
  | .warm => if t.hot ≤ v then { x with state := .hot, hold := 0 } else x.settle v (t.warm - 5) .normal
  | .hot => x.settle v (t.hot - 5) .warm

/-- The THERMAL_STATE notice of the part as it stands (R183). -/
def thermalNotice (previous : Thermal) (m : Thm) : Notice := .thermalState previous m.part m.sampleTime m.die m.stack

/-- A change of the part state reaches the SIU, then the DVE, then the body port (R182, R183, log 21). -/
def thermalChanged (previous : Thermal) (s : State) : State :=
  let s := handThermalToDve s.thm.part (handThermalToSiu s.thm.part s)
  s.offerClass Classes.thermal (thermalNotice previous s.thm)

/-- The sample event at the THM's own state (R178 to R181). -/
def Thm.sample (m : Thm) (now : Nat) (die stack : Reading) : Thm :=
  let d := m.die.sample dieThresholds die
  let k := m.stack.sample stackThresholds stack
  { die := d, stack := k, part := d.state.higher k.state, sinceSample := 0, sampleTime := now }

/-- THERMAL_SAMPLE at the THM (R178, R181). -/
def sampleTaken (die stack : Reading) (s : State) : State :=
  let previous := s.thm.part
  let s := s.updThm fun m => m.sample s.ptc.timeBase die stack
  if s.thm.part == previous then s else thermalChanged previous s

/-- The sample period has passed since the reset line or the latest sample event (R178, R201). -/
def Thm.sampleDue (m : Thm) : Bool := Config.samplePeriod ≤ m.sinceSample

/-- THERMAL_SAMPLE (R178, R201): no sample event happens before its period has passed (log 3). -/
def execThermalSample (die stack : Reading) (s : State) : Host.Outcome State Fault Refusal :=
  .next (if s.thm.sampleDue then sampleTaken die stack s else s)

end Sys2Proof.Machine
end

