-- ==== Sys2Proof/Machine/Ports.lean ====
section
/-! DEFINITION. The Port Controller's commands: IDENTIFY, GET_STATUS, FETCH_NOTICES, NOTICE_CLASSES, SET_PARAMS, messages that are no
request, the time base, the reset line, and the last access to a released chain (R10, R187 to R202). -/

namespace Sys2Proof.Machine

/-! ## Identity and status (R194, R195) -/

/-- The body of an IDENTIFY response (R194). -/
def identityBody (p : Port) : List Byte := le 2 Config.partCode ++ le 1 Config.revision ++ le 1 p.code

/-- IDENTIFY (R194). -/
def execIdentify (h : Header) (s : State) : Host.Outcome State Fault Refusal :=
  .next (takeRequest .identify h (bodyFits h lenNone) (fun s => s.answer .identify h (identityBody h.port)) s)

/-- GET_STATUS (R195). -/
def execGetStatus (h : Header) (s : State) : Host.Outcome State Fault Refusal :=
  .next (takeRequest .getStatus h (bodyFits h lenNone) (fun s => s.answer .getStatus h (statusBody s)) s)

/-! ## Notices (R191, R192) -/

/-- The entries a fetch carries: at most `limit`, within `room` bytes; and what is left (R192). -/
def takeNotices : Nat → Nat → List Notice → List Notice × List Notice
  | _, _, [] => ([], [])
  | 0, _, q => ([], q)
  | limit + 1, room, n :: q =>
    if n.entry.length ≤ room then
      let r := takeNotices limit (room - n.entry.length) q
      (n :: r.1, r.2)
    else ([], n :: q)

/-- FETCH_NOTICES at its owner (R192). -/
def ownFetchNotices (h : Header) (maximum : Nat) (s : State) : State :=
  let r := takeNotices (clampNat 1 8 maximum) (Config.maxBody - 2) (s.ptc.queue h.port)
  (s.updPtc fun p => p.setQueue h.port r.2).answer .fetchNotices h
    (le 1 r.1.length ++ le 1 r.2.length ++ r.1.flatMap Notice.entry)

/-- FETCH_NOTICES (R192). -/
def execFetchNotices (h : Header) (maximum : Byte) (s : State) : Host.Outcome State Fault Refusal :=
  .next (takeRequest .fetchNotices h (bodyFits h lenByte) (ownFetchNotices h maximum.toNat) s)

/-- The notices that enabling a class brings about, by the condition that holds (R191), in the order of the table. -/
def standingNotices (old new : Classes) (s : State) : List Notice :=
  (if !old.thermal && new.thermal && s.thm.part != .normal then [thermalNotice s.thm.part s.thm] else [])
    ++ (if !old.shortage && new.shortage && s.siu.burst.shortage then
          [.shortage 0 s.fsc.freeList.length s.cat.records.length s.siu.burst.skips] else [])
    ++ (if !old.slotState && new.slotState then
          ([SlotId.a, .b].filter fun i => (s.slot i).state == .fault || (s.slot i).state == .waitExtents).map
            fun i => slotNotice i (s.slot i).state s
        else [])
    ++ (if !old.autosend && new.autosend && !s.ttc.armed then [.autosendSuspended s.ttc.errors s.ttc.threshold] else [])

/-- Offer notices to the body port in order. -/
def offerAll : List Notice → State → State
  | [], s => s
  | n :: ns, s => offerAll ns (s.offer .body n)

/-- NOTICE_CLASSES at its owner (R191). -/
def ownNoticeClasses (h : Header) (thermal shortage slotState autosend : Byte) (s : State) : State :=
  match readFlag thermal, readFlag shortage, readFlag slotState, readFlag autosend with
  | some a, some b, some c, some d =>
    let old := s.ptc.enables
    let new : Classes := { thermal := a, shortage := b, slotState := c, autosend := d }
    offerAll (standingNotices old new s) ((s.updPtc fun p => { p with enables := new }).answer .noticeClasses h [])
  | _, _, _, _ => s.refuse .noticeClasses h .badRequest

/-- NOTICE_CLASSES (R191). -/
def execNoticeClasses (h : Header) (thermal shortage slotState autosend : Byte) (s : State) :
    Host.Outcome State Fault Refusal :=
  .next (takeRequest .noticeClasses h (bodyFits h lenClasses) (ownNoticeClasses h thermal shortage slotState autosend) s)

/-! ## SET_PARAMS (R196) -/

/-- The FSC takes the capture reserve; a lowering is announced (R9). -/
def takeReserve (v : Nat) (s : State) : State :=
  let s' := s.updFsc fun f => { f with reserve := v }
  if v < s.fsc.reserve then announceSlabs s' else s'

/-- The TTC takes the error threshold: the count is clamped to it, and a count that reaches it suspends auto-send (R174). -/
def takeThreshold (v : Nat) (s : State) : State :=
  let s := s.updTtc fun t => { t with threshold := v, errors := min t.errors v }
  if s.ttc.armed && s.ttc.threshold ≤ s.ttc.errors then suspendAutosend s else s

/-- The owners take the eleven values (R196). -/
def takeParams (p : Params) (s : State) : State :=
  let s := takeReserve p.reserve s
  let s := s.updCrw fun c =>
    { c with contentA := p.contentA, contentB := p.contentB, overflow := p.overflow, stallLimit := p.stall }
  let s := s.updCat fun c => { c with pressureYield := p.yielding, clipLevel := p.clip }
  let s := s.updTtc fun t => { t with policy := p.policy, silenceLimit := p.silence }
  takeThreshold p.threshold (s.updSiu fun u => { u with waitLimit := p.shotWait })

/-- SET_PARAMS at its owner (R196). -/
def ownSetParams (h : Header) (o : ParamsOps) (s : State) : State :=
  match readParams o with
  | none => s.refuse .setParams h .badRequest
  | some p => (takeParams p s).answer .setParams h []

/-- SET_PARAMS (R196). -/
def execSetParams (h : Header) (o : ParamsOps) (s : State) : Host.Outcome State Fault Refusal :=
  .next (takeRequest .setParams h (bodyFits h lenParams) (ownSetParams h o) s)

/-! ## Messages that are no request (R186 to R188) -/

/-- UNKNOWN_KIND_MESSAGE (R186, R188 step 1): a response of kind 0x80. -/
def execUnknownKindMessage (port : Port) (_kind tag : Byte) (s : State) : Host.Outcome State Fault Refusal :=
  .next (s.send port (.response 0x80 tag .badRequest false []))

/-- STRAY_DATA_FRAME (R187): discarded without a response. -/
def execStrayDataFrame (_port : Port) (_frame : DataFrame) (s : State) : Host.Outcome State Fault Refusal := .next s

/-! ## Time, reset, last accesses (R10, R201, R202) -/

/-- A card operation's stall timer runs from its issue (R149). -/
def CardOp.tick (o : CardOp) : CardOp := if o.issued then { o with timer := o.timer - 1 } else o

/-- One millisecond at a slot. -/
def Slot.tick (x : Slot) : Slot := { x with op := x.op.map CardOp.tick }

/-- One millisecond of the time base, and of every timer that runs (R201, log 3). -/
def tick (s : State) : State :=
  { s with
    ptc := { s.ptc with timeBase := wrap32 s.ptc.timeBase }
    siu := { s.siu with shoot := s.siu.shoot.map fun p => { p with timer := p.timer.map (· - 1) } }
    crw := { s.crw with slotA := s.crw.slotA.tick, slotB := s.crw.slotB.tick }
    ttc := { s.ttc with silence := s.ttc.silence.map (· - 1) }
    thm := { s.thm with sinceSample := min Config.samplePeriod (s.thm.sinceSample + 1) } }

/-- TIME_BASE_TICK (R201). -/
def execTimeBaseTick (s : State) : Host.Outcome State Fault Refusal := .next (tick s)

/-- The reset line (R202): every block takes its reset value; the DRAM keeps its contents (R1, log 6), the lines from
outside their levels (log 7), the commands that wait their places (log 28). -/
def resetPart (s : State) : State :=
  { State.reset with pending := s.pending, dram := s.dram, fe := Fe.reset s.fe.lensPresent,
                     crw := Crw.reset s.crw.slotA.detect s.crw.slotB.detect }

/-- RESET_LINE (R202). -/
def execResetLine (s : State) : Host.Outcome State Fault Refusal := .next (resetPart s)

/-- The last access to a released chain completes (R10): the release is carried out. -/
def lastAccessDone (chain : List Nat) (s : State) : State :=
  if s.fsc.releasing.contains chain then
    let s := s.updFsc fun f => { f with accesses := f.accesses.filter fun a => a.chain != chain }
    settleReleases s.fsc.releasing s
  else s

/-- CHAIN_LAST_ACCESS_COMPLETION (R10). -/
def execChainLastAccessCompletion (chain : List Nat) (s : State) : Host.Outcome State Fault Refusal :=
  .next (lastAccessDone chain s)

end Sys2Proof.Machine
end

