-- ==== Sys2Proof/Machine/Dispatch.lean ====
section
/-! DEFINITION. The dispatch of a command to its meaning: one arm per constructor. -/

namespace Sys2Proof.Machine

open Sys2Proof

def exec (i : Instr) (s : State) : Host.Outcome State Fault Refusal :=
  match i with
  | .blockRead h slot first count => Sys2Proof.Machine.execBlockRead h slot first count s
  | .blockWrite h slot first count frame => Sys2Proof.Machine.execBlockWrite h slot first count frame s
  | .burstBegin h divisor maximum focus => Sys2Proof.Machine.execBurstBegin h divisor maximum focus s
  | .burstEnd h => Sys2Proof.Machine.execBurstEnd h s
  | .cancelItem h serial => Sys2Proof.Machine.execCancelItem h serial s
  | .closeSession h => Sys2Proof.Machine.execCloseSession h s
  | .closeSlot h slot => Sys2Proof.Machine.execCloseSlot h slot s
  | .configureStore h slabs mode => Sys2Proof.Machine.execConfigureStore h slabs mode s
  | .delete h shot => Sys2Proof.Machine.execDelete h shot s
  | .develop h ops => Sys2Proof.Machine.execDevelop h ops s
  | .fetchNotices h maximum => Sys2Proof.Machine.execFetchNotices h maximum s
  | .getStatus h => Sys2Proof.Machine.execGetStatus h s
  | .getZoneMap h => Sys2Proof.Machine.execGetZoneMap h s
  | .grantExtents h slot count extents => Sys2Proof.Machine.execGrantExtents h slot count extents s
  | .hold h shot => Sys2Proof.Machine.execHold h shot s
  | .identify h => Sys2Proof.Machine.execIdentify h s
  | .itemResult h serial outcome => Sys2Proof.Machine.execItemResult h serial outcome s
  | .lensState h ops => Sys2Proof.Machine.execLensState h ops s
  | .listShots h first maximum => Sys2Proof.Machine.execListShots h first maximum s
  | .loadTone h table first count entries => Sys2Proof.Machine.execLoadTone h table first count entries s
  | .noticeClasses h thermal shortage slotState autosend => Sys2Proof.Machine.execNoticeClasses h thermal shortage slotState autosend s
  | .openSession h => Sys2Proof.Machine.execOpenSession h s
  | .openSlot h slot => Sys2Proof.Machine.execOpenSlot h slot s
  | .precapture h action depth divisor => Sys2Proof.Machine.execPrecapture h action depth divisor s
  | .protect h shot action => Sys2Proof.Machine.execProtect h shot action s
  | .readProof h shot => Sys2Proof.Machine.execReadProof h shot s
  | .readRaw h shot => Sys2Proof.Machine.execReadRaw h shot s
  | .rearmAutosend h backfill => Sys2Proof.Machine.execRearmAutosend h backfill s
  | .retryCard h shot slot => Sys2Proof.Machine.execRetryCard h shot slot s
  | .sendShot h shot content cls => Sys2Proof.Machine.execSendShot h shot content cls s
  | .setDevelop h ops => Sys2Proof.Machine.execSetDevelop h ops s
  | .setFocus h ops => Sys2Proof.Machine.execSetFocus h ops s
  | .setParams h ops => Sys2Proof.Machine.execSetParams h ops s
  | .setRule h index ops => Sys2Proof.Machine.execSetRule h index ops s
  | .setTags h shot setMask clearMask rating => Sys2Proof.Machine.execSetTags h shot setMask clearMask rating s
  | .setZones h entries => Sys2Proof.Machine.execSetZones h entries s
  | .shoot h focus => Sys2Proof.Machine.execShoot h focus s
  | .shotInfo h shot => Sys2Proof.Machine.execShotInfo h shot s
  | .slotFull h slot => Sys2Proof.Machine.execSlotFull h slot s
  | .takeNext h => Sys2Proof.Machine.execTakeNext h s
  | .unhold h shot => Sys2Proof.Machine.execUnhold h shot s
  | .unwatch h => Sys2Proof.Machine.execUnwatch h s
  | .waiveCard h shot slot => Sys2Proof.Machine.execWaiveCard h shot slot s
  | .watch h mode => Sys2Proof.Machine.execWatch h mode s
  | .unknownKindMessage port kind tag => Sys2Proof.Machine.execUnknownKindMessage port kind tag s
  | .strayDataFrame port frame => Sys2Proof.Machine.execStrayDataFrame port frame s
  | .frameStart => Sys2Proof.Machine.execFrameStart s
  | .line index samples => Sys2Proof.Machine.execLine index samples s
  | .frameEnd => Sys2Proof.Machine.execFrameEnd s
  | .afPacket zone left right => Sys2Proof.Machine.execAfPacket zone left right s
  | .rawCompletion => Sys2Proof.Machine.execRawCompletion s
  | .focusResultReady => Sys2Proof.Machine.execFocusResultReady s
  | .stripeCompletion => Sys2Proof.Machine.execStripeCompletion s
  | .cardChunkCompletion slot => Sys2Proof.Machine.execCardChunkCompletion slot s
  | .blockRequestCompletion slot blocks => Sys2Proof.Machine.execBlockRequestCompletion slot blocks s
  | .cardErrorCompletion slot => Sys2Proof.Machine.execCardErrorCompletion slot s
  | .cardStallExpiry slot => Sys2Proof.Machine.execCardStallExpiry slot s
  | .cardInsert slot => Sys2Proof.Machine.execCardInsert slot s
  | .cardRemoval slot => Sys2Proof.Machine.execCardRemoval slot s
  | .tetherChunkCompletion => Sys2Proof.Machine.execTetherChunkCompletion s
  | .readFrameCompletion => Sys2Proof.Machine.execReadFrameCompletion s
  | .silenceExpiry => Sys2Proof.Machine.execSilenceExpiry s
  | .shotWaitExpiry => Sys2Proof.Machine.execShotWaitExpiry s
  | .thermalSample die stack => Sys2Proof.Machine.execThermalSample die stack s
  | .usbBusReset => Sys2Proof.Machine.execUsbBusReset s
  | .tetherCableLoss => Sys2Proof.Machine.execTetherCableLoss s
  | .lensDetach => Sys2Proof.Machine.execLensDetach s
  | .lensAttach => Sys2Proof.Machine.execLensAttach s
  | .chainLastAccessCompletion chain => Sys2Proof.Machine.execChainLastAccessCompletion chain s
  | .resetLine => Sys2Proof.Machine.execResetLine s
  | .timeBaseTick => Sys2Proof.Machine.execTimeBaseTick s
  | .chunkRawReadCompletion slot => Sys2Proof.Machine.execChunkRawReadCompletion slot s

end Sys2Proof.Machine
end

