-- ==== Sys2Proof/Safety.lean ====
section
/-! DEFINITION. The terms the statements use: which request a command is and how it reaches its owner, which commands agree with the
counts of time, what follow-on work never touches, and the laws that hold in every state the part can reach. -/

namespace Sys2Proof

open Machine

/-! ## Requests (R186, R188, R197) -/

/-- The request a command is, with its header; none for the other messages and for the events. -/
def Instr.asRequest : Instr → Option (Request × Header)
  | .blockRead h .. => some (.blockRead, h)
  | .blockWrite h .. => some (.blockWrite, h)
  | .burstBegin h .. => some (.burstBegin, h)
  | .burstEnd h => some (.burstEnd, h)
  | .cancelItem h _ => some (.cancelItem, h)
  | .closeSession h => some (.closeSession, h)
  | .closeSlot h _ => some (.closeSlot, h)
  | .configureStore h .. => some (.configureStore, h)
  | .delete h _ => some (.delete, h)
  | .develop h _ => some (.develop, h)
  | .fetchNotices h _ => some (.fetchNotices, h)
  | .getStatus h => some (.getStatus, h)
  | .getZoneMap h => some (.getZoneMap, h)
  | .grantExtents h .. => some (.grantExtents, h)
  | .hold h _ => some (.hold, h)
  | .identify h => some (.identify, h)
  | .itemResult h .. => some (.itemResult, h)
  | .lensState h _ => some (.lensState, h)
  | .listShots h .. => some (.listShots, h)
  | .loadTone h .. => some (.loadTone, h)
  | .noticeClasses h .. => some (.noticeClasses, h)
  | .openSession h => some (.openSession, h)
  | .openSlot h _ => some (.openSlot, h)
  | .precapture h .. => some (.precapture, h)
  | .protect h .. => some (.protect, h)
  | .readProof h _ => some (.readProof, h)
  | .readRaw h _ => some (.readRaw, h)
  | .rearmAutosend h _ => some (.rearmAutosend, h)
  | .retryCard h .. => some (.retryCard, h)
  | .sendShot h .. => some (.sendShot, h)
  | .setDevelop h _ => some (.setDevelop, h)
  | .setFocus h _ => some (.setFocus, h)
  | .setParams h _ => some (.setParams, h)
  | .setRule h .. => some (.setRule, h)
  | .setTags h .. => some (.setTags, h)
  | .setZones h _ => some (.setZones, h)
  | .shoot h _ => some (.shoot, h)
  | .shotInfo h _ => some (.shotInfo, h)
  | .slotFull h _ => some (.slotFull, h)
  | .takeNext h => some (.takeNext, h)
  | .unhold h _ => some (.unhold, h)
  | .unwatch h => some (.unwatch, h)
  | .waiveCard h .. => some (.waiveCard, h)
  | .watch h _ => some (.watch, h)
  | .unknownKindMessage .. => none
  | .strayDataFrame .. => none
  | .frameStart => none
  | .line .. => none
  | .frameEnd => none
  | .afPacket .. => none
  | .rawCompletion => none
  | .focusResultReady => none
  | .stripeCompletion => none
  | .cardChunkCompletion _ => none
  | .blockRequestCompletion .. => none
  | .cardErrorCompletion _ => none
  | .cardStallExpiry _ => none
  | .cardInsert _ => none
  | .cardRemoval _ => none
  | .tetherChunkCompletion => none
  | .readFrameCompletion => none
  | .silenceExpiry => none
  | .shotWaitExpiry => none
  | .thermalSample .. => none
  | .usbBusReset => none
  | .tetherCableLoss => none
  | .lensDetach => none
  | .lensAttach => none
  | .chainLastAccessCompletion _ => none
  | .resetLine => none
  | .timeBaseTick => none
  | .chunkRawReadCompletion _ => none

/-- The number of body bytes the operands of a request make (R188 step 3), by the widths of R197. A list of operands makes
the length its count operand says; SET_ZONES has its 48 entries. -/
def Instr.bodyLength : Instr → Nat
  | .blockRead .. => 6
  | .blockWrite .. => 6
  | .burstBegin .. => 4
  | .cancelItem .. => 4
  | .closeSlot .. => 1
  | .configureStore .. => 3
  | .delete .. => 4
  | .develop .. => 15
  | .fetchNotices .. => 1
  | .grantExtents _ _ count _ => 2 + 8 * count.toNat
  | .hold .. => 4
  | .itemResult .. => 5
  | .lensState .. => 9
  | .listShots .. => 5
  | .loadTone _ _ _ count _ => 5 + count.toNat
  | .noticeClasses .. => 4
  | .openSlot .. => 1
  | .precapture .. => 3
  | .protect .. => 5
  | .readProof .. => 4
  | .readRaw .. => 4
  | .rearmAutosend .. => 1
  | .retryCard .. => 5
  | .sendShot .. => 6
  | .setDevelop .. => 9
  | .setFocus .. => 14
  | .setParams .. => 16
  | .setRule .. => 15
  | .setTags .. => 9
  | .setZones .. => 336
  | .shoot .. => 1
  | .shotInfo .. => 4
  | .slotFull .. => 1
  | .unhold .. => 4
  | .waiveCard .. => 5
  | .watch .. => 1
  | _ => 0

/-- A request passes step 3 of R188: its body has the length its operands make and at most 2048 bytes, and its
DATA-follows flag is set on BLOCK_WRITE alone (R187). -/
def Instr.bodyRight (c : Instr) (r : Request) (h : Header) : Bool :=
  h.bodyLen.toNat == c.bodyLength && c.bodyLength ≤ 2048 && h.flags.getLsbD 0 == (r == .blockWrite)

/-- The ports a request may arrive on, as the Ports line of its own rule names them. -/
def Machine.Request.ports : Request → List Port
  | .blockRead => [.body]
  | .blockWrite => [.body]
  | .burstBegin => [.body]
  | .burstEnd => [.body]
  | .cancelItem => [.tether]
  | .closeSession => [.tether]
  | .closeSlot => [.body]
  | .configureStore => [.body]
  | .delete => [.body]
  | .develop => [.body, .tether]
  | .fetchNotices => [.body, .tether, .lens]
  | .getStatus => [.body, .tether]
  | .getZoneMap => [.body]
  | .grantExtents => [.body]
  | .hold => [.body]
  | .identify => [.body, .tether, .lens]
  | .itemResult => [.tether]
  | .lensState => [.lens]
  | .listShots => [.body, .tether]
  | .loadTone => [.body]
  | .noticeClasses => [.body]
  | .openSession => [.tether]
  | .openSlot => [.body]
  | .precapture => [.body]
  | .protect => [.body]
  | .readProof => [.body]
  | .readRaw => [.body]
  | .rearmAutosend => [.body, .tether]
  | .retryCard => [.body]
  | .sendShot => [.body, .tether]
  | .setDevelop => [.body]
  | .setFocus => [.body]
  | .setParams => [.body]
  | .setRule => [.body]
  | .setTags => [.body, .tether]
  | .setZones => [.body]
  | .shoot => [.body]
  | .shotInfo => [.body, .tether]
  | .slotFull => [.body]
  | .takeNext => [.tether]
  | .unhold => [.body]
  | .unwatch => [.lens]
  | .waiveCard => [.body]
  | .watch => [.lens]

end Sys2Proof

namespace Sys2Proof.Machine

/-- A request reaches its owner: steps 2 and 3 of R188, and the session check of R158. -/
def reachesOwner (c : Instr) (h : Header) (s : State) : Prop :=
  ∃ r, c.asRequest = some (r, h) ∧ granted r h.port = true ∧ c.bodyRight r h = true
    ∧ (h.port = .tether → s.ttc.attached = false → sessionFree r = true)

/-- The state in which the owner meets the request: from the tether port of an ATTACHED session, with the silence timer
started anew (R159). -/
def State.atOwner (s : State) (h : Header) : State :=
  if h.port = .tether ∧ s.ttc.attached = true then { s with ttc := { s.ttc with silence := some (s.ttc.silenceLimit * 1000) } }
  else s

/-- A refused request: a response with its kind plus 0x80, its tag, the result and an empty body, and nothing else (R186). -/
def State.refused (s : State) (r : Request) (h : Header) (x : Result) : State :=
  s.send h.port (.response (BitVec.ofNat 8 (r.code + 128)) h.tag x false [])

/-- An answered request: the same with result OK and a body (R186). -/
def State.answered (s : State) (r : Request) (h : Header) (body : List Byte) : State :=
  s.send h.port (.response (BitVec.ofNat 8 (r.code + 128)) h.tag .ok false body)

/-! ## Time (R201, log 3) -/

/-- No timer of the part has run out: none stands at its end. -/
def nothingDue (s : State) : Bool :=
  (match s.siu.shoot with | some p => p.timer != some 0 | none => true) && s.ttc.silence != some 0
    && (match s.crw.slotA.op with | some o => !(o.issued && o.timer == 0) | none => true)
    && (match s.crw.slotB.op with | some o => !(o.issued && o.timer == 0) | none => true)
    && !s.thm.sampleDue

/-- The commands that agree with the counts of the timers: an expiry or a sample comes when its timer has run out, and a
millisecond passes only when none has (R201). An expiry or a sample that does not agree changes nothing; of ticks the meaning
does not ask it, and a sender that keeps the part's time sends no other. -/
def timely : Instr → State → Bool
  | .shotWaitExpiry, s => match s.siu.shoot with | some p => p.timer == some 0 | none => false
  | .silenceExpiry, s => s.ttc.silence == some 0
  | .cardStallExpiry i, s => match (s.slot i).op with | some o => o.issued && o.timer == 0 | none => false
  | .thermalSample .., s => s.thm.sampleDue
  | .timeBaseTick, s => nothingDue s
  | _, _ => true

/-! ## Rounding (R69) -/

/-- `q` is the rounded value of n / d: the nearest integer, and of two equally near the one farther from zero (R69). -/
def roundsTo (n : Int) (d : Nat) (q : Int) : Prop :=
  2 * (n - q * d).natAbs ≤ d ∧ (2 * (n - q * d).natAbs = d → n.natAbs < (q * d).natAbs)

/-! ## What follow-on work never touches -/

/-- The parts of the state that no release, no job, no send item, no card item and no rule evaluation changes: the waiting
commands, the DRAM, the SIU, the FE, the THM, the store's configuration, the develop settings and tables, the session, the
rules and the link error count, the slot policy, the operating parameters, the card-detect lines, the time base, the enables
and the lens port. -/
def State.followOnKeeps (s t : State) : Prop :=
  t.pending = s.pending ∧ t.dram = s.dram ∧ t.siu = s.siu ∧ t.fe = s.fe ∧ t.thm = s.thm
    ∧ t.fsc.configured = s.fsc.configured ∧ t.fsc.slabCount = s.fsc.slabCount ∧ t.fsc.mode = s.fsc.mode
    ∧ t.fsc.reserve = s.fsc.reserve
    ∧ t.cat.nextShot = s.cat.nextShot ∧ t.cat.clipLevel = s.cat.clipLevel ∧ t.cat.pressureYield = s.cat.pressureYield
    ∧ t.dve.settings = s.dve.settings ∧ t.dve.auto = s.dve.auto ∧ t.dve.tones = s.dve.tones
    ∧ t.ttc.attached = s.ttc.attached ∧ t.ttc.silence = s.ttc.silence ∧ t.ttc.silenceLimit = s.ttc.silenceLimit
    ∧ t.ttc.policy = s.ttc.policy ∧ t.ttc.rules = s.ttc.rules ∧ t.ttc.errors = s.ttc.errors
    ∧ t.ttc.threshold = s.ttc.threshold ∧ t.ttc.armed = s.ttc.armed
    ∧ t.crw.contentA = s.crw.contentA ∧ t.crw.contentB = s.crw.contentB ∧ t.crw.overflow = s.crw.overflow
    ∧ t.crw.stallLimit = s.crw.stallLimit ∧ (∀ i, (t.slot i).detect = (s.slot i).detect)
    ∧ t.ptc.timeBase = s.ptc.timeBase ∧ t.ptc.enables = s.ptc.enables ∧ t.ptc.lensQueue = s.ptc.lensQueue
    ∧ t.ptc.lensOut = s.ptc.lensOut

/-- The record of one shot changed, the records of every other shot as they are. -/
def State.withRecord (s : State) (n : Nat) (f : Record → Record) : State :=
  { s with cat := { s.cat with records := s.cat.records.map fun r => if r.shot = n then f r else r } }

/-- A new frame opened with the store's mode and the next frame number, and told to the FE, before the capture decision (R16,
R74). -/
def State.withNewFrame (s : State) : State :=
  let n := (s.siu.frameCounter + 1) % 4294967296
  { s with
    siu := { s.siu with
      frameCounter := n
      frame := some { number := n, mode := s.fsc.mode, nextLine := 0, obSum := 0, bl := none, framingFault := false,
                      capture := none } }
    fe := { s.fe with collectFrame := some n, collect := List.replicate 48 none } }

/-- The new frame taken as shot or as pre-capture frame: the first slabs of the free list its chain, its record at the tail of
the catalog (R7, R33, R36, R40, R41). -/
def State.withFrameTaken (s : State) (kind : CaptureKind) (m : Mode) : State :=
  let n := (s.siu.frameCounter + 1) % 4294967296
  let chain := s.fsc.freeList.take m.rawSlabs
  { s.withNewFrame with
    fsc := { s.fsc with freeList := s.fsc.freeList.drop m.rawSlabs }
    siu := { s.withNewFrame.siu with
      frame := some { number := n, mode := some m, nextLine := 0, obSum := 0, bl := none, framingFault := false,
                      capture := some { kind := kind, shot := s.cat.nextShot, chain := chain } } }
    cat := { s.cat with
      nextShot := s.cat.nextShot + 1
      records := s.cat.records ++
        [{ shot := s.cat.nextShot, frame := n, time := s.ptc.timeBase, mode := m, kind := kind, mark := .none,
           state := .exposing, raw := some chain, bl := none, clip := s.cat.clipLevel, truncated := false,
           focus := .pending, snapshot := s.dve.settings, proofState := .none, proof := none, tags := 0, rating := 0,
           guarded := false, hold := false, reqA := .notRequired, reqB := .notRequired, markRaw := .none,
           markProof := .none, rawPins := 0, proofPins := 0, deleteTag := none }] } }

/-- Ring members discarded (R35, R49, R10): those still EXPOSING are marked DISCARD; those that are PROVISIONAL are gone, and their
raws are free, or released and waiting while an access to them runs. -/
def State.withDiscarded (s : State) (gone : List Nat) : State :=
  let leaves := fun (r : Record) => gone.contains r.shot && r.state == .provisional
  let mark := fun (r : Record) => if gone.contains r.shot = true then { r with mark := .discard } else r
  let raws := (s.cat.records.filter leaves).filterMap Record.raw
  { s with
    fsc := { s.fsc with freeList := s.fsc.freeList ++ (raws.filter fun c => !s.chainInUse c).flatten
                        releasing := s.fsc.releasing ++ raws.filter fun c => s.chainInUse c }
    cat := { s.cat with records := (s.cat.records.filter fun r => !leaves r).map mark } }

/-- A record that becomes STORED is wanted by slot A alone, and its item waits there: raws go to slot A, which is not IDLE, and not
to slot B; no rule acts, and no job is made (R48, R139). -/
def State.onlySlotAWaits (s : State) : Prop :=
  s.crw.contentA = true ∧ s.crw.contentB = false ∧ s.crw.slotA.state ≠ .idle ∧ s.dve.auto = false
    ∧ (s.ttc.attached = false ∨ s.ttc.armed = false)

/-- The ring promoted where slot A alone waits for what is STORED (R35, R37, R48): the PROVISIONAL members are STORED, each with its
item in slot A's queue and a SHOT_STORED notice, in shot-number order; those still EXPOSING are marked PROMOTE. -/
def State.withPromoted (s : State) : State :=
  let ready := s.cat.records.filter fun r => r.inRing && r.state == .provisional
  (ready.map fun r => Notice.shotStored r.shot r.frame r.mode r.kind r.truncated).foldl (fun t n => t.offer .body n)
    { s with
      crw := { s.crw with slotA := { s.crw.slotA with
        queue := s.crw.slotA.queue ++ ready.map fun r => { shot := r.shot, mode := r.mode } } }
      cat := { s.cat with records := s.cat.records.map fun r =>
        if r.inRing = true then
          if r.state = .provisional then { r with state := .stored, reqA := .queued } else { r with mark := .promote }
        else r } }

/-- The session over, its timer stopped, nothing else done yet (R160). -/
def State.withoutSession (s : State) : State := { s with ttc := { s.ttc with attached := false, silence := none } }

/-- A SENDING item back at READY, its transfer phase cleared (R160, R172). -/
def SendItem.back (i : SendItem) : SendItem := { i with state := .ready, transfer := none, cut := .clear, cancelTag := none }

/-- The send queue without the items of a serial. -/
def State.queueWithout (s : State) (serial : Nat) : List SendItem := s.ttc.queue.filter fun x => x.serial != serial

/-- The accesses that stay when the frame in flight of an item's transfer is abandoned: its read of the content ends with the
frame (R160, R61, log 9). -/
def State.readsWithout (s : State) (i : SendItem) : List Access :=
  match i.transfer with
  | some t => if t.awaiting then s.fsc.accesses else s.fsc.accesses.filter fun a => !(a.user == .tether && a.chain == t.chain)
  | none => s.fsc.accesses

/-- A send item gone from the queue: its shot's mark for its content, and its pin released (R166, R53). -/
def State.itemGone (s : State) (i : SendItem) (m : TetherMark) : State :=
  State.withRecord { s with ttc := { s.ttc with queue := s.queueWithout i.serial } } i.shot fun x => match i.content with
    | .raw => { x with rawPins := x.rawPins - 1, markRaw := m }
    | .proof => { x with proofPins := x.proofPins - 1, markProof := m }

/-- The stream of an item stopped: its frame in flight is abandoned, and its read of the content is over (R160, log 9). -/
def State.streamStopped (s : State) (i : SendItem) : State :=
  match i.transfer with
  | some t =>
    if t.awaiting then s
    else endAccess .tether t.chain { s with ptc := { s.ptc with tetherOut := s.ptc.tetherOut.filter fun m => !isFrame t.tag t.next m } }
  | none => s

/-- A cut SENDING item ended without its ABORTED frame (R160, R173): DROPPED, with ITEM_ABORTED where a deletion cut it, the answer of
an outstanding CANCEL_ITEM, and the test of its record. -/
def State.cutItemEnded (s : State) (i : SendItem) : State :=
  let gone := (s.streamStopped i).itemGone i .dropped
  let told := if i.cut = .delete then
      gone.offer .tether (.itemAborted i.serial i.shot i.content (match i.transfer with | some t => t.next | none => 0))
    else gone
  testRelease i.shot (match i.cancelTag with
    | some tag => told.send .tether (.response 0x85 tag .ok false [])
    | none => told)

/-- What entry into DETACHED does to the queue (R160). Under DROP it ends empty. Under KEEP a SENDING item that is not cut moves
to the head as READY, a cut one leaves, every other item keeps its place, and with no cut item nothing but the TTC and the
ports changes, and the accesses of the store, where a read ends. -/
def State.detachesTo (s t : State) : Prop :=
  State.followOnKeeps s.withoutSession t
    ∧ (s.ttc.policy = .drop → t.ttc.queue = [])
    ∧ (s.ttc.policy = .keep → s.sendingItem = none → t.ttc = s.withoutSession.ttc ∧ t.cat = s.cat ∧ t.fsc = s.fsc
        ∧ t.dve = s.dve ∧ t.crw = s.crw)
    ∧ ∀ i, s.ttc.policy = .keep → s.sendingItem = some i →
        (i.cut = .clear → t.ttc = { s.withoutSession.ttc with queue := i.back :: s.queueWithout i.serial } ∧ t.cat = s.cat
          ∧ t.crw = s.crw
          ∧ (s.fsc.releasing = [] → t.fsc = { s.fsc with accesses := s.readsWithout i } ∧ t.dve = s.dve))
        ∧ (i.cut ≠ .clear → t.ttc.queue = s.queueWithout i.serial)

/-! ## Laws -/

/-- The law of a body or tether queue (R190): at most C entries; an OVERRUN is the last entry, with a lost count of
1..65,535; without one there are fewer than C. -/
def queueLaw (c : Nat) (q : List Notice) : Prop :=
  q.length ≤ c ∧ (∀ n ∈ q.dropLast, n.isOverrun = false) ∧ (q.any Notice.isOverrun = false → q.length < c)
    ∧ ∀ n ∈ q, ∀ k, n = .overrun k → 1 ≤ k ∧ k ≤ 65535

/-- The law of the notice queues (R190, R102). -/
def noticeLaw (s : State) : Prop :=
  queueLaw 32 s.ptc.bodyQueue ∧ queueLaw 32 s.ptc.tetherQueue
    ∧ s.ptc.lensQueue.length ≤ 1 ∧ ∀ n ∈ s.ptc.lensQueue, n.isFocusResult = true

/-- The catalog's order (R68): shot numbers strictly rising, each at least 1 and below the next shot number; at most 256
records; the next shot number at most 4,294,967,296. -/
def catalogLaw (s : State) : Prop :=
  (s.cat.records.map Record.shot).Pairwise (· < ·) ∧ (∀ r ∈ s.cat.records, 1 ≤ r.shot ∧ r.shot < s.cat.nextShot)
    ∧ s.cat.records.length ≤ 256 ∧ 1 ≤ s.cat.nextShot ∧ s.cat.nextShot ≤ 4294967296

/-- The link error law (R174): the count lies in 0..threshold, and auto-send is SUSPENDED whenever it equals it. -/
def linkLaw (s : State) : Prop :=
  1 ≤ s.ttc.threshold ∧ s.ttc.threshold ≤ 31 ∧ s.ttc.errors ≤ s.ttc.threshold
    ∧ (s.ttc.errors = s.ttc.threshold → s.ttc.armed = false)

/-- The send queue (R177, R166, R159): at most 64 items, one per shot and content, serials distinct and in range; at most one
SENDING, and none while DETACHED; the silence timer runs exactly while ATTACHED. -/
def sendLaw (s : State) : Prop :=
  s.ttc.queue.length ≤ 64 ∧ (s.ttc.queue.map fun i => (i.shot, i.content)).Nodup ∧ (s.ttc.queue.map SendItem.serial).Nodup
    ∧ (∀ i ∈ s.ttc.queue, 1 ≤ i.serial ∧ i.serial ≤ 4294967295) ∧ 1 ≤ s.ttc.nextSerial ∧ s.ttc.nextSerial ≤ 4294967295
    ∧ (s.ttc.queue.filter fun i => i.state == .sending).length ≤ 1
    ∧ (s.ttc.attached = false → ∀ i ∈ s.ttc.queue, i.state ≠ .sending) ∧ s.ttc.silence.isSome = s.ttc.attached

/-- The capture engine (R21, R25, R28, R29, R34, R35, R36, R38, R182): a SHOOT is pending exactly in SINGLE_PENDING; an
UNCONFIGURED store has the engine IDLE and pre-capture DISARMED, and a frame without a mode is not taken; the shortage flag
stands in BURST alone; the SIU's thermal state is the part's; away from NORMAL pre-capture is DISARMED, and in HOT there is no
burst; the settings lie in their ranges; the frame in progress has the counter's number; the ring holds at most as many
shots as its depth says, and none while pre-capture is DISARMED. -/
def captureLaw (s : State) : Prop :=
  (s.siu.engine = .singlePending ↔ s.siu.shoot.isSome = true)
    ∧ (s.fsc.configured = false → s.siu.engine = .idle ∧ s.siu.pre.armed = false)
    ∧ (∀ f, s.siu.frame = some f → f.number = s.siu.frameCounter ∧ (f.mode = none → f.capture = none))
    ∧ (s.siu.burst.shortage = true → s.siu.engine = .burst)
    ∧ s.siu.thermal = s.thm.part
    ∧ (s.siu.thermal ≠ .normal → s.siu.pre.armed = false) ∧ (s.siu.thermal = .hot → s.siu.engine ≠ .burst)
    ∧ 1 ≤ s.siu.burst.divisor ∧ s.siu.burst.divisor ≤ 16 ∧ s.siu.burst.maximum ≤ 999
    ∧ s.siu.pre.depth ≤ 24 ∧ 1 ≤ s.siu.pre.divisor ∧ s.siu.pre.divisor ≤ 16 ∧ s.siu.waitLimit ≤ 5000
    ∧ s.ring.length ≤ s.siu.pre.depth ∧ (s.siu.pre.armed = false → s.ring = [])

/-- A job that is the engine's current one (R111). -/
def Job.isCurrent (j : Job) : Bool := j.state == .running || j.state == .waitSlabs

/-- The number of pixels of so many stripes of a proof of a mode and scale (R121, R126). -/
def proofPixels (m : Mode) (sc : Scale) (stripes : Nat) : Nat := stripes * (sc.stripeRows * sc.columns m)

/-- The develop engine (R110, R111, R116, R117, R123, R128, R131): at most 32 jobs, one per shot, with distinct numbers in range; at
most one current job, and per class at most one that is current or SUSPENDED; progress is held exactly by the RUNNING and the
SUSPENDED ones; the cancel mark stands on a RUNNING job alone; under HOT no job is current, under WARM no NORMAL one; a
thermal state waits to be applied only while a job is RUNNING; the stripes that are done give the partial histogram's sum, in 64
bins, and bound the partial clip count. -/
def developLaw (s : State) : Prop :=
  s.dve.jobs.length ≤ 32 ∧ (s.dve.jobs.map Job.shot).Nodup ∧ (s.dve.jobs.map Job.number).Nodup
    ∧ (∀ j ∈ s.dve.jobs, j.number ≤ 65535) ∧ s.dve.nextJob ≤ 65535
    ∧ (s.dve.jobs.filter Job.isCurrent).length ≤ 1
    ∧ (∀ c, (s.dve.jobs.filter fun j => j.cls == c && (j.isCurrent || j.state == .suspended)).length ≤ 1)
    ∧ (∀ j ∈ s.dve.jobs, j.progress.isSome = true ↔ j.state = .running ∨ j.state = .suspended)
    ∧ (∀ j ∈ s.dve.jobs, j.cancel = true → j.state = .running)
    ∧ (∀ j ∈ s.dve.jobs, j.isCurrent = true → s.dve.applied ≠ .hot ∧ (s.dve.applied = .warm → j.cls = .urgent))
    ∧ (s.dve.pendingThermal.isSome = true → ∃ j ∈ s.dve.jobs, j.state = .running)
    ∧ (∀ j ∈ s.dve.jobs, ∀ p, j.progress = some p →
        p.histogram.length = 64 ∧ p.histogram.sum = proofPixels j.mode j.params.scale p.next
          ∧ p.clipCount ≤ p.next * (32 * quadColumns j.mode))

/-- One slot (R132, R133, R141 to R145, R147): at most 32 extents in the pool and 4 block requests; the extents of the pool and
the fragments of the writing item are pairwise disjoint, none empty, none past the last block address; the writing item has 1..8
fragments that cover its length, and a chunk still to go; an item is written exactly in WRITING; the slot is ABSENT exactly
while its line is low; a pool is held only where items are taken; full-pending stands in WRITING and FULL alone; a slot that
is not open holds no block request and no operation; a chunk is in flight only for a writing item, a block operation only for
a block request. -/
def Slot.law (x : Slot) : Prop :=
  x.pool.length ≤ 32 ∧ x.blocks.length ≤ 4
    ∧ disjointExtents x.taken = true ∧ (∀ e ∈ x.taken, 1 ≤ e.count ∧ e.first + e.count ≤ 4294967296)
    ∧ (∀ w ∈ x.writing, 1 ≤ w.fragments.length ∧ w.fragments.length ≤ 8
        ∧ (w.fragments.map Extent.count).sum = w.item.mode.itemBlocks ∧ w.next < w.item.mode.itemChunks)
    ∧ (x.state = .writing ↔ x.writing.isSome = true) ∧ (x.state = .absent ↔ x.detect = false)
    ∧ (x.pool ≠ [] → x.takesItems = true) ∧ (x.fullPending = true → x.state = .writing ∨ x.state = .full)
    ∧ (x.state.isOpen = false → x.blocks = [] ∧ x.op = none)
    ∧ ∀ o ∈ x.op, (o.kind = .chunk → x.writing.isSome = true) ∧ (o.kind ≠ .chunk → x.blocks ≠ [])

/-- Both slots. -/
def slotLaw (s : State) : Prop := (s.slot .a).law ∧ (s.slot .b).law

/-- Every slab that is anywhere: on the free list, in a chain that waits for its last access, in a raw, in a proof, in the chain
of a job that is not done. -/
def State.allSlabs (s : State) : List Nat :=
  s.fsc.freeList ++ s.fsc.releasing.flatten
    ++ s.cat.records.flatMap (fun r => r.raw.getD [] ++ (match r.proof with | some p => p.chain | none => []))
    ++ s.dve.jobs.flatMap (fun j => match j.progress with | some p => p.chain | none => [])

/-- The store (R13): every slab number of the store stands once, on the free list or in one chain, and no other does; an
UNCONFIGURED store has no slabs. -/
def storeLaw (s : State) : Prop :=
  s.allSlabs.Perm (List.range s.fsc.slabCount) ∧ (s.fsc.configured = false → s.fsc.slabCount = 0)

/-- The number of send items that name a content of a shot (R53). -/
def State.naming (s : State) (n : Nat) (c : Content) : Nat :=
  (s.ttc.queue.filter fun i => i.shot == n && i.content == c).length

/-- A record and what refers to it (R42, R45, R46, R53, R54, R68, R128, R139): its pins are the send items that name the content, and
one for the hold; a raw that is gone leaves no open card requirement; a record that is not yet STORED has its raw, no proof, no
hold and no requirement; a STORED one has its proof PENDING exactly while it has a job, and DONE only with a proof; a done proof's
histogram has 64 bins and sums to the proof's pixel count, and its clip count is at most the quad count; a requirement is QUEUED
exactly while an item of the shot is in the slot's queue, WRITING exactly while the slot writes it. -/
def recordLaw (s : State) (r : Record) : Prop :=
  r.rawPins = s.naming r.shot .raw + r.hold.toNat ∧ r.proofPins = s.naming r.shot .proof + r.hold.toNat
    ∧ (r.raw = none → r.reqA.settled = true ∧ r.reqB.settled = true)
    ∧ (r.state = .exposing ∨ r.state = .provisional →
        r.raw ≠ none ∧ r.proof = none ∧ r.proofState = .none ∧ r.hold = false ∧ r.reqA = .notRequired ∧ r.reqB = .notRequired)
    ∧ (r.state = .stored → (r.proofState = .pending ↔ ∃ j ∈ s.dve.jobs, j.shot = r.shot) ∧ (r.proofState = .done → r.proof ≠ none))
    ∧ (∀ p, r.proof = some p →
        p.histogram.length = 64 ∧ p.histogram.sum = proofPixels r.mode p.params.scale r.mode.stripes
          ∧ p.clipCount ≤ r.mode.quads)
    ∧ (∀ i, (r.req i = .queued ↔ ∃ x ∈ (s.slot i).queue, x.shot = r.shot)
        ∧ (r.req i = .writing ↔ ∃ w ∈ (s.slot i).writing, w.item.shot = r.shot))

/-- What refers to a record finds it (R53, R68, R110, R130, R139, R177): a job one with its raw, STORED or, once the job is
marked for cancellation, DELETING; a send item one with the content it names, STORED or, for a SENDING item that the deletion has
cut, DELETING; a card item one with its raw. A queue of card items has at most 256, one per shot. -/
def referenceLaw (s : State) : Prop :=
  (∀ j ∈ s.dve.jobs, ∃ r ∈ s.cat.records, r.shot = j.shot ∧ r.mode = j.mode ∧ r.raw ≠ none
      ∧ r.state = if j.cancel then .deleting else .stored)
    ∧ (∀ i ∈ s.ttc.queue, ∃ r ∈ s.cat.records, r.shot = i.shot
        ∧ (r.state = if i.cut = .delete then .deleting else .stored) ∧ (i.cut = .delete → i.state = .sending)
        ∧ (i.content = .raw → r.raw ≠ none)
        ∧ (i.content = .proof → if i.state = .waitingProof then r.proofState = .pending else r.proof ≠ none))
    ∧ ∀ k, (s.slot k).queue.length ≤ 256 ∧ ((s.slot k).queue.map CardItem.shot).Nodup
        ∧ ∀ x ∈ (s.slot k).queue ++ ((s.slot k).writing.map WritingItem.item).toList,
            ∃ r ∈ s.cat.records, r.shot = x.shot ∧ r.mode = x.mode ∧ r.raw ≠ none

/-- The books of the part: the catalog, the send queue, the develop engine, the slots and the store keep their own laws, and agree
with each other on every shot. -/
def booksLaw (s : State) : Prop :=
  catalogLaw s ∧ sendLaw s ∧ developLaw s ∧ slotLaw s ∧ storeLaw s ∧ referenceLaw s ∧ ∀ r ∈ s.cat.records, recordLaw s r

/-- A lens state in its ranges (R72). -/
def Lens.inRange (l : Lens) : Prop :=
  l.position ≤ 16383 ∧ 1 ≤ l.kc ∧ l.kc ≤ 65535 ∧ l.travelMin ≤ l.travelMax ∧ l.travelMax ≤ 16383

/-- The FE (R70, R72, R74, R88, R92, R93, R95, R96): 48 zones and 48 places for packets of 64 samples; the lens state and the
parameters in their ranges; at most 4 history entries; counts in 0..15; the previous prediction a lens position; a lens
state and a watch only while the lens-present line is high. -/
def focusLaw (s : State) : Prop :=
  s.fe.zones.length = 48 ∧ (∀ z ∈ s.fe.zones, z.contrastFloor ≤ 262143 ∧ z.confidenceFloor ≤ 4095)
    ∧ s.fe.collect.length = 48 ∧ (∀ p, some p ∈ s.fe.collect → p.left.length = 64 ∧ p.right.length = 64)
    ∧ (∀ l, s.fe.lens = some l → l.inRange ∧ s.fe.lensPresent = true)
    ∧ (∀ x, s.fe.inFlight = some x → x.zones.length = 48 ∧ x.packets.length = 48 ∧ ∀ l, x.lens = some l → l.inRange)
    ∧ s.fe.params.far ≤ 16383 ∧ s.fe.params.near ≤ 16383 ∧ s.fe.params.eIn ≤ s.fe.params.eOut ∧ s.fe.params.eOut ≤ 32767
    ∧ 1 ≤ s.fe.params.m ∧ s.fe.params.m ≤ 15 ∧ 1 ≤ s.fe.params.n ∧ s.fe.params.n ≤ 15 ∧ s.fe.params.lead ≤ 8
    ∧ 1 ≤ s.fe.params.trackLoss ∧ s.fe.params.trackLoss ≤ 15
    ∧ s.fe.history.length ≤ 4 ∧ s.fe.noSelection ≤ 15 ∧ s.fe.inCount ≤ 15 ∧ s.fe.outCount ≤ 15
    ∧ (∀ p, s.fe.previous = some p → 0 ≤ p ∧ p ≤ 16383)
    ∧ (s.fe.watch ≠ .none → s.fe.lensPresent = true)

end Sys2Proof.Machine
end

