-- ==== Sys2Proof/Certificates/Slice0/Obligations.lean ====
section
/-! DEFINITION. The statements for the provers, in the order of OBLIGATIONS.json. Each docstring names the rules of spec/ a statement rests on,
and says where a clause is the model's choice. -/

open Sys2Proof Sys2Proof.Machine

/-! ## The queue of commands, reset, the gate -/

/-- A step takes the command at the front of the queue and carries it out on the state with the queue's rest. With no command
waiting the part stays as it is: the model's choice (log 2). -/
def Obligations.StepRunsFrontCommand : Prop :=
  (∀ (c : Instr) (rest : List Instr) (s : State), s.pending = c :: rest → step s = exec c { s with pending := rest })
    ∧ ∀ s : State, s.pending = [] → step s = .next s

/-- The values that the tables of state give after the reset line (R2, R15, R22, R25, R39, R61, R70, R72, R74, R88, R92 to R100,
R106, R108, R110, R132, R138, R156, R162, R178, R191, R201). That both slots are ABSENT with their card-detect lines low rests
on a choice of the model: in `State.reset` no card is in a slot, where R132 makes a slot PRESENT when its line is high (log 7).
-/
def Obligations.ResetValues : Prop :=
  let s := State.reset
  s.fsc.configured = false ∧ s.fsc.slabCount = 0 ∧ s.fsc.mode = none ∧ s.fsc.freeList = [] ∧ s.fsc.reserve = 38
    ∧ s.siu.frameCounter = 0 ∧ s.siu.frame = none ∧ s.siu.syncFaults = 0 ∧ s.siu.lastBl = none ∧ s.siu.engine = .idle
    ∧ s.siu.shoot = none ∧ s.siu.waitLimit = 1000 ∧ s.siu.thermal = .normal
    ∧ s.siu.burst.divisor = 1 ∧ s.siu.burst.maximum = 0 ∧ s.siu.burst.focus = false ∧ s.siu.burst.frames = 0
    ∧ s.siu.burst.taken = 0 ∧ s.siu.burst.skips = 0 ∧ s.siu.burst.shortage = false
    ∧ s.siu.pre.armed = false ∧ s.siu.pre.depth = 0 ∧ s.siu.pre.divisor = 1 ∧ s.siu.pre.frames = 0
    ∧ s.cat.records = [] ∧ s.cat.nextShot = 1 ∧ s.cat.clipLevel = 16000 ∧ s.cat.pressureYield = true
    ∧ s.fe.zones = List.replicate 48 { active := false, contrastFloor := 2000, confidenceFloor := 64 }
    ∧ s.fe.lens = none ∧ s.fe.collectFrame = none ∧ s.fe.collect = List.replicate 48 none ∧ s.fe.inFlight = none
    ∧ s.fe.overruns = 0 ∧ s.fe.history = [] ∧ s.fe.previous = none ∧ s.fe.noSelection = 0 ∧ s.fe.locked = false
    ∧ s.fe.inCount = 0 ∧ s.fe.outCount = 0 ∧ s.fe.latest = none ∧ s.fe.watch = .none
    ∧ s.fe.params = { mode := .near, far := 0, near := 16383, eIn := 8, eOut := 24, m := 2, n := 3, lead := 0,
                      policy := .clamp, trackLoss := 5 }
    ∧ s.dve.settings = { wr := 1024, wg := 1024, wb := 1024, tone := 0, scale := .half } ∧ s.dve.auto = false
    ∧ s.dve.tones.length = 4
    ∧ (∀ t ∈ s.dve.tones, t.length = 4096 ∧ ∀ i, i < 4096 → t[i]? = some (BitVec.ofNat 8 (i / 16)))
    ∧ s.dve.jobs = [] ∧ s.dve.nextJob = 1 ∧ s.dve.applied = .normal ∧ s.dve.pendingThermal = none
    ∧ s.crw.slotA = { state := .absent, detect := false, fullPending := false, pool := [], queue := [], writing := none,
                      blocks := [], op := none, lastWasBlock := false }
    ∧ s.crw.slotB = s.crw.slotA ∧ s.crw.contentA = false ∧ s.crw.contentB = false ∧ s.crw.overflow = false
    ∧ s.crw.stallLimit = 1500
    ∧ s.ttc.attached = false ∧ s.ttc.silence = none ∧ s.ttc.silenceLimit = 10 ∧ s.ttc.policy = .keep ∧ s.ttc.queue = []
    ∧ s.ttc.rules = List.replicate 8 { enabled := false, flagMask := 0, flagValue := 0, anyOf := 0, minRating := 0,
                                        requireLock := false, content := .raw, scale := .quarter, maxClip := 1000,
                                        cls := .normal }
    ∧ s.ttc.nextSerial = 1 ∧ s.ttc.errors = 0 ∧ s.ttc.threshold = 8 ∧ s.ttc.armed = true ∧ s.ttc.drops = 0
    ∧ s.thm.part = .normal ∧ s.thm.die = { reading := none, invalid := false, state := .normal, hold := 0 }
    ∧ s.thm.stack = s.thm.die ∧ s.thm.sinceSample = 0
    ∧ s.ptc.timeBase = 0 ∧ s.ptc.bodyQueue = [] ∧ s.ptc.tetherQueue = [] ∧ s.ptc.lensQueue = [] ∧ s.ptc.read = none
    ∧ s.ptc.enables = { thermal := false, shortage := false, slotState := false, autosend := false }

/-- After the reset line, from any state: every block has the state of `State.reset`, a card in a slot makes it PRESENT, and
nothing is answered (R202, R134). That the DRAM keeps its contents, the two lines from outside their level and the waiting
commands their places is the model's reading (log 6, log 7, log 28). -/
def Obligations.ResetLine : Prop :=
  ∀ s : State, ∃ t, exec .resetLine s = .next t ∧ t.pending = s.pending ∧ t.dram = s.dram
    ∧ t.fsc = State.reset.fsc ∧ t.siu = State.reset.siu ∧ t.cat = State.reset.cat ∧ t.dve = State.reset.dve
    ∧ t.ttc = State.reset.ttc ∧ t.thm = State.reset.thm ∧ t.ptc = State.reset.ptc
    ∧ t.fe = { State.reset.fe with lensPresent := s.fe.lensPresent }
    ∧ t.crw.contentA = false ∧ t.crw.contentB = false ∧ t.crw.overflow = false ∧ t.crw.stallLimit = 1500
    ∧ ∀ i, t.slot i = { State.reset.slot i with detect := (s.slot i).detect,
                                                 state := if (s.slot i).detect then .present else .absent }

/-- The order of the gate (R188, R187, R158): a request is refused with NOT_PERMITTED exactly when its own rule does not name its
port; then with BAD_REQUEST for a body of another length than its operands make, or above 2048 bytes, or a wrong
DATA-follows flag; then, from the tether port of a DETACHED session, with NO_SESSION unless it is one of the four that R158
names. Nothing but the response changes. Every other request reaches its owner, and no refused one does: the other seven bits
of the flags byte, which R197 has at 0, are not read, which is the model's choice (log 14). The body length of DEVELOP (15,
log 12), and that of SET_TAGS and SET_RULE, whose masks are two bytes each (log 50), are the model's too. -/
def Obligations.TheGate : Prop :=
  ∀ (c : Instr) (r : Request) (h : Header) (s : State), c.asRequest = some (r, h) →
    (h.port ∉ r.ports → exec c s = .next (s.refused r h .notPermitted))
      ∧ (h.port ∈ r.ports → c.bodyRight r h = false → exec c s = .next (s.refused r h .badRequest))
      ∧ (h.port ∈ r.ports → c.bodyRight r h = true → h.port = .tether → s.ttc.attached = false → r ≠ .identify →
          r ≠ .openSession → r ≠ .closeSession → r ≠ .fetchNotices → exec c s = .next (s.refused r h .noSession))
      ∧ (reachesOwner c h s ↔ h.port ∈ r.ports ∧ c.bodyRight r h = true
          ∧ (h.port = .tether → s.ttc.attached = true ∨ r = .identify ∨ r = .openSession ∨ r = .closeSession
              ∨ r = .fetchNotices))

/-- A message of unknown kind is answered with kind 0x80 and BAD_REQUEST (R186, R188); a DATA frame that follows no BLOCK_WRITE is
discarded without a response (R187). The results have the codes of R189, the requests the kinds of R186, of which a few here. -/
def Obligations.OtherMessagesAndCodes : Prop :=
  (∀ p kind tag s, exec (.unknownKindMessage p kind tag) s = .next (s.send p (.response 0x80 tag .badRequest false [])))
    ∧ (∀ p f s, exec (.strayDataFrame p f) s = .next s)
    ∧ Result.ok.code = 0 ∧ Result.notPermitted.code = 1 ∧ Result.badRequest.code = 2 ∧ Result.busy.code = 3
    ∧ Result.notConfigured.code = 4 ∧ Result.catalogNotEmpty.code = 5 ∧ Result.notFound.code = 6 ∧ Result.notReady.code = 7
    ∧ Result.notHeld.code = 8 ∧ Result.protectedShot.code = 9 ∧ Result.tableBusy.code = 10 ∧ Result.developBusy.code = 11
    ∧ Result.proofBusy.code = 12 ∧ Result.queueFull.code = 13 ∧ Result.overlap.code = 14 ∧ Result.extentSmall.code = 15
    ∧ Result.poolFull.code = 16 ∧ Result.slotState.code = 17 ∧ Result.cardFault.code = 18 ∧ Result.thermal.code = 19
    ∧ Result.bufferFull.code = 20 ∧ Result.focusTimeout.code = 21 ∧ Result.noSession.code = 22 ∧ Result.itemOpen.code = 23
    ∧ Result.noItem.code = 24
    ∧ Request.blockRead.code = 1 ∧ Request.getStatus.code = 12 ∧ Request.openSlot.code = 23 ∧ Request.setRule.code = 34
    ∧ Request.watch.code = 44

/-- Every request on the wire reads back as itself: its encoding, with anything after it, is decoded to the command and what
stood after it (R186, R187, R188, R197). A BLOCK_WRITE is taken with the DATA frame of its tag that follows it (R187; that the
two come as one command is the model's, log 34); one without is followed by something that is no DATA frame, and while its
announced frame has not wholly arrived nothing is taken. The 15-byte body of DEVELOP (log 12) and the two bytes of a mask of
16 flags (log 50) are the model's too. -/
def Obligations.MessagesReadBack : Prop :=
  (∀ (c : Instr) (r : Request) (h : Header) (bytes rest : List Byte), WellFormed c = true → c.asRequest = some (r, h) →
    h.bodyLen.toNat = c.bodyLength → Decode.encode c = some bytes →
    (∀ slot first count, c = .blockWrite h slot first count none →
      Decode.byteAt rest 0 ≠ 0xFF ∧ (h.flags.getLsbD 0 = true → rest ≠ [])) →
    (∀ slot first count f, c = .blockWrite h slot first count (some f) → f.tag = h.tag) →
    Decode.message h.port (bytes ++ rest) = some (c, rest))
  ∧ ∀ (h : Header) (slot : Byte) (first : Word) (count : Byte) (f : DataFrame) (bytes : List Byte) (k : Nat),
      h.bodyLen = 6 → h.flags.getLsbD 0 = true → f.tag = h.tag → f.payload.length < 4294967296 →
      Decode.encode (.blockWrite h slot first count none) = some bytes → k < (Decode.frameBytes f).length →
      Decode.message h.port (bytes ++ (Decode.frameBytes f).take k) = none

/-! ## Requests that only report -/

/-- R194. -/
def Obligations.IdentifyReturnsIdentity : Prop :=
  ∀ (h : Header) (s : State), h.bodyLen = 0 → h.flags.getLsbD 0 = false →
    exec (.identify h) s = .next ((s.atOwner h).answered .identify h
      [0x20, 0x07, 0x01, match h.port with | .body => 0x00 | .tether => 0x01 | .lens => 0x02])

/-- GET_STATUS changes nothing but to answer, with a body of 194 bytes whatever the state: the sections of the PTC, the
parameters, the FSC, the SIU, the CAT, the FE, the DVE, the slots A and B, the TTC and the THM in the order of R195, each with
its fields in the order given there (R2, R22, R25, R39, R72, R98, R106, R110, R132, R156, R184). A named value is its place in the
manual's list (R197). The field widths the manual leaves to the narrowest that fits (log 16), and the presence byte before a field
that can hold its all-ones pattern, with 0 for the value that is absent (log 17), are the model's. -/
def Obligations.StatusReport : Prop :=
  (∀ (h : Header) (s : State), reachesOwner (.getStatus h) h s →
    let bit := fun (b : Bool) => [(if b then 1 else 0 : Byte)]
    let ones := fun (n : Nat) (x : Option Nat) => le n (x.getD (256 ^ n - 1))
    let marked := fun (n : Nat) (x : Option Nat) => bit x.isSome ++ le n (x.getD 0)
    let job := s.dve.jobs.find? fun j => j.state == .running || j.state == .waitSlabs
    let running := job.filter fun j => j.state == .running
    let context := fun (c : Priority) => (s.dve.jobs.find? fun j => j.state == .suspended && j.cls == c).map Job.shot
    let slot := fun (x : Slot) => le 1 x.state.code ++ bit x.fullPending ++ le 1 x.pool.length
      ++ le 8 (x.pool.map Extent.count).sum ++ le 2 x.queue.length ++ marked 4 (x.writing.map fun w => w.item.shot)
      ++ ones 1 (x.writing.map WritingItem.next) ++ le 1 x.blocks.length
    let sensor := fun (x : Sensor) => (match x.reading with | some v => [1] ++ leInt 2 v | none => [0, 0, 0])
      ++ bit x.invalid ++ le 1 x.state.code ++ le 1 x.hold
    let ptc := le 4 s.ptc.timeBase ++ le 1 s.ptc.bodyQueue.length ++ le 1 s.ptc.tetherQueue.length
      ++ le 1 s.ptc.lensQueue.length ++ bit s.ptc.enables.thermal ++ bit s.ptc.enables.shortage
      ++ bit s.ptc.enables.slotState ++ bit s.ptc.enables.autosend
    let parameters := le 2 s.fsc.reserve ++ bit (!s.crw.contentA) ++ bit (!s.crw.contentB) ++ bit s.crw.overflow
      ++ bit s.cat.pressureYield ++ bit (s.ttc.policy == .drop) ++ le 2 s.ttc.silenceLimit ++ le 1 s.ttc.threshold
      ++ le 2 s.crw.stallLimit ++ le 2 s.siu.waitLimit ++ le 2 s.cat.clipLevel
    let fsc := bit s.fsc.configured ++ le 2 s.fsc.slabCount
      ++ (match s.fsc.mode with | some .full => [0] | some .crop => [1] | none => [0xFF])
      ++ le 2 s.fsc.freeList.length ++ le 2 s.fsc.reserve
    let siu := le 4 s.siu.frameCounter ++ le 2 s.siu.syncFaults ++ ones 2 s.siu.lastBl ++ le 1 s.siu.engine.code
      ++ bit s.siu.shoot.isSome ++ ones 1 (s.siu.shoot.map fun p => p.reason.code) ++ le 1 s.siu.burst.divisor
      ++ le 2 s.siu.burst.maximum ++ le 4 s.siu.burst.frames ++ le 2 s.siu.burst.taken ++ le 2 s.siu.burst.skips
      ++ bit s.siu.burst.shortage ++ bit (!s.siu.pre.armed) ++ le 1 s.siu.pre.depth ++ le 1 s.siu.pre.divisor
      ++ le 4 s.siu.pre.frames ++ le 2 s.siu.waitLimit
    let cat := le 2 s.cat.records.length ++ le 4 (s.cat.nextShot % 4294967296)
    let fe := bit s.fe.lens.isSome ++ ones 2 (s.fe.lens.map Lens.position) ++ marked 2 (s.fe.lens.map Lens.kc)
      ++ ones 2 (s.fe.lens.map Lens.travelMin) ++ ones 2 (s.fe.lens.map Lens.travelMax)
      ++ (match s.fe.lens with | some l => bit l.moving | none => [0xFF]) ++ le 2 s.fe.overruns ++ bit s.fe.locked
      ++ le 1 s.fe.inCount ++ le 1 s.fe.outCount ++ le 1 s.fe.history.length
      ++ marked 4 (s.fe.latest.map fun p => p.summary.frame)
    let dve := le 2 s.dve.settings.wr ++ le 2 s.dve.settings.wg ++ le 2 s.dve.settings.wb ++ le 1 s.dve.settings.tone
      ++ bit (s.dve.settings.scale == .quarter) ++ bit s.dve.auto ++ le 1 s.dve.jobs.length ++ marked 4 (job.map Job.shot)
      ++ marked 2 (job.map Job.number) ++ ones 1 (job.map fun j => j.state.code) ++ ones 1 (job.map fun j => j.cls.code)
      ++ ones 1 (running.bind fun j => j.progress.map Progress.next)
      ++ ones 1 (running.map fun j => match j.mode with | .full => 84 | .crop => 56)
      ++ marked 4 (context .urgent) ++ marked 4 (context .normal) ++ le 1 s.dve.applied.code
    let ttc := bit s.ttc.attached ++ le 1 s.ttc.queue.length ++ le 1 (s.ttc.queue.filter fun i => i.state == .ready).length
      ++ marked 4 (s.sendingItem.map SendItem.serial) ++ le 1 s.ttc.errors ++ le 1 s.ttc.threshold ++ bit (!s.ttc.armed)
      ++ le 2 s.ttc.drops
    let thm := le 1 s.thm.part.code ++ sensor s.thm.die ++ sensor s.thm.stack
    let body := ptc ++ parameters ++ fsc ++ siu ++ cat ++ fe ++ dve ++ slot s.crw.slotA ++ slot s.crw.slotB ++ ttc ++ thm
    exec (.getStatus h) s = .next ((s.atOwner h).answered .getStatus h body) ∧ body.length = 194)
  ∧ [Engine.idle, .singlePending, .burst].map Engine.code = [0, 1, 2]
  ∧ [Blocking.none, .focus, .space].map Blocking.code = [0, 1, 2]
  ∧ [JobState.queued, .waitSlabs, .running, .suspended].map JobState.code = [0, 1, 2, 3]
  ∧ [Priority.urgent, .normal].map Priority.code = [0, 1]
  ∧ [SlotState.absent, .present, .idle, .writing, .waitExtents, .full, .fault].map SlotState.code = [0, 1, 2, 3, 4, 5, 6]
  ∧ [Thermal.normal, .warm, .hot].map Thermal.code = [0, 1, 2]

/-- LIST_SHOTS lists, in the catalog's order, the first records from the operand on, at most as many as the operand clamped to
1..16, and the number of the next one or 0; 7 bytes for each record (R64). Nothing else changes. -/
def Obligations.ListShots : Prop :=
  ∀ (h : Header) (first : Word) (maximum : Byte) (s : State), reachesOwner (.listShots h first maximum) h s →
    ∃ listed rest body, s.cat.records.filter (fun r => first.toNat ≤ r.shot) = listed ++ rest
      ∧ listed.length = min (max 1 (min 16 maximum.toNat)) (listed.length + rest.length)
      ∧ body.length = 5 + 7 * listed.length
      ∧ body = BitVec.ofNat 8 listed.length :: (listed.flatMap fun r => le 4 r.shot ++ [BitVec.ofNat 8 r.state.code,
          if r.raw.isSome then 1 else 0, BitVec.ofNat 8 r.proofState.code])
          ++ (match rest with | r :: _ => le 4 r.shot | [] => [0, 0, 0, 0])
      ∧ exec (.listShots h first maximum) s = .next ((s.atOwner h).answered .listShots h body)

/-! ## The frame store -/

/-- CONFIGURE_STORE (R3): a slab count other than 1024 and 2048 or a mode that is neither FULL nor CROP is refused with
BAD_REQUEST; while records, jobs, an armed pre-capture or a released chain still being read exist, it is refused with
CATALOG_NOT_EMPTY; else the store is CONFIGURED with every slab on the free list in order, and nothing else changes. -/
def Obligations.ConfigureStore : Prop :=
  ∀ (h : Header) (slabs : Half) (mode : Byte) (s : State), reachesOwner (.configureStore h slabs mode) h s →
    (slabs ≠ 1024 ∧ slabs ≠ 2048 ∨ 1 < mode.toNat →
        exec (.configureStore h slabs mode) s = .next (s.refused .configureStore h .badRequest))
      ∧ (slabs = 1024 ∨ slabs = 2048 → mode.toNat ≤ 1 →
          s.cat.records ≠ [] ∨ s.dve.jobs ≠ [] ∨ s.siu.pre.armed = true ∨ s.fsc.releasing ≠ [] →
          exec (.configureStore h slabs mode) s = .next (s.refused .configureStore h .catalogNotEmpty))
      ∧ (slabs = 1024 ∨ slabs = 2048 → mode.toNat ≤ 1 → s.cat.records = [] → s.dve.jobs = [] → s.siu.pre.armed = false →
          s.fsc.releasing = [] → exec (.configureStore h slabs mode) s = .next (State.answered
            { s with fsc := { s.fsc with configured := true, slabCount := slabs.toNat,
                                          mode := some (if mode = 0 then .full else .crop),
                                          freeList := List.range slabs.toNat } } .configureStore h []))

/-- CHAIN_LAST_ACCESS_COMPLETION (R10, R11, R118): a chain that is not waiting to be released is left alone, the model's choice
(log 4); one that is, and that no frame, no stripe and no other chain's release holds up, joins the tail of the free list; a
job that waits for slabs claims the head of the list at once, if the claim leaves the capture reserve (R8). Which accesses hold a
chain up, and that the event ends those that stand, is the model's reading (log 9). -/
def Obligations.LastAccessReturnsChain : Prop :=
  ∀ (chain : List Nat) (s : State),
    (chain ∉ s.fsc.releasing → exec (.chainLastAccessCompletion chain) s = .next s)
      ∧ (s.fsc.releasing = [chain] →
          State.chainInUse { s with fsc := { s.fsc with accesses := [] } } chain = false →
          ((∀ j, s.currentJob = some j → j.state = .running) →
              exec (.chainLastAccessCompletion chain) s = .next { s with
                fsc := { s.fsc with freeList := s.fsc.freeList ++ chain, releasing := [],
                                     accesses := s.fsc.accesses.filter fun a => a.chain != chain } })
            ∧ ∀ j, s.currentJob = some j → j.state = .waitSlabs → s.fsc.configured = true →
                s.fsc.reserve + j.mode.proofSlabs j.params.scale ≤ s.fsc.freeList.length + chain.length →
                exec (.chainLastAccessCompletion chain) s = .next { s with
                  fsc := { s.fsc with freeList := (s.fsc.freeList ++ chain).drop (j.mode.proofSlabs j.params.scale),
                                       releasing := [], accesses := s.fsc.accesses.filter fun a => a.chain != chain }
                  dve := { s.dve with jobs := s.dve.jobs.map fun x =>
                    if x.shot = j.shot then
                      { x with state := .running,
                               progress := some { chain := (s.fsc.freeList ++ chain).take (j.mode.proofSlabs j.params.scale),
                                                  next := 0, clipCount := 0, histogram := List.replicate 64 0 } }
                    else x } })

/-- GET_ZONE_MAP and SHOT_INFO, byte by byte (R65, R103, R197, R198), and SET_PARAMS (R196). GET_ZONE_MAP answers with the
latest publication: present, its frame number, its NO_LENS and overrun flags, its selected zone or 0xFF, and state, P and Q of
each zone in turn; before any publication the flag is clear, the frame number 0, the zone none and each of the 48 entries
INACTIVE; how an absent P or Q is written is the model's (log 17), and so are the two flags of that case (log 49). SHOT_INFO of
a shot with no record is refused with NOT_FOUND, and of one with a record answered with its 80-byte shot info record: bytes 0 to
39 always; bytes 40 to 59 the focus record, 0 unless it is filled, 41 to 54 of it 0 without a selected zone; bytes 60 to 71 the
done proof, 0 while there is none; 0 to the end. SET_PARAMS with a choice outside its values is refused with BAD_REQUEST. Else
each owner takes its value, clamped; a link error count above the new threshold falls to it, and one that meets it suspends an
ARMED auto-send, with AUTOSEND_SUSPENDED to the tether port and, if its class is enabled, to the body port (R174). A lowered
reserve has a job that waits for slabs claim at once (R9, R118); else the store and the jobs stay. Nothing else changes but the
answer. -/
def Obligations.ReportsAndParameters : Prop :=
  (∀ (h : Header) (s : State), reachesOwner (.getZoneMap h) h s →
    let mark := fun (z : ZoneMark) => BitVec.ofNat 8 z.state.code
      :: ((match z.p with | some p => 1 :: leInt 2 p | none => [0, 0, 0])
        ++ (match z.q with | some q => le 2 q | none => [0xFF, 0xFF]))
    (s.fe.latest = none → exec (.getZoneMap h) s = .next (s.answered .getZoneMap h
        ([0, 0, 0, 0, 0, 0, 0, 0xFF] ++ (List.replicate 48 [0, 0, 0, 0, 0xFF, 0xFF]).flatten)))
      ∧ ∀ p, s.fe.latest = some p →
          let body := 1 :: le 4 p.summary.frame ++ [if p.summary.noLens then 1 else 0, if p.summary.overrun then 1 else 0,
            match p.summary.selection with | some w => BitVec.ofNat 8 w.zone | none => 0xFF] ++ p.map.flatMap mark
          exec (.getZoneMap h) s = .next (s.answered .getZoneMap h body) ∧ body.length = 8 + 6 * p.map.length)
    ∧ (∀ (h : Header) (shot : Word) (s : State), reachesOwner (.shotInfo h shot) h s →
        (s.record shot.toNat = none → exec (.shotInfo h shot) s = .next ((s.atOwner h).refused .shotInfo h .notFound))
          ∧ ∀ r, s.record shot.toNat = some r →
              let head := le 4 r.shot ++ le 4 r.frame ++ le 4 r.time ++ [BitVec.ofNat 8 r.mode.code, BitVec.ofNat 8 r.kind.code,
                BitVec.ofNat 8 r.mark.code, BitVec.ofNat 8 r.state.code] ++ le 2 r.tags.toNat ++ [BitVec.ofNat 8 r.rating,
                BitVec.ofNat 8 ((if r.raw.isSome then 1 else 0) + (if r.truncated then 2 else 0) + (if r.guarded then 4 else 0)
                  + (if r.hold then 8 else 0) + (if r.proof.isSome then 16 else 0))]
                ++ (match r.bl with | some v => le 2 v | none => [0xFF, 0xFF]) ++ le 2 r.clip
                ++ [BitVec.ofNat 8 r.reqA.code, BitVec.ofNat 8 r.reqB.code, BitVec.ofNat 8 r.markRaw.code,
                  BitVec.ofNat 8 r.markProof.code, BitVec.ofNat 8 r.rawPins, BitVec.ofNat 8 r.proofPins,
                  BitVec.ofNat 8 r.proofState.code, match r.focus with | .pending => 0 | .absent => 1 | .filled _ => 2]
                ++ le 2 r.snapshot.wr ++ le 2 r.snapshot.wg ++ le 2 r.snapshot.wb
                ++ [BitVec.ofNat 8 r.snapshot.tone, BitVec.ofNat 8 r.snapshot.scale.code]
              let focus : List Byte := match r.focus with
                | .filled f => (match f.selection with
                    | some w => [BitVec.ofNat 8 w.zone, BitVec.ofNat 8 ZoneState.valid.code] ++ leInt 2 w.p ++ le 2 w.q
                        ++ leInt 2 w.d ++ leInt 4 w.t ++ leInt 2 w.tPred ++ [BitVec.ofNat 8 w.flag.code]
                    | none => 0xFF :: List.replicate 14 0) ++ [if f.locked then 1 else 0] ++ le 2 f.lensPosition
                    ++ [BitVec.ofNat 8 f.negEdges, BitVec.ofNat 8 f.posEdges]
                | _ => List.replicate 20 0
              let proof : List Byte := match r.proof with
                | some p => [BitVec.ofNat 8 p.params.scale.code, BitVec.ofNat 8 p.params.tone] ++ le 2 p.params.wr
                    ++ le 2 p.params.wg ++ le 2 p.params.wb ++ le 4 p.clipCount
                | none => List.replicate 12 0
              exec (.shotInfo h shot) s = .next ((s.atOwner h).answered .shotInfo h
                  (head ++ focus ++ proof ++ List.replicate 8 0))
                ∧ head.length = 40 ∧ focus.length = 20 ∧ proof.length = 12)
    ∧ ∀ (h : Header) (o : ParamsOps) (s : State), reachesOwner (.setParams h o) h s →
        (1 < o.contentA.toNat ∨ 1 < o.contentB.toNat ∨ 1 < o.modeB.toNat ∨ 1 < o.yielding.toNat ∨ 1 < o.detach.toNat →
            exec (.setParams h o) s = .next (s.refused .setParams h .badRequest))
          ∧ (o.contentA.toNat ≤ 1 → o.contentB.toNat ≤ 1 → o.modeB.toNat ≤ 1 → o.yielding.toNat ≤ 1 → o.detach.toNat ≤ 1 →
              let v := min 512 o.reserve.toNat
              let limit := max 1 (min 31 o.threshold.toNat)
              let e := min s.ttc.errors limit
              let suspends := s.ttc.armed = true ∧ limit ≤ e
              ∃ t, exec (.setParams h o) s = .next t
                ∧ t.crw = { s.crw with contentA := o.contentA = 0, contentB := o.contentB = 0, overflow := o.modeB = 1,
                                       stallLimit := max 100 (min 5000 o.stall.toNat) }
                ∧ t.cat = { s.cat with pressureYield := o.yielding = 1, clipLevel := min 16383 o.clip.toNat }
                ∧ t.siu = { s.siu with waitLimit := min 5000 o.shotWait.toNat }
                ∧ t.ttc = { s.ttc with policy := if o.detach = 0 then .keep else .drop,
                                       silenceLimit := max 1 (min 60 o.silence.toNat),
                                       threshold := limit, errors := e, armed := s.ttc.armed && e < limit }
                ∧ t.ptc = { s.ptc with
                    tetherQueue := if suspends then offerTo 32 s.ptc.tetherQueue (.autosendSuspended e limit) else s.ptc.tetherQueue
                    bodyQueue := if suspends ∧ s.ptc.enables.autosend = true then
                      offerTo 32 s.ptc.bodyQueue (.autosendSuspended e limit) else s.ptc.bodyQueue
                    bodyOut := s.ptc.bodyOut ++ [.response 0xA1 h.tag .ok false []] }
                ∧ t.pending = s.pending ∧ t.dram = s.dram ∧ t.fe = s.fe ∧ t.thm = s.thm
                ∧ (s.fsc.reserve ≤ v ∨ (∀ j, s.currentJob = some j → j.state = .running) →
                    t.dve = s.dve ∧ t.fsc = { s.fsc with reserve := v })
                ∧ ∀ j, s.currentJob = some j → j.state = .waitSlabs → v < s.fsc.reserve →
                    let k := j.mode.proofSlabs j.params.scale
                    let begun : Progress := { chain := s.fsc.freeList.take k, next := 0, clipCount := 0,
                                              histogram := List.replicate 64 0 }
                    (s.fsc.configured = true → v + k ≤ s.fsc.freeList.length →
                        t.fsc = { s.fsc with reserve := v, freeList := s.fsc.freeList.drop k }
                          ∧ t.dve = { s.dve with jobs := s.dve.jobs.map fun x =>
                              if x.shot = j.shot then { x with state := .running, progress := some begun } else x })
                      ∧ (s.fsc.configured = false ∨ s.fsc.freeList.length < v + k → t.fsc = { s.fsc with reserve := v }
                          ∧ t.dve = { s.dve with jobs := s.dve.jobs.map fun x =>
                              if x.shot = j.shot then { x with state := .waitSlabs } else x }))

/-! ## Frames and lines -/

/-- FRAME_START (R15, R16, R17, R19, R20, R21, R31, R32, R74, R75): the counter rises by one and goes on at 0 after
4,294,967,295, a new frame with that number and the store's mode is in progress, and the FE collects its packets. With no frame
in progress and no candidate (the engine IDLE and pre-capture DISARMED, or the store UNCONFIGURED) the new frame is all that
changes. A frame in progress is ended first, as TRUNCATED. One with a mode takes its BL, which becomes the last BL; the rows of
the missing lines are filled with BL where it is taken; it counts one sync fault; awaits its raw completion if it is taken; and
its frame end starts a computation at the FE. One without a mode goes to the FE as TRUNCATED, and nothing is counted. A
computation that was in flight is published as overrun. A SHOOT with focus priority is not taken if the lock did not stand
before this event. That a frame which every line reached is TRUNCATED too, and counts a sync fault, is the model's reading of
R16 and R20 (log 44). -/
def Obligations.FrameStart : Prop :=
  (∀ s : State, s.siu.frame = none → s.fsc.mode = none ∨ s.siu.engine = .idle ∧ s.siu.pre.armed = false →
      exec .frameStart s = .next s.withNewFrame)
  ∧ ∀ s : State, ∃ t g, exec .frameStart s = .next t ∧ t.siu.frameCounter = (s.siu.frameCounter + 1) % 4294967296
    ∧ t.siu.frame = some g ∧ g.number = t.siu.frameCounter ∧ g.mode = s.fsc.mode ∧ g.nextLine = 0 ∧ g.obSum = 0
    ∧ g.bl = none ∧ g.framingFault = false
    ∧ (∀ p, s.siu.engine = .singlePending → s.siu.shoot = some p → p.focus = true → s.fe.locked = false → g.capture = none)
    ∧ t.fe.collectFrame = some t.siu.frameCounter ∧ t.fe.collect = List.replicate 48 none ∧ t.fe.zones = s.fe.zones
    ∧ t.fe.params = s.fe.params ∧ t.fe.lens = s.fe.lens
    ∧ t.pending = s.pending ∧ t.thm = s.thm ∧ t.ptc.timeBase = s.ptc.timeBase ∧ t.fsc.mode = s.fsc.mode
    ∧ t.fsc.configured = s.fsc.configured ∧ t.ttc.attached = s.ttc.attached
    ∧ (s.siu.frame = none → t.dram = s.dram ∧ t.siu.syncFaults = s.siu.syncFaults ∧ t.siu.ended = s.siu.ended
        ∧ t.siu.lastBl = s.siu.lastBl ∧ t.fe.inFlight = s.fe.inFlight ∧ t.fe.latest = s.fe.latest)
    ∧ ∀ f, s.siu.frame = some f →
        let latched : Latched :=
          { frame := f.number, truncated := true, packets := s.fe.collect, zones := s.fe.zones, lens := s.fe.lens,
            far := s.fe.params.far, near := s.fe.params.near }
        t.fe.inFlight = some latched
          ∧ (s.fe.inFlight = none → t.fe.latest = s.fe.latest ∧ t.fe.overruns = s.fe.overruns)
          ∧ (∀ l, s.fe.inFlight = some l → t.fe.overruns = sat16 s.fe.overruns
              ∧ ∃ pub, t.fe.latest = some pub ∧ pub.summary.frame = l.frame ∧ pub.summary.overrun = true)
          ∧ (f.mode = none → t.dram = s.dram ∧ t.siu.syncFaults = s.siu.syncFaults ∧ t.siu.lastBl = s.siu.lastBl
              ∧ t.siu.ended = s.siu.ended)
          ∧ ∀ m, f.mode = some m →
              let bl := f.bl.getD (min 4095 ((f.obSum + m.obPixels / 2) / m.obPixels))
              let first := max f.nextLine 16
              t.siu.syncFaults = sat16 s.siu.syncFaults
                ∧ t.siu.lastBl = some bl
                ∧ t.siu.ended = (match f.capture with
                    | some c => s.siu.ended ++ [{ capture := c, bl := bl, truncated := true }]
                    | none => s.siu.ended)
                ∧ t.dram = match f.capture with
                    | some c => (List.range (m.lines - first)).foldl (fun d i => writeChain d c.chain
                        ((first - 16 + i) * m.rowBytes) (packRow (List.replicate m.width (BitVec.ofNat 14 bl)))) s.dram
                    | none => s.dram

/-- A frame start that takes the pending SHOOT's frame (R32, R33, R7, R40, R41): focus priority met, fewer than 256 records, a shot
number left, and slabs for one raw whatever the reserve. The response carries the shot number; the engine is IDLE. -/
def Obligations.ShootTaken : Prop :=
  ∀ (s : State) (p : PendingShoot) (m : Mode), s.siu.frame = none → s.fsc.mode = some m → s.fsc.configured = true →
    s.siu.engine = .singlePending → s.siu.shoot = some p → (p.focus = true → s.fe.locked = true) →
    s.cat.records.length < 256 → s.cat.nextShot < 4294967296 → m.rawSlabs ≤ s.fsc.freeList.length →
    exec .frameStart s = .next (State.send { s.withFrameTaken .shot m with
        siu := { (s.withFrameTaken .shot m).siu with engine := .idle, shoot := none } } .body
      (.response 0xA5 p.tag .ok false (le 4 s.cat.nextShot)))

/-- A frame start that fails the pending SHOOT, and pressure relief (R32, R34, R27, R33, R61, R62): for want of focus without a look
at space; for want of space when relief does not help. With a wait timer the SHOOT stays pending with its reason; without one
it fails at once, with FOCUS_TIMEOUT or BUFFER_FULL. Relief does nothing while the need is met or the yield is off, and else ends
with the need met or with no READY NORMAL RAW item left. A downgrade unpins the raw, its mark DROPPED; the item goes where a
PROOF item of the shot stands or no job can be had, and else names PROOF, pinned, its mark QUEUED, READY with a done proof and
waiting for one else, for a QUARTER job of origin RELIEF where there was none; then the record is tested. The oldest such item
of a shot with a done proof yields the raw, and its slabs take the frame. Attempts and proof scale stay with the item (log 47);
the next job number goes on from the one given (log 46). -/
def Obligations.ShootBlocked : Prop :=
  (∀ (s : State) (p : PendingShoot) (m : Mode), s.siu.frame = none → s.fsc.mode = some m →
    s.siu.engine = .singlePending → s.siu.shoot = some p →
    (p.focus = true → s.fe.locked = false →
        (p.timer.isSome = true → exec .frameStart s = .next { s.withNewFrame with
            siu := { s.withNewFrame.siu with shoot := some { p with reason := .focus } } })
          ∧ (p.timer = none → exec .frameStart s = .next (State.send { s.withNewFrame with
              siu := { s.withNewFrame.siu with engine := .idle, shoot := none } } .body
                (.response 0xA5 p.tag .focusTimeout false []))))
      ∧ ((p.focus = false ∨ s.fe.locked = true) → 256 ≤ s.cat.records.length ∨ s.fsc.freeList.length < m.rawSlabs →
          s.cat.pressureYield = false ∨ (∀ i ∈ s.ttc.queue, i.state ≠ .ready ∨ i.cls ≠ .normal ∨ i.content ≠ .raw) →
          (p.timer.isSome = true → exec .frameStart s = .next { s.withNewFrame with
              siu := { s.withNewFrame.siu with shoot := some { p with reason := .space } } })
            ∧ (p.timer = none → exec .frameStart s = .next (State.send { s.withNewFrame with
                siu := { s.withNewFrame.siu with engine := .idle, shoot := none } } .body
                  (.response 0xA5 p.tag .bufferFull false []))))
      ∧ ((p.focus = false ∨ s.fe.locked = true) → 256 ≤ s.cat.records.length ∨ s.fsc.freeList.length < m.rawSlabs →
          let u := relieve m.rawSlabs s.ttc.queue.length s.withNewFrame
          256 ≤ u.cat.records.length ∨ u.fsc.freeList.length < m.rawSlabs →
          (p.timer.isSome = true → exec .frameStart s = .next { u with
              siu := { u.siu with engine := .singlePending, shoot := some { p with reason := .space } } })
            ∧ (p.timer = none → exec .frameStart s = .next (State.send { u with
                siu := { u.siu with engine := .idle, shoot := none } } .body (.response 0xA5 p.tag .bufferFull false []))))
      ∧ ∀ before i after r chain proof, (p.focus = false ∨ s.fe.locked = true) → s.fsc.configured = true →
          s.cat.records.length < 256 → s.cat.nextShot < 4294967296 → s.fsc.freeList.length < m.rawSlabs →
          s.cat.pressureYield = true → s.ttc.queue = before ++ i :: after → i.state = .ready → i.cls = .normal →
          i.content = .raw → (∀ x ∈ before, x.state ≠ .ready ∨ x.cls ≠ .normal ∨ x.content ≠ .raw) →
          s.record i.shot = some r → r.state = .stored → r.raw = some chain → r.proof = some proof → r.proofState = .done →
          r.rawPins = 1 → r.reqA.settled = true → r.reqB.settled = true → s.job i.shot = none →
          s.itemFor i.shot .proof = none → s.chainInUse chain = false →
          (∀ j, s.currentJob = some j → j.state = .running) → m.rawSlabs ≤ s.fsc.freeList.length + chain.length →
          let renamed := s.ttc.queue.map fun x => if x.serial = i.serial then { x with content := .proof, state := .ready } else x
          let d := State.withRecord
            { s with fsc := { s.fsc with freeList := s.fsc.freeList ++ chain }, ttc := { s.ttc with queue := renamed } } i.shot
            fun x => { x with raw := none, rawPins := x.rawPins - 1, markRaw := .dropped, proofPins := x.proofPins + 1,
                              markProof := .queued }
          exec .frameStart s = .next (State.send { d.withFrameTaken .shot m with
              siu := { (d.withFrameTaken .shot m).siu with engine := .idle, shoot := none } } .body
            (.response 0xA5 p.tag .ok false (le 4 s.cat.nextShot))))
    ∧ (∀ (k : Nat) (s : State),
        (s.cat.pressureYield = false ∨ s.cat.records.length < 256 ∧ k ≤ s.fsc.freeList.length →
            relieve k s.ttc.queue.length s = s)
          ∧ (s.cat.pressureYield = true →
              let u := relieve k s.ttc.queue.length s
              u.cat.records.length < 256 ∧ k ≤ u.fsc.freeList.length
                ∨ ∀ i ∈ u.ttc.queue, i.state ≠ .ready ∨ i.cls ≠ .normal ∨ i.content ≠ .raw))
    ∧ ∀ (i : SendItem) (r : Record) (s : State), s.record i.shot = some r →
        let left := { s with ttc := { s.ttc with queue := s.queueWithout i.serial } }
        let named := fun (st : ItemState) => State.withRecord
          { s with ttc := { s.ttc with queue := s.ttc.queue.map fun x =>
              if x.serial = i.serial then { x with content := .proof, state := st } else x } } i.shot fun x =>
            { x with rawPins := x.rawPins - 1, markRaw := .dropped, proofPins := x.proofPins + 1, markProof := .queued }
        ((s.itemFor i.shot .proof).isSome = true → downgrade i s = testRelease i.shot (left.withRecord i.shot fun x =>
            { x with rawPins := x.rawPins - 1, markRaw := .dropped }))
          ∧ (s.itemFor i.shot .proof = none →
              (r.proofState = .done → downgrade i s = testRelease i.shot (named .ready))
                ∧ (r.proofState = .pending → downgrade i s = testRelease i.shot (named .waitingProof))
                ∧ (r.proofState = .none → r.state = .stored → r.raw.isSome = true → s.job i.shot = none →
                    (32 ≤ s.dve.jobs.length → downgrade i s = testRelease i.shot (left.withRecord i.shot fun x =>
                        { x with rawPins := x.rawPins - 1, markRaw := .dropped, markProof := .dropped }))
                      ∧ (s.dve.jobs.length < 32 → s.currentJob.isSome = true →
                          let job : Job := { number := s.newJobNumber, shot := i.shot, mode := r.mode,
                                             params := { r.snapshot with scale := .quarter }, cls := .normal,
                                             origin := .relief, state := .queued, cancel := false, progress := none }
                          downgrade i s = testRelease i.shot (State.withRecord
                            { named .waitingProof with dve := { s.dve with
                              jobs := s.dve.jobs ++ [job], nextJob := (s.newJobNumber + 1) % 65536 } } i.shot fun x =>
                              { x with proofState := .pending }))))

/-- A frame start in a burst (R28, R29, R31 to R34): the count rises but at the burst's first frame; a count that is no multiple of
the divisor is no candidate; a candidate that passes is taken and counted, and the burst ends with its last; one skipped for
want of space counts as a skip, and the first of them raises SHORTAGE to the body port if its class is enabled. -/
def Obligations.BurstFrame : Prop :=
  ∀ (s : State) (m : Mode), s.siu.frame = none → s.fsc.mode = some m → s.fsc.configured = true → s.siu.engine = .burst →
    let n := if s.siu.burst.fresh then s.siu.burst.frames else (s.siu.burst.frames + 1) % 4294967296
    let b := { s.siu.burst with frames := n, fresh := false }
    let new := s.withNewFrame
    let got := s.withFrameTaken .shot m
    (n % b.divisor ≠ 0 → exec .frameStart s = .next { new with siu := { new.siu with burst := b } })
      ∧ (n % b.divisor = 0 → (b.focus = true → s.fe.locked = true) → s.cat.records.length < 256 →
          s.cat.nextShot < 4294967296 → m.rawSlabs ≤ s.fsc.freeList.length →
          let c := sat16 b.taken
          exec .frameStart s = .next { got with
            siu := if 0 < b.maximum ∧ b.maximum ≤ c then
                { got.siu with engine := .idle, burst := { b with taken := c, shortage := false } }
              else { got.siu with burst := { b with taken := c } } })
      ∧ (n % b.divisor = 0 → b.focus = true → s.fe.locked = false →
          exec .frameStart s = .next { new with siu := { new.siu with burst := { b with skips := sat16 b.skips } } })
      ∧ (n % b.divisor = 0 → (b.focus = true → s.fe.locked = true) → s.fsc.freeList.length < m.rawSlabs →
          s.cat.pressureYield = false →
          let failed := { new with siu := { new.siu with burst := { b with skips := sat16 b.skips, shortage := true } } }
          exec .frameStart s = .next (if s.ptc.enables.shortage ∧ s.siu.burst.shortage = false then
              failed.offer .body (.shortage new.siu.frameCounter s.fsc.freeList.length s.cat.records.length (sat16 b.skips))
            else failed))

/-- A frame start with pre-capture ARMED and the engine IDLE (R31, R36): a count that is no multiple of the divisor, or depth 0, is
no candidate; a candidate that finds room in the ring, in the catalog and on the free list is taken as a PRE frame, without
focus test and without relief; without room in catalog or free list it is not taken and nothing is counted or noticed. With the
ring full its oldest member is discarded first, and stays so whether or not the frame is taken (R35); the slabs of a raw that an
access holds up do not help this frame (R10). -/
def Obligations.PrecaptureFrame : Prop :=
  ∀ (s : State) (m : Mode), s.siu.frame = none → s.fsc.mode = some m → s.fsc.configured = true → s.siu.engine = .idle →
    s.siu.pre.armed = true →
    let n := if s.siu.pre.fresh then s.siu.pre.frames else (s.siu.pre.frames + 1) % 4294967296
    let p := { s.siu.pre with frames := n, fresh := false }
    let new := s.withNewFrame
    let got := s.withFrameTaken .pre m
    (n % p.divisor ≠ 0 ∨ p.depth = 0 → exec .frameStart s = .next { new with siu := { new.siu with pre := p } })
      ∧ (n % p.divisor = 0 → s.ring.length < p.depth → s.cat.records.length < 256 → s.cat.nextShot < 4294967296 →
          m.rawSlabs ≤ s.fsc.freeList.length → exec .frameStart s = .next { got with siu := { got.siu with pre := p } })
      ∧ (n % p.divisor = 0 → s.ring.length < p.depth → 256 ≤ s.cat.records.length ∨ s.fsc.freeList.length < m.rawSlabs →
          exec .frameStart s = .next { new with siu := { new.siu with pre := p } })
      ∧ ∀ oldest rest, n % p.divisor = 0 → 0 < p.depth → s.ring = oldest :: rest → p.depth ≤ rest.length + 1 →
          (s.cat.records.map Record.shot).Nodup → s.job oldest = none →
          (∀ j, s.currentJob = some j → j.state = .running) →
          let d := s.withDiscarded [oldest]
          let took := d.withFrameTaken .pre m
          (d.cat.records.length < 256 → d.cat.nextShot < 4294967296 → m.rawSlabs ≤ d.fsc.freeList.length →
              exec .frameStart s = .next { took with siu := { took.siu with pre := p } })
            ∧ (256 ≤ d.cat.records.length ∨ d.fsc.freeList.length < m.rawSlabs →
                exec .frameStart s = .next { d.withNewFrame with siu := { d.withNewFrame.siu with pre := p } })

/-- LINE (R17, R18, R19, R20, R21): where it goes, by its index. Without a frame it counts as a sync fault; in a frame without a
mode it is dropped. The expected OB line adds its first W samples to the sum; the expected active line closes the OB part, fixes
BL, and, in a taken frame, is written to its row, cut to W samples or padded with BL. A line longer than W marks the frame. A
line above the expected one marks it too, and the missing active lines before it are filled with BL. A line that repeats, or one
of index L or above, is dropped and marks the frame; whether the latter closes the OB part is free (log 8). Nothing else
changes. -/
def Obligations.LinePlacement : Prop :=
  ∀ (k : Nat) (xs : List Sample) (s : State),
    (s.siu.frame = none → exec (.line k xs) s = .next { s with siu := { s.siu with syncFaults := sat16 s.siu.syncFaults } })
      ∧ ∀ f, s.siu.frame = some f →
          (f.mode = none → exec (.line k xs) s = .next s)
            ∧ ∀ m, f.mode = some m →
              let bl := f.bl.getD (min 4095 ((f.obSum + m.obPixels / 2) / m.obPixels))
              let sum := ((xs.take m.width).map BitVec.toNat).sum
              let row := xs.take m.width ++ List.replicate (m.width - xs.length) (BitVec.ofNat 14 bl)
              let blank := packRow (List.replicate m.width (BitVec.ofNat 14 bl))
              let long := f.framingFault || Decidable.decide (m.width < xs.length)
              (k = f.nextLine → k < 16 → exec (.line k xs) s = .next { s with
                  siu := { s.siu with frame := some { f with obSum := f.obSum + sum, nextLine := k + 1, framingFault := long } } })
                ∧ (k = f.nextLine → 16 ≤ k → k < m.lines → exec (.line k xs) s = .next { s with
                      siu := { s.siu with frame := some { f with bl := some bl, nextLine := k + 1, framingFault := long } }
                      dram := match f.capture with
                        | some c => writeChain s.dram c.chain ((k - 16) * m.rowBytes) (packRow row)
                        | none => s.dram })
                ∧ (k < f.nextLine → exec (.line k xs) s = .next { s with
                    siu := { s.siu with frame := some { f with framingFault := true } } })
                ∧ (f.nextLine < k → k < 16 → exec (.line k xs) s = .next { s with
                    siu := { s.siu with
                      frame := some { f with obSum := f.obSum + sum, nextLine := k + 1, framingFault := true } } })
                ∧ (f.nextLine < k → 16 ≤ k → k < m.lines →
                    let first := max f.nextLine 16
                    exec (.line k xs) s = .next { s with
                      siu := { s.siu with frame := some { f with bl := some bl, nextLine := k + 1, framingFault := true } }
                      dram := match f.capture with
                        | some c => writeChain ((List.range (k - first)).foldl (fun d i => writeChain d c.chain
                            ((first - 16 + i) * m.rowBytes) blank) s.dram) c.chain ((k - 16) * m.rowBytes) (packRow row)
                        | none => s.dram })
                ∧ (f.nextLine ≤ k → m.lines ≤ k → ∃ b, (b = f.bl ∨ b = some bl) ∧ exec (.line k xs) s = .next { s with
                    siu := { s.siu with frame := some { f with framingFault := true, bl := b } } })

/-- LINE in a taken frame and the DRAM (R5, R6, R18): an expected line of W samples leaves the bytes of its row packed in the
chain, from row number times row length on; every byte outside them is as before. -/
def Obligations.LineMemory : Prop :=
  ∀ (k : Nat) (xs : List Sample) (s : State) (f : Frame) (m : Mode) (c : Capture), s.siu.frame = some f → f.mode = some m →
    f.capture = some c → k = f.nextLine → 16 ≤ k → k < m.lines → xs.length = m.width → c.chain.length = m.rawSlabs →
    ∃ t, exec (.line k xs) s = .next t ∧ (packRow xs).length = m.rowBytes
      ∧ (∀ a, (∀ o, (k - 16) * m.rowBytes ≤ o → o < (k - 16) * m.rowBytes + m.rowBytes → chainAddr c.chain o ≠ some a) →
          t.dram.read a = s.dram.read a)
      ∧ (c.chain.Nodup → ∀ i b a, (packRow xs)[i]? = some b → chainAddr c.chain ((k - 16) * m.rowBytes + i) = some a →
          t.dram.read a = b)

/-- FRAME_END of a frame that every line reached (R20, R24, R75), of a frame without a mode, and without a frame (R21). A complete
frame leaves the DRAM alone; it counts as a sync fault when its framing was at fault; its BL becomes the last BL; a taken one
awaits its raw completion; the FE latches its packets, zones, lens state and limits, and its collecting store is empty, its
frame number too (log 33). A frame without a mode only goes to the FE, not TRUNCATED. A computation still in flight is
published first, as an overrun: no zone has a figure, none is selected (R75). A frame cut short is TRUNCATED and counted once; where
it is taken, the rows of its missing lines are filled with BL, and every byte of the DRAM outside them is as before. -/
def Obligations.FrameEnd : Prop :=
  (∀ s : State,
    (s.siu.frame = none → exec .frameEnd s = .next { s with siu := { s.siu with syncFaults := sat16 s.siu.syncFaults } })
      ∧ ∀ f, s.siu.frame = some f →
          let latched := fun (short : Bool) =>
            ({ frame := f.number, truncated := short, packets := s.fe.collect, zones := s.fe.zones, lens := s.fe.lens,
               far := s.fe.params.far, near := s.fe.params.near } : Latched)
          let begun := { s.fe with inFlight := some (latched false), collectFrame := none, collect := List.replicate 48 none }
          let whole := fun (m : Mode) =>
            let bl := f.bl.getD (min 4095 ((f.obSum + m.obPixels / 2) / m.obPixels))
            { s.siu with
              frame := none
              syncFaults := if f.framingFault then sat16 s.siu.syncFaults else s.siu.syncFaults
              lastBl := some bl
              ended := match f.capture with
                | some c => s.siu.ended ++ [{ capture := c, bl := bl, truncated := false }]
                | none => s.siu.ended }
          (f.mode = none → s.fe.inFlight = none →
              exec .frameEnd s = .next { s with siu := { s.siu with frame := none }, fe := begun })
            ∧ (∀ m, f.mode = some m → m.lines ≤ f.nextLine → s.fe.inFlight = none →
                exec .frameEnd s = .next { s with siu := whole m, fe := begun })
            ∧ ∀ l, s.fe.inFlight = some l → ∃ t pub, exec .frameEnd s = .next t
                ∧ t.fe.inFlight = some (latched (f.mode.any fun m => f.nextLine < m.lines))
                ∧ t.fe.collectFrame = none ∧ t.fe.collect = List.replicate 48 none
                ∧ t.fe.overruns = sat16 s.fe.overruns ∧ t.fe.latest = some pub
                ∧ pub.summary.frame = l.frame ∧ pub.summary.overrun = true ∧ pub.summary.noLens = l.lens.isNone
                ∧ pub.summary.truncated = l.truncated ∧ pub.summary.selection = none ∧ pub.summary.validCount = 0
                ∧ pub.map = l.zones.map (fun z => { state := if z.active = false then .inactive
                                                      else if l.lens = none then .noLens else .noData, p := none, q := none })
                ∧ (f.mode = none → t.siu = { s.siu with frame := none } ∧ t.dram = s.dram)
                ∧ ∀ m, f.mode = some m → m.lines ≤ f.nextLine → t.siu = whole m ∧ t.dram = s.dram)
  ∧ ∀ (s : State) (f : Frame) (m : Mode), s.siu.frame = some f → f.mode = some m → f.nextLine < m.lines →
    let bl := f.bl.getD (min 4095 ((f.obSum + m.obPixels / 2) / m.obPixels))
    ∃ t, exec .frameEnd s = .next t ∧ t.siu = { s.siu with
        frame := none, syncFaults := sat16 s.siu.syncFaults, lastBl := some bl,
        ended := match f.capture with
          | some c => s.siu.ended ++ [{ capture := c, bl := bl, truncated := true }]
          | none => s.siu.ended }
      ∧ (∃ l, t.fe.inFlight = some l ∧ l.frame = f.number ∧ l.truncated = true)
      ∧ t.dram = (match f.capture with
          | some c => (List.range (m.lines - max f.nextLine 16)).foldl (fun d i => writeChain d c.chain
              ((max f.nextLine 16 - 16 + i) * m.rowBytes) (packRow (List.replicate m.width (BitVec.ofNat 14 bl)))) s.dram
          | none => s.dram)
      ∧ ∀ c, f.capture = some c → ∀ a, (∀ o, (max 16 f.nextLine - 16) * m.rowBytes ≤ o → o < m.rawBytes →
          chainAddr c.chain o ≠ some a) → t.dram.read a = s.dram.read a

/-- AF_PACKET (R23, R74): with a frame in progress, a zone index below 48 and 64 samples in each profile the packet takes its zone's
place, an earlier one of the zone giving way; with fewer or more samples in a profile, without a frame, or with another index it
is discarded, and nothing changes. -/
def Obligations.AfPacketKept : Prop :=
  ∀ (zone : Nat) (left right : List ProfileSample) (s : State),
    (left.length = 64 → right.length = 64 → s.siu.frame.isSome = true → zone < 48 →
        exec (.afPacket zone left right) s = .next { s with
          fe := { s.fe with collect := s.fe.collect.set zone (some { left := left, right := right }) } })
      ∧ (left.length ≠ 64 ∨ right.length ≠ 64 ∨ s.siu.frame = none ∨ 48 ≤ zone → exec (.afPacket zone left right) s = .next s)

/-- RAW_COMPLETION (R24, R47, R48, R114, R139): with no ended frame awaited it changes nothing, the model's choice (log 4). The
oldest ended frame's record takes BL and TRUNCATED; an unmarked PRE frame's becomes PROVISIONAL; one marked DISCARD is gone, its
raw free, or released and waiting; a SHOT's, and a PRE frame's marked PROMOTE, becomes STORED, its card item is queued where
slot A writes raws, and SHOT_STORED is offered, all else as before when no rule and no second slot acts. With auto-develop on a
NORMAL job of origin AUTO, with the record's own settings, joins the list first, unless the list is full; the next job number
goes on from the one given (log 46). -/
def Obligations.RawCompletion : Prop :=
  ∀ s : State,
    (s.siu.ended = [] → exec .rawCompletion s = .next s)
      ∧ ∀ (e : EndedFrame) (es : List EndedFrame) (r : Record), s.siu.ended = e :: es → s.record e.capture.shot = some r →
          s.fsc.releasing = [] → r.state = .exposing →
          let left := { s with siu := { s.siu with ended := es } }
          let queued : State := { left with crw := { s.crw with slotA := { s.crw.slotA with
            queue := s.crw.slotA.queue ++ [({ shot := r.shot, mode := r.mode } : CardItem)] } } }
          let notice : Notice := .shotStored r.shot r.frame r.mode r.kind e.truncated
          (r.kind = .pre → r.mark = .none → exec .rawCompletion s = .next (left.withRecord r.shot fun x =>
              { x with bl := some e.bl, truncated := e.truncated, state := .provisional }))
            ∧ (r.kind = .pre → r.mark = .discard → s.job r.shot = none → (∀ j, s.currentJob = some j → j.state = .running) →
                ∀ chain, r.raw = some chain →
                let gone := { left with cat := { s.cat with records := s.cat.records.filter fun x => x.shot != r.shot } }
                exec .rawCompletion s = .next { gone with
                  fsc := if left.chainInUse chain then { s.fsc with releasing := [chain] }
                    else { s.fsc with freeList := s.fsc.freeList ++ chain } })
            ∧ (r.kind = .shot ∨ r.mark = .promote → s.crw.contentA = true → s.crw.contentB = false →
                s.crw.slotA.state ≠ .idle → s.ttc.attached = false ∨ s.ttc.armed = false →
                r.proof = none → r.raw.isSome = true →
                (s.dve.auto = false ∨ s.job r.shot = none ∧ 32 ≤ s.dve.jobs.length →
                    exec .rawCompletion s = .next ((queued.withRecord r.shot fun x =>
                      { x with bl := some e.bl, truncated := e.truncated, state := .stored, reqA := .queued }).offer .body
                        notice))
                  ∧ (s.dve.auto = true → s.job r.shot = none → s.itemFor r.shot .proof = none → s.dve.jobs.length < 32 →
                      s.currentJob.isSome = true →
                      let job : Job := { number := s.newJobNumber, shot := r.shot, mode := r.mode, params := r.snapshot,
                                         cls := .normal, origin := .auto, state := .queued, cancel := false, progress := none }
                      let made := { queued with dve := { s.dve with jobs := s.dve.jobs ++ [job],
                                                                     nextJob := (s.newJobNumber + 1) % 65536 } }
                      exec .rawCompletion s = .next ((made.withRecord r.shot fun x =>
                        { x with bl := some e.bl, truncated := e.truncated, state := .stored, reqA := .queued,
                                 proofState := .pending }).offer .body notice)))

/-! ## The capture engine's requests -/

/-- SHOOT and its wait timer (R26, R27, R37): refused while UNCONFIGURED, then BUSY outside IDLE; accepted, it is pending with
reason NONE and the shot wait limit on its timer, if that is above 0, and nothing is answered yet; an armed ring is promoted,
its members still EXPOSING by their mark, its PROVISIONAL ones at once, with card item and SHOT_STORED (R48; stated where no
more than slot A's queue acts on them). At the timer's end it fails by its reason. An expiry with no timer, or with one that has
time left, does nothing: that the timer counts down to 0 is the model's way to say that it has run out (log 3). A flag byte that
is neither 0 nor 1 is refused (log 13). -/
def Obligations.ShootAndItsTimer : Prop :=
  (∀ (h : Header) (focus : Byte) (s : State), reachesOwner (.shoot h focus) h s →
    (1 < focus.toNat → exec (.shoot h focus) s = .next (s.refused .shoot h .badRequest))
      ∧ (focus.toNat ≤ 1 → s.fsc.configured = false → exec (.shoot h focus) s = .next (s.refused .shoot h .notConfigured))
      ∧ (focus.toNat ≤ 1 → s.fsc.configured = true → s.siu.engine ≠ .idle →
          exec (.shoot h focus) s = .next (s.refused .shoot h .busy))
      ∧ (focus.toNat ≤ 1 → s.fsc.configured = true → s.siu.engine = .idle → (s.cat.records.map Record.shot).Nodup →
          (∀ r ∈ s.cat.records, r.inRing = true → r.state = .exposing) →
          exec (.shoot h focus) s = .next { s with
            siu := { s.siu with
              engine := .singlePending
              shoot := some { tag := h.tag, focus := focus = 1, reason := .none,
                              timer := if s.siu.waitLimit = 0 then none else some s.siu.waitLimit } }
            cat := { s.cat with records := s.cat.records.map fun r =>
              if s.siu.pre.armed = true ∧ r.inRing = true then { r with mark := .promote } else r } })
      ∧ (focus.toNat ≤ 1 → s.fsc.configured = true → s.siu.engine = .idle → s.siu.pre.armed = true →
          (s.cat.records.map Record.shot).Nodup → s.onlySlotAWaits →
          (∀ r ∈ s.cat.records, r.inRing = true → r.state = .provisional → r.raw.isSome = true ∧ r.proof = none) →
          exec (.shoot h focus) s = .next { s.withPromoted with siu := { s.siu with
            engine := .singlePending
            shoot := some { tag := h.tag, focus := focus = 1, reason := .none,
                            timer := if s.siu.waitLimit = 0 then none else some s.siu.waitLimit } } }))
    ∧ ∀ s : State,
        (∀ p, s.siu.shoot = some p → p.timer = some 0 → exec .shotWaitExpiry s = .next (State.send
            { s with siu := { s.siu with engine := .idle, shoot := none } } .body
              (.response 0xA5 p.tag (if p.reason = .space then .bufferFull else .focusTimeout) false [])))
          ∧ ((∀ p, s.siu.shoot = some p → p.timer ≠ some 0) → exec .shotWaitExpiry s = .next s)

/-- BURST_BEGIN and BURST_END (R28, R29): refused while UNCONFIGURED, then BUSY outside IDLE, then THERMAL in HOT; accepted, the
engine is in BURST with clamped divisor and maximum and its counts at 0; an armed ring is promoted as by a SHOOT (R37).
BURST_END returns a burst to IDLE with its counts kept and answers OK in every state. -/
def Obligations.Bursts : Prop :=
  (∀ (h : Header) (d : Byte) (m : Half) (focus : Byte) (s : State), reachesOwner (.burstBegin h d m focus) h s →
    focus.toNat ≤ 1 →
    (s.fsc.configured = false → exec (.burstBegin h d m focus) s = .next (s.refused .burstBegin h .notConfigured))
      ∧ (s.fsc.configured = true → s.siu.engine ≠ .idle →
          exec (.burstBegin h d m focus) s = .next (s.refused .burstBegin h .busy))
      ∧ (s.fsc.configured = true → s.siu.engine = .idle → s.siu.thermal = .hot →
          exec (.burstBegin h d m focus) s = .next (s.refused .burstBegin h .thermal))
      ∧ (s.fsc.configured = true → s.siu.engine = .idle → s.siu.thermal ≠ .hot → s.siu.pre.armed = false →
          exec (.burstBegin h d m focus) s = .next (State.answered
            { s with siu := { s.siu with
              engine := .burst
              burst := { divisor := max 1 (min 16 d.toNat), maximum := min 999 m.toNat, focus := focus = 1, frames := 0,
                         fresh := true, taken := 0, skips := 0, shortage := false } } } .burstBegin h []))
      ∧ (s.fsc.configured = true → s.siu.engine = .idle → s.siu.thermal ≠ .hot → s.siu.pre.armed = true →
          (s.cat.records.map Record.shot).Nodup → s.onlySlotAWaits →
          (∀ r ∈ s.cat.records, r.inRing = true → r.state = .provisional → r.raw.isSome = true ∧ r.proof = none) →
          exec (.burstBegin h d m focus) s = .next (State.answered
            { s.withPromoted with siu := { s.siu with
              engine := .burst
              burst := { divisor := max 1 (min 16 d.toNat), maximum := min 999 m.toNat, focus := focus = 1, frames := 0,
                         fresh := true, taken := 0, skips := 0, shortage := false } } } .burstBegin h [])))
    ∧ ∀ (h : Header) (s : State), reachesOwner (.burstEnd h) h s → exec (.burstEnd h) s = .next (State.answered
        (if s.siu.engine = .burst then
          { s with siu := { s.siu with engine := .idle, burst := { s.siu.burst with shortage := false } } }
        else s) .burstEnd h [])

/-- PRECAPTURE (R30, R35): an action that is neither ARM nor DISARM is refused; ARM while UNCONFIGURED or away from NORMAL too. ARM
sets depth and divisor, clamped, and starts the count anew; the ring is kept while it fits, else its oldest members are
discarded down to the depth. DISARM discards every member, with depth and divisor kept: those still EXPOSING by their mark,
PROVISIONAL ones at once, their raws free, or released and waiting (R49, R10). -/
def Obligations.Precapture : Prop :=
  ∀ (h : Header) (action depth divisor : Byte) (s : State), reachesOwner (.precapture h action depth divisor) h s →
    (1 < action.toNat → exec (.precapture h action depth divisor) s = .next (s.refused .precapture h .badRequest))
      ∧ (action = 0 → s.fsc.configured = false →
          exec (.precapture h action depth divisor) s = .next (s.refused .precapture h .notConfigured))
      ∧ (action = 0 → s.fsc.configured = true → s.siu.thermal ≠ .normal →
          exec (.precapture h action depth divisor) s = .next (s.refused .precapture h .thermal))
      ∧ (action = 0 → s.fsc.configured = true → s.siu.thermal = .normal → s.ring.length ≤ min 24 depth.toNat →
          exec (.precapture h action depth divisor) s = .next (State.answered
            { s with siu := { s.siu with pre := { armed := true, depth := min 24 depth.toNat,
                                                  divisor := max 1 (min 16 divisor.toNat), frames := 0, fresh := true } } }
            .precapture h []))
      ∧ (action = 1 → (s.cat.records.map Record.shot).Nodup →
          (∀ r ∈ s.cat.records, r.inRing = true → r.state = .exposing) →
          exec (.precapture h action depth divisor) s = .next (State.answered
            { s with
              siu := { s.siu with pre := { s.siu.pre with armed := false } }
              cat := { s.cat with records := s.cat.records.map fun r =>
                if r.inRing = true then { r with mark := .discard } else r } } .precapture h []))
      ∧ ((s.cat.records.map Record.shot).Nodup → (∀ n ∈ s.ring, s.job n = none) →
          (∀ j, s.currentJob = some j → j.state = .running) →
          (action = 0 → s.fsc.configured = true → s.siu.thermal = .normal →
              exec (.precapture h action depth divisor) s = .next (State.answered
                { s.withDiscarded (s.ring.take (s.ring.length - min 24 depth.toNat)) with
                  siu := { s.siu with pre := { armed := true, depth := min 24 depth.toNat,
                                               divisor := max 1 (min 16 divisor.toNat), frames := 0, fresh := true } } }
                .precapture h []))
            ∧ (action = 1 → exec (.precapture h action depth divisor) s = .next (State.answered
                { s.withDiscarded s.ring with siu := { s.siu with pre := { s.siu.pre with armed := false } } }
                .precapture h [])))

/-! ## Focus -/

/-- SET_ZONES and SET_FOCUS (R71, R89, R93): the 48 zones or the ten parameters are taken, clamped, and the tracking history, the
previous prediction and the no-selection run are cleared; the lock stays. A choice outside its values is refused; that a zone's
active byte other than 0 and 1 is one of these is the model's choice (log 13). -/
def Obligations.FocusSettings : Prop :=
  (∀ (h : Header) (zs : List ZoneOps) (s : State), reachesOwner (.setZones h zs) h s →
    ((∃ z ∈ zs, 1 < z.active.toNat) → exec (.setZones h zs) s = .next (s.refused .setZones h .badRequest))
      ∧ (zs.length = 48 → (∀ z ∈ zs, z.active.toNat ≤ 1) → exec (.setZones h zs) s = .next (State.answered
          { s with fe := { s.fe with
            zones := zs.map fun (z : ZoneOps) =>
              { active := z.active == 1, contrastFloor := min 262143 z.contrast.toNat,
                confidenceFloor := min 4095 z.confidence.toNat }
            history := [], previous := none, noSelection := 0 } } .setZones h [])))
    ∧ ∀ (h : Header) (o : FocusOps) (s : State), reachesOwner (.setFocus h o) h s →
        (3 < o.priority.toNat ∨ 1 < o.policy.toNat → exec (.setFocus h o) s = .next (s.refused .setFocus h .badRequest))
          ∧ ∀ mode policy, readFocusMode o.priority = some mode → readTravelPolicy o.policy = some policy →
              exec (.setFocus h o) s = .next (State.answered
                { s with fe := { s.fe with
                  params := { mode := mode, far := min 16383 o.far.toNat, near := min 16383 o.near.toNat,
                              eIn := min 32767 o.eIn.toNat, eOut := max (min 32767 o.eIn.toNat) (min 32767 o.eOut.toNat),
                              m := max 1 (min 15 o.m.toNat), n := max 1 (min 15 o.n.toNat), lead := min 8 o.lead.toNat,
                              policy := policy, trackLoss := max 1 (min 15 o.trackLoss.toNat) }
                  history := [], previous := none, noSelection := 0 } } .setFocus h [])

/-- R80: the minimum shift has the least SAD of the 25; among shifts of that SAD it has the smallest absolute value; of two with
equal absolute value it is the negative one. -/
def Obligations.MinimumShift : Prop :=
  ∀ p : AfPacket, -12 ≤ bestShift p ∧ bestShift p ≤ 12
    ∧ ∀ x : Int, -12 ≤ x → x ≤ 12 → sad p (bestShift p) ≤ sad p x
        ∧ (sad p x = sad p (bestShift p) → (bestShift p).natAbs ≤ x.natAbs
            ∧ ((bestShift p).natAbs = x.natAbs → bestShift p ≤ x))

/-- The figures of a zone and the frame result (R69, R77 to R79, R81 to R86, R75). Contrast is the sum of the 63 differences of
neighbouring left samples, SAD that of the 40 central ones against the displaced right ones; the interpolated part is eight
times (a − c) over a − 2b + c, rounded, and 0 where the three are equal; confidence is as R83 writes it, in 0..4095; defocus
is P·Kc/256 rounded and clamped to −32,767..32,767, and flagged where the clamp acts. An inactive zone is INACTIVE, one
without a packet NO_DATA, one below its contrast floor LOW_CONTRAST; a minimum at the edge is EDGE with P = 16 s and Q = 0; one
below its confidence floor is LOW_CONFIDENCE; every other is VALID or, with T outside the limits, CLIPPED. Without a lens
state every active zone is NO_LENS; a frame cut short by an overrun has NO_DATA in its active zones. -/
def Obligations.ZoneFigures : Prop :=
  let v := fun (xs : List ProfileSample) (i : Nat) => ((xs.getD i 0).toNat : Int)
  let bare := fun (st : ZoneState) =>
    ({ state := st, c := none, p := none, q := none, d := none, t := none, dClamped := false } : ZoneResult)
  (∀ p : AfPacket, contrast p = (∑ i ∈ Finset.range 63, (v p.left (i + 1) - v p.left i).natAbs) ∧ contrast p ≤ 257985
      ∧ ∀ x : Int, sad p x ≤ 163800 ∧ (-12 ≤ x → x ≤ 12 →
          sad p x = ∑ i ∈ Finset.range 40, (v p.left (i + 12) - v p.right ((i : Int) + 12 + x).toNat).natAbs))
    ∧ (∀ a b c : Nat, b ≤ a → b ≤ c →
        (a + c = 2 * b → interpolate a b c = 0)
          ∧ (2 * b < a + c → roundsTo (8 * ((a : Int) - c)) (a + c - 2 * b) (interpolate a b c))
          ∧ -8 ≤ interpolate a b c ∧ interpolate a b c ≤ 8
          ∧ confidence a b c = min 4095 (256 * (min a c - b) / (b + 256)) ∧ (a = b ∨ c = b → confidence a b c = 0))
    ∧ (∀ (p : Int) (kc : Nat), ∃ d, roundsTo (p * kc) 256 d ∧ (defocus p kc).1 = max (-32767) (min 32767 d)
        ∧ ((defocus p kc).2 = true ↔ d < -32767 ∨ 32767 < d))
    ∧ (∀ (z : Zone) (lens : Lens) (far near : Nat), z.active = false → ∀ k, zoneResult z lens far near k = bare .inactive)
    ∧ (∀ (z : Zone) (lens : Lens) (far near : Nat), z.active = true → zoneResult z lens far near none = bare .noData
        ∧ ∀ k : AfPacket,
            let s := bestShift k
            let phase := 16 * s + interpolate (sad k (s - 1)) (sad k s) (sad k (s + 1))
            let q := confidence (sad k (s - 1)) (sad k s) (sad k (s + 1))
            let target := fun (p : Int) => (lens.position : Int) + (defocus p lens.kc).1
            let placed := fun (st : ZoneState) (p : Int) (q : Nat) =>
              ({ state := st, c := some (contrast k), p := some p, q := some q, d := some (defocus p lens.kc).1,
                 t := some (target p), dClamped := (defocus p lens.kc).2 } : ZoneResult)
            (contrast k < z.contrastFloor →
                zoneResult z lens far near (some k) = { bare .lowContrast with c := some (contrast k) })
              ∧ (z.contrastFloor ≤ contrast k → s = -12 ∨ s = 12 →
                  zoneResult z lens far near (some k) = placed .edge (16 * s) 0)
              ∧ (z.contrastFloor ≤ contrast k → s ≠ -12 → s ≠ 12 →
                  (q < z.confidenceFloor → zoneResult z lens far near (some k) =
                      { bare .lowConfidence with c := some (contrast k), p := some phase, q := some q })
                    ∧ (z.confidenceFloor ≤ q → zoneResult z lens far near (some k) =
                        placed (if target phase < far ∨ near < target phase then .clipped else .valid) phase q)))
    ∧ ∀ l : Latched,
        (l.lens = none → (computeResult l).zones = l.zones.map fun z => bare (if z.active then .noLens else .inactive))
          ∧ (∀ lens, l.lens = some lens → (computeResult l).zones =
              List.zipWith (fun z k => zoneResult z lens l.far l.near k) l.zones l.packets)
          ∧ (overrunResult l).zones = l.zones.map fun z =>
              bare (if z.active then (if l.lens = none then .noLens else .noData) else .inactive)

/-- FOCUS_RESULT_READY (R90, R98 to R102, R44): the computation in flight ends, its result is followed by selection, tracking,
prediction and lock, and is published with frame, NO_LENS and TRUNCATED of the latched frame, its selection, the lock as it
then stands, its counts and one entry for each zone; the focus record of the shot taken on that frame is filled, or absent
without a lens state; the watch puts the result in the lens queue, a SNAPSHOT once. Nothing outside the FE, the records and the
lens queue changes. A record discarded before is not looked for, and a record marked DISCARD counts as discarded (R35, R49, log
51). With no computation in flight nothing happens: the model's choice (log 4). -/
def Obligations.FocusResultReady : Prop :=
  ∀ s : State,
    (s.fe.inFlight = none → exec .focusResultReady s = .next s)
      ∧ ∀ l, s.fe.inFlight = some l →
          let result := computeResult l
          let followed := ({ s.fe with inFlight := none } : Fe).followSubject result
          let after := followed.2.lockStep (followed.1.map Selection.d)
          let edges := fun (c : Int → Bool) => (result.zones.filter fun z =>
            z.state == .edge && (match z.p with | some p => c p | none => false)).length
          ∃ t pub, exec .focusResultReady s = .next t
            ∧ t = { s with fe := t.fe, cat := { s.cat with records := t.cat.records },
                           ptc := { s.ptc with lensQueue := t.ptc.lensQueue } }
            ∧ t.fe = { after with latest := some pub, watch := if s.fe.watch = .snapshot then .none else s.fe.watch }
            ∧ pub.summary = {
                frame := l.frame, noLens := l.lens.isNone, overrun := false, truncated := l.truncated,
                lens := l.lens.map (fun x => (x.position, x.moving)), selection := followed.1, locked := after.locked,
                validCount := (result.zones.filter fun z => z.state == .valid).length,
                negEdges := edges (· < 0), posEdges := edges (0 < ·) }
            ∧ pub.map = result.zones.map (fun z => { state := z.state, p := z.p, q := z.q })
            ∧ (l.lens = none → pub.summary.selection = none ∧ pub.summary.validCount = 0)
            ∧ (s.fe.watch = .none → t.ptc.lensQueue = s.ptc.lensQueue)
            ∧ (s.fe.watch ≠ .none → noticeLaw s → t.ptc.lensQueue = [.focusResult pub.summary])
            ∧ ((∀ r ∈ s.cat.records, r.frame = l.frame → r.focus ≠ .pending ∨ r.mark = .discard) → t.cat = s.cat)
            ∧ ∀ r, s.cat.records.find? (fun x => x.frame == l.frame && x.focus == .pending && x.mark != .discard) = some r →
                t.cat.records = s.cat.records.map fun x => if x.shot = r.shot then
                  { x with focus := match l.lens with
                    | none => .absent
                    | some lens => .filled { selection := pub.summary.selection, locked := pub.summary.locked,
                                             lensPosition := lens.position, negEdges := pub.summary.negEdges,
                                             posEdges := pub.summary.posEdges } } else x

/-- Selection, tracking, prediction and lock (R69, R91 to R97). The candidates are the VALID zones, in order; if there are any, one
wins, best by the priority mode, the lowest zone among equals. With a winner the run is 0, its target joins the history, of
which the oldest of five goes, and the prediction is made; without one the run advances, and at the track-loss count history
and previous prediction are cleared. The velocity is sixteen times the way from oldest to newest target over the frames
between them, rounded, the raw prediction the target and the velocity times the lead over 16, rounded; the published one lies in
the travel, is the raw one if that does, and its flag says which rule gave it. The lock and its counts move by the table of
R97. -/
def Obligations.FollowingTheSubject : Prop :=
  (∀ (zs : List ZoneResult) (x : Candidate),
    (x ∈ candidates 0 zs ↔ ∃ z, zs[x.zone]? = some z ∧ z.state = .valid ∧ z.c = some x.c ∧ z.p = some x.p ∧ z.q = some x.q
      ∧ z.d = some x.d ∧ z.t = some x.t ∧ z.dClamped = x.dClamped)
      ∧ (candidates 0 zs).Pairwise (fun a b => a.zone < b.zone))
    ∧ (∀ (m : FocusMode) (prev : Option Int) (cs : List Candidate),
        (selectZone m prev cs = none ↔ cs = [])
          ∧ ∀ x, selectZone m prev cs = some x → x ∈ cs ∧ ∀ y ∈ cs, (match m, prev with
              | .near, _ => y.t ≤ x.t
              | .far, _ => x.t ≤ y.t
              | .closest, _ => x.d.natAbs ≤ y.d.natAbs
              | .track, some t => (x.t - t).natAbs ≤ (y.t - t).natAbs
              | .track, none => y.t ≤ x.t)
            ∧ (cs.Pairwise (fun a b => a.zone < b.zone) → focusMeasure m prev y = focusMeasure m prev x → x.zone ≤ y.zone))
    ∧ (∀ (f : Fe) (r : FrameResult),
        let won := selectZone f.params.mode (f.history.getLast?.map Track.target) (candidates 0 r.zones)
        (won = none ∨ r.lens = none →
            let run := min 15 (f.noSelection + 1)
            f.noSelection ≤ 15 → f.followSubject r = (none, { f with
              noSelection := run
              history := if f.params.trackLoss ≤ run then [] else f.history
              previous := if f.params.trackLoss ≤ run then none else f.previous }))
          ∧ ∀ x lens, won = some x → r.lens = some lens →
              let history := (if f.history.length < 4 then f.history else f.history.tail) ++ [{ target := x.t, frame := r.frame }]
              let p := predict (rawPrediction x.t (velocity history) f.params.lead) x.t f.previous f.params.policy lens
              f.followSubject r = (some { zone := x.zone, c := x.c, p := x.p, q := x.q, d := x.d, t := x.t,
                                          dClamped := x.dClamped, tPred := p.1, flag := p.2 },
                { f with noSelection := 0, history := history, previous := some p.1 }))
    ∧ (∀ h : List Track, h.length < 2 → velocity h = 0)
    ∧ (∀ (a n : Track) (h : List Track), a.frame < 4294967296 → n.frame < 4294967296 → a.frame ≠ n.frame →
        let frames := (n.frame + (4294967296 - a.frame)) % 4294967296
        roundsTo (16 * (n.target - a.target)) frames (velocity (a :: h ++ [n])))
    ∧ (∀ (t v : Int) (lead : Nat), ∃ x, roundsTo (v * lead) 16 x ∧ rawPrediction t v lead = t + x)
    ∧ (∀ (raw t : Int) (prev : Option Int) (policy : TravelPolicy) (lens : Lens), lens.travelMin ≤ lens.travelMax →
        lens.travelMin ≤ (predict raw t prev policy lens).1 ∧ (predict raw t prev policy lens).1 ≤ lens.travelMax
          ∧ ((lens.travelMin : Int) ≤ raw → raw ≤ lens.travelMax → predict raw t prev policy lens = (raw, .inTravel))
          ∧ (raw < lens.travelMin → predict raw t prev .clamp lens = ((lens.travelMin : Int), .atLimit))
          ∧ (lens.travelMax < raw → predict raw t prev .clamp lens = ((lens.travelMax : Int), .atLimit))
          ∧ (raw < lens.travelMin ∨ lens.travelMax < raw → predict raw t prev .hold lens =
              (max (lens.travelMin : Int) (min (lens.travelMax : Int) (prev.getD t)), .held)))
    ∧ ∀ (f : Fe) (d : Option Int),
        (f.locked = false → ∀ x, d = some x → x.natAbs ≤ f.params.eIn → f.lockStep d =
            if f.params.m ≤ sat15 f.inCount then { f with locked := true, inCount := sat15 f.inCount, outCount := 0 }
            else { f with inCount := sat15 f.inCount })
          ∧ (f.locked = false → 1 ≤ f.params.m → (∀ x, d = some x → f.params.eIn < x.natAbs) →
              f.lockStep d = { f with inCount := 0 })
          ∧ (f.locked = true → 1 ≤ f.params.n → ∀ x, d = some x → x.natAbs ≤ f.params.eOut →
              f.lockStep d = { f with outCount := 0 })
          ∧ (f.locked = true → (∀ x, d = some x → f.params.eOut < x.natAbs) → f.lockStep d =
              if f.params.n ≤ sat15 f.outCount then
                { f with locked := false, inCount := 0, outCount := sat15 f.outCount }
              else { f with outCount := sat15 f.outCount })

/-- The lens port's commands (R73, R100, R101, R104, R193): LENS_STATE and WATCH need the lens-present line; LENS_STATE is
clamped, Kc 0 taken as 1, a reversed travel exchanged; UNWATCH is answered always. Detach forgets lens state, watch, tracking
and lock and empties what the lens port holds but for other notices; attach raises the line alone. That a moving byte that is
neither 0 nor 1 is refused is the model's choice (log 13), and so is that detach and attach act whatever level the line has (log
41). -/
def Obligations.LensPort : Prop :=
  (∀ (h : Header) (o : LensOps) (s : State), reachesOwner (.lensState h o) h s →
    (1 < o.moving.toNat → exec (.lensState h o) s = .next (s.refused .lensState h .badRequest))
      ∧ (o.moving.toNat ≤ 1 → s.fe.lensPresent = false →
          exec (.lensState h o) s = .next (s.refused .lensState h .notReady))
      ∧ (o.moving.toNat ≤ 1 → s.fe.lensPresent = true → exec (.lensState h o) s = .next (State.answered
          { s with fe := { s.fe with
            lens := some {
              position := min 16383 o.position.toNat, kc := max 1 o.kc.toNat,
              travelMin := min (min 16383 o.travelMin.toNat) (min 16383 o.travelMax.toNat),
              travelMax := max (min 16383 o.travelMin.toNat) (min 16383 o.travelMax.toNat),
              moving := o.moving = 1 } } } .lensState h [])))
    ∧ (∀ (h : Header) (mode : Byte) (s : State), reachesOwner (.watch h mode) h s →
        (1 < mode.toNat → exec (.watch h mode) s = .next (s.refused .watch h .badRequest))
          ∧ (mode.toNat ≤ 1 → s.fe.lensPresent = false → exec (.watch h mode) s = .next (s.refused .watch h .notReady))
          ∧ (mode.toNat ≤ 1 → s.fe.lensPresent = true → exec (.watch h mode) s = .next (State.answered
              { s with fe := { s.fe with watch := if mode = 0 then .snapshot else .continuous } } .watch h [])))
    ∧ (∀ (h : Header) (s : State), reachesOwner (.unwatch h) h s →
        exec (.unwatch h) s = .next (State.answered { s with fe := { s.fe with watch := .none } } .unwatch h []))
    ∧ (∀ s : State, exec .lensDetach s = .next { s with
        fe := { s.fe with lensPresent := false, lens := none, watch := .none, history := [], previous := none,
                          noSelection := 0, locked := false, inCount := 0, outCount := 0 }
        ptc := { s.ptc with lensQueue := s.ptc.lensQueue.filter (fun n => !n.isFocusResult), lensOut := [] } })
    ∧ ∀ s : State, exec .lensAttach s = .next { s with fe := { s.fe with lensPresent := true } }

/-! ## The catalog -/

/-- SET_TAGS, PROTECT, HOLD, UNHOLD (R50, R51, R52): NOT_FOUND without a record. SET_TAGS clears, then sets, and takes a rating
of at most 5, 255 leaving it; it is NOT_READY for a DELETING record. PROTECT and HOLD need a STORED one; a first HOLD pins both
contents. An UNHOLD unpins them, here with the raw still wanted by a card; without a hold it only answers. -/
def Obligations.RecordRequests : Prop :=
  (∀ (h : Header) (n : Word) (a b : Half) (rate : Byte) (s : State), reachesOwner (.setTags h n a b rate) h s →
    (s.record n.toNat = none → exec (.setTags h n a b rate) s = .next ((s.atOwner h).refused .setTags h .notFound))
      ∧ ∀ r, s.record n.toNat = some r →
          (r.state = .deleting → exec (.setTags h n a b rate) s = .next ((s.atOwner h).refused .setTags h .notReady))
            ∧ (r.state ≠ .deleting → r.state ≠ .stored ∨ s.ttc.attached = false ∨ s.ttc.armed = false →
                exec (.setTags h n a b rate) s = .next (((s.atOwner h).withRecord n.toNat fun x =>
                  { x with tags := (x.tags &&& ~~~b) ||| a,
                           rating := if rate = 255 then x.rating else min 5 rate.toNat }).answered .setTags h [])))
    ∧ (∀ (h : Header) (n : Word) (action : Byte) (s : State), reachesOwner (.protect h n action) h s →
        (1 < action.toNat → exec (.protect h n action) s = .next (s.refused .protect h .badRequest))
          ∧ (action.toNat ≤ 1 → s.record n.toNat = none →
              exec (.protect h n action) s = .next (s.refused .protect h .notFound))
          ∧ (action.toNat ≤ 1 → ∀ r, s.record n.toNat = some r → exec (.protect h n action) s = .next
              (if r.state = .stored then (s.withRecord n.toNat fun x => { x with guarded := action = 1 }).answered .protect h []
              else s.refused .protect h .notReady)))
    ∧ (∀ (h : Header) (n : Word) (s : State), reachesOwner (.hold h n) h s →
        (s.record n.toNat = none → exec (.hold h n) s = .next (s.refused .hold h .notFound))
          ∧ ∀ r, s.record n.toNat = some r → exec (.hold h n) s = .next
              (if r.state ≠ .stored then s.refused .hold h .notReady
              else if r.hold then s.answered .hold h []
              else (s.withRecord n.toNat fun x =>
                { x with hold := true, rawPins := x.rawPins + 1, proofPins := x.proofPins + 1 }).answered .hold h []))
    ∧ ∀ (h : Header) (n : Word) (s : State), reachesOwner (.unhold h n) h s →
        (s.record n.toNat = none → exec (.unhold h n) s = .next (s.refused .unhold h .notFound))
          ∧ ∀ r, s.record n.toNat = some r →
              (r.hold = false → exec (.unhold h n) s = .next (s.answered .unhold h []))
                ∧ (r.hold = true → s.ptc.read = none → r.state = .stored → r.raw.isSome = true → r.reqA = .queued →
                    exec (.unhold h n) s = .next ((s.withRecord n.toNat fun x =>
                      { x with hold := false, rawPins := x.rawPins - 1, proofPins := x.proofPins - 1 }).answered
                        .unhold h []))

/-- DELETE and what it leaves in flight (R58, R59, R54, R56, R152): refused by the record's state or its protection. A
PROVISIONAL one goes at once, without a notice; a STORED one that nothing holds, wants or reads goes at once too, with
SHOT_RELEASED before the answer. Every other STORED one becomes DELETING with its hold cleared: its READY and WAITING_PROOF
items and its queued card items leave, and what is in flight is marked: a streaming item cut, a card item with a chunk in flight
for abort, a RUNNING job cancelled, a READ stream cut. Unanswered, the request waits for the end of what still runs; it is
answered when the record is gone. A card item marked for abort ends with its chunk, ABORTED unless that was the last, its
requirement WAIVED, and the record is tested: bare of raw and proof it is freed when no job, no card item being written, no item
being sent and no stream refers to it. The slot is then IDLE, or FULL with full-pending set. An order among slots is the model's
choice (log 42), and so is that a completion is that of the chunk in flight (log 48). Its readings are what holds a released raw
up (log 9), that the test of the record follows the steps at once, so that a record with nothing in flight goes with
SHOT_RELEASED before the answer (log 35), and that full-pending stays set in FULL (log 11). -/
def Obligations.Delete : Prop :=
  (∀ (h : Header) (n : Word) (s : State), reachesOwner (.delete h n) h s →
    (s.record n.toNat = none → exec (.delete h n) s = .next (s.refused .delete h .notFound))
      ∧ ∀ r, s.record n.toNat = some r →
          (r.state = .deleting → exec (.delete h n) s = .next (s.refused .delete h .busy))
            ∧ (r.state = .exposing → exec (.delete h n) s = .next (s.refused .delete h .notReady))
            ∧ (r.state = .provisional ∨ r.state = .stored → r.guarded = true →
                exec (.delete h n) s = .next (s.refused .delete h .protectedShot))
            ∧ (r.state = .provisional → r.guarded = false → s.job n.toNat = none → ∀ chain, r.raw = some chain →
                ∃ t, exec (.delete h n) s = .next t ∧ t.cat.records = s.cat.records.filter (fun x => x.shot != n.toNat)
                  ∧ State.followOnKeeps s t ∧ t.ptc.bodyQueue = s.ptc.bodyQueue
                  ∧ t.ptc.bodyOut = s.ptc.bodyOut ++ [.response 0x89 h.tag .ok false []]
                  ∧ (s.chainInUse chain = true → t.fsc = { s.fsc with releasing := s.fsc.releasing ++ [chain] })
                  ∧ (s.chainInUse chain = false → (∀ j, s.currentJob = some j → j.state = .running) →
                      t.fsc = { s.fsc with freeList := s.fsc.freeList ++ chain } ∧ t.dve = s.dve))
            ∧ (r.state = .stored → r.guarded = false → r.hold = false → r.rawPins = 0 → r.proof = none →
                r.reqA.settled = true → r.reqB.settled = true → s.job n.toNat = none →
                (∀ i ∈ s.ttc.queue, i.shot ≠ n.toNat) → s.crw.slotA.writing = none → s.crw.slotB.writing = none →
                s.ptc.read = none → (∀ j, s.currentJob = some j → j.state = .running) →
                ∀ chain, r.raw = some chain → s.chainInUse chain = false →
                exec (.delete h n) s = .next (State.send (State.offer
                  { s with fsc := { s.fsc with freeList := s.fsc.freeList ++ chain }
                           cat := { s.cat with records := s.cat.records.filter fun x => x.shot != n.toNat } } .body
                  (.shotReleased n.toNat true)) .body (.response 0x89 h.tag .ok false [])))
            ∧ (r.state = .stored → r.guarded = false → (∀ i, r.req i = .queued → r.raw.isSome = true) →
                (∀ i, ∀ x ∈ (s.slot i).queue, x.shot = n.toNat → r.req i = .queued) →
                ∃ t, exec (.delete h n) s = .next t ∧ State.followOnKeeps s t
                ∧ (∀ i ∈ t.ttc.queue, i.shot = n.toNat → i.state = .sending ∧ i.cut = .delete)
                ∧ (∀ i, ∀ x ∈ (t.slot i).queue, x.shot ≠ n.toNat)
                ∧ (∀ j, t.job n.toNat = some j → j.state = .running ∧ j.cancel = true)
                ∧ (∀ x, t.ptc.read = some x → x.shot = n.toNat → x.cut = true)
                ∧ (t.record n.toNat = none → .response 0x89 h.tag .ok false [] ∈ t.ptc.bodyOut)
                ∧ ∀ r', t.record n.toNat = some r' → r'.state = .deleting ∧ r'.deleteTag = some h.tag ∧ r'.hold = false
                    ∧ ∀ i, r'.req i ≠ .queued ∧ r'.req i ≠ .failed)
            ∧ (r.state = .stored → r.guarded = false → (s.ttc.queue.map SendItem.serial).Nodup →
                (∀ i ∈ s.ttc.queue, i.shot = n.toNat → ∃ x, i.state = .sending ∧ i.transfer = some x ∧ x.awaiting = false) →
                (∀ i, r.req i ≠ .queued ∧ r.req i ≠ .failed) →
                (∀ i w, (s.slot i).writing = some w → w.item.shot = n.toNat → (s.slot i).chunkInFlight = true) →
                (∀ j, s.job n.toNat = some j → j.state = .running) →
                let less := fun (y : Record) (k : Nat) => if y.hold then k - 1 else k
                let marked := fun (x : Slot) => { x with
                  writing := x.writing.map fun w => if w.item.shot = n.toNat then { w with abort := true } else w }
                let u := State.withRecord { s with
                  ttc := { s.ttc with queue := s.ttc.queue.map fun i => if i.shot = n.toNat then { i with cut := .delete } else i }
                  crw := { s.crw with slotA := marked s.crw.slotA, slotB := marked s.crw.slotB }
                  dve := { s.dve with jobs := s.dve.jobs.map fun j => if j.shot = n.toNat then { j with cancel := true } else j }
                  ptc := { s.ptc with read := s.ptc.read.map fun x => if x.shot = n.toNat then { x with cut := true } else x } }
                  n.toNat fun x => { x with state := .deleting, deleteTag := some h.tag, hold := false,
                                            rawPins := less x x.rawPins, proofPins := less x x.proofPins }
                (r.raw.isSome = true → r.proof = none → less r r.rawPins ≠ 0 ∨ r.reqA.settled = false ∨ r.reqB.settled = false
                    ∨ (s.job n.toNat).isSome = true → exec (.delete h n) s = .next u)
                  ∧ ∀ chain x, r.raw = some chain → r.proof = none → less r r.rawPins = 0 → r.reqA.settled = true →
                      r.reqB.settled = true → s.job n.toNat = none → s.ptc.read = some x → x.shot = n.toNat →
                      s.chainInUse chain = true → exec (.delete h n) s = .next (State.withRecord
                        { u with fsc := { s.fsc with releasing := s.fsc.releasing ++ [chain] } } n.toNat fun y =>
                          { y with raw := none })))
    ∧ (∀ (i : SlotId) (s : State) (o : CardOp) (w : WritingItem), (s.slot i).op = some o → o.kind = .chunk → o.issued = true →
        (s.slot i).state = .writing → (s.slot i).writing = some w → w.abort = true → (s.slot i).blocks = [] →
        let written := w.written + min 2048 (w.item.mode.itemBlocks - w.next * 2048)
        let (status, req) := if w.next + 1 = w.item.mode.itemChunks then (ItemStatus.written, Requirement.written)
          else (.aborted, .waived)
        let ended := testRelease w.item.shot (State.setReq (State.offer
          (s.updSlot i fun y => { y with op := none, writing := none }) .body
          (.cardItemDone w.item.shot i status w.item.mode.itemBlocks written w.fragments)) w.item.shot i req)
        ((s.slot i).queue = [] → (s.slot i).fullPending = false →
            exec (.cardChunkCompletion i) s = .next (ended.updSlot i fun y => { y with state := .idle }))
          ∧ ((s.slot i).fullPending = true → exec (.cardChunkCompletion i) s = .next (migrateFrom i []
              ((ended.updSlot i fun y => { y with state := .full }).offerClass Classes.slotState
                (.slotState i .writing .full (s.slot i).queue.length (s.slot i).pool.length)))))
    ∧ ∀ (shot : Nat) (tag : Byte) (r : Record) (s : State), s.record shot = some r → r.state = .deleting →
        r.deleteTag = some tag → r.raw = none → r.proof = none →
        (s.job shot = none → (∀ i w, (s.slot i).writing = some w → w.item.shot ≠ shot) →
            (∀ i ∈ s.ttc.queue, i.shot = shot → i.state ≠ .sending) → (∀ x, s.ptc.read = some x → x.shot ≠ shot) →
            testRelease shot s = State.send (State.offer
              { s with cat := { s.cat with records := s.cat.records.filter fun x => x.shot != shot } } .body
              (.shotReleased shot true)) .body (.response 0x89 tag .ok false []))
          ∧ ((∃ j, s.job shot = some j) ∨ (∃ i w, (s.slot i).writing = some w ∧ w.item.shot = shot)
              ∨ (∃ i ∈ s.ttc.queue, i.shot = shot ∧ i.state = .sending) ∨ (∃ x, s.ptc.read = some x ∧ x.shot = shot) →
              testRelease shot s = s)

/-- READ_RAW, READ_PROOF, the delivery of a frame and the cut (R66, R67, R52): a shot without record, without hold, with a stream
already open or without the content is refused in that order; an accepted read answers with content, size and frame count and
sends its first frame; each delivery sends the next, and the last one ends the stream, with the test of the record. An UNHOLD
of the shot cuts the stream: the frame being sent is delivered, then an empty one with the next index and the ABORTED flag, and
the stream is over; a chain that waited for its access is free then. With no stream open nothing is delivered. A delivery
takes what stood before it with it (log 1), one frame is in flight at a time (log 25), a delivery with no stream does nothing
(log 4), a cut stream ends as its ABORTED frame is produced and not when that is delivered (log 53), what a chain waits for is the model's reading (log 9), and that the response for a raw has a scale byte, none, is its
choice (log 52). -/
def Obligations.ReadStreams : Prop :=
  (∀ (q : Request) (c : Content) (i : Instr) (h : Header) (n : Word) (s : State),
    (q = .readRaw ∧ c = .raw ∧ i = .readRaw h n ∨ q = .readProof ∧ c = .proof ∧ i = .readProof h n) → reachesOwner i h s →
    (s.record n.toNat = none → exec i s = .next (s.refused q h .notFound))
      ∧ ∀ r, s.record n.toNat = some r →
          (r.hold = false → exec i s = .next (s.refused q h .notHeld))
            ∧ (r.hold = true → s.ptc.read.isSome = true → exec i s = .next (s.refused q h .busy))
            ∧ (r.hold = true → s.ptc.read = none → (c = .raw ∧ r.raw = none ∨ c = .proof ∧ r.proof = none) →
                exec i s = .next (s.refused q h .notReady))
            ∧ (r.hold = true → s.ptc.read = none → ∀ chain total scale, r.readable c = some (chain, total, scale) →
                let frames := (total + 65535) / 65536
                exec i s = .next { s with
                  fsc := { s.fsc with accesses := s.fsc.accesses ++ [{ user := .readStream, chain := chain }] }
                  ptc := { s.ptc with
                    read := some { tag := h.tag, shot := n.toNat, content := c, chain := chain, total := total,
                                   frames := frames, next := 0, cut := false }
                    bodyOut := s.ptc.bodyOut ++
                      [.response (BitVec.ofNat 8 (q.code + 128)) h.tag .ok true
                        (le 1 c.code ++ leOpt 1 scale ++ le 4 total ++ le 2 frames),
                       .frame h.tag 0 (readChain s.dram chain 0 (min 65536 total)) false] } }))
    ∧ (∀ s : State,
        (s.ptc.read = none → exec .readFrameCompletion s = .next s)
          ∧ ∀ x, s.ptc.read = some x →
              let left := s.fsc.accesses.filter fun a => !(a.user == .readStream && a.chain == x.chain)
              let rest := dropThrough (isFrame x.tag x.next) s.ptc.bodyOut
              let ended := fun (f : Fsc) (out : List OutMsg) => exec .readFrameCompletion s = .next (testRelease x.shot
                { s with fsc := f, ptc := { s.ptc with read := none, bodyOut := rest ++ out } })
              let aborted : List OutMsg := [.frame x.tag (x.next + 1) [] true]
              (s.fsc.releasing = [] →
                  (x.cut = false → x.next + 1 < x.frames → exec .readFrameCompletion s = .next { s with
                      fsc := { s.fsc with accesses := left ++ [{ user := .readStream, chain := x.chain }] }
                      ptc := { s.ptc with
                        read := some { x with next := x.next + 1 }
                        bodyOut := rest ++ [.frame x.tag (x.next + 1) (readChain s.dram x.chain ((x.next + 1) * 65536)
                          (min 65536 (x.total - (x.next + 1) * 65536))) false] } })
                    ∧ (x.cut = false → x.next + 1 = x.frames → ended { s.fsc with accesses := left } [])
                    ∧ (x.cut = true → ended { s.fsc with accesses := left } aborted))
                ∧ (x.cut = true → s.fsc.releasing = [x.chain] → (∀ j, s.currentJob = some j → j.state = .running) →
                    State.chainInUse { s with fsc := { s.fsc with accesses := left } } x.chain = false →
                    ended { s.fsc with accesses := left, releasing := [], freeList := s.fsc.freeList ++ x.chain } aborted))
    ∧ ∀ (h : Header) (n : Word) (s : State) (r : Record) (x : ReadStream), reachesOwner (.unhold h n) h s →
        s.record n.toNat = some r → r.hold = true → s.ptc.read = some x → x.shot = n.toNat →
        exec (.unhold h n) s = .next (testRelease n.toNat (State.answered (State.withRecord
          { s with ptc := { s.ptc with read := some { x with cut := true } } } n.toNat fun y =>
            { y with hold := false, rawPins := y.rawPins - 1, proofPins := y.proofPins - 1 }) .unhold h []))

/-! ## Development -/

/-- SET_DEVELOP and LOAD_TONE (R107, R109): a choice outside its values is refused; settings are taken clamped and act on no
existing job. A tone load of 0 or more than 512 entries, beyond entry 4095 or into a table above 3 is refused, then one into
a table that a job names; an accepted one replaces just those entries of just that table. -/
def Obligations.DevelopSettings : Prop :=
  (∀ (h : Header) (o : SettingsOps) (s : State), reachesOwner (.setDevelop h o) h s →
    (3 < o.tone.toNat ∨ 1 < o.scale.toNat ∨ 1 < o.auto.toNat →
        exec (.setDevelop h o) s = .next (s.refused .setDevelop h .badRequest))
      ∧ (o.tone.toNat ≤ 3 → o.scale.toNat ≤ 1 → o.auto.toNat ≤ 1 →
          exec (.setDevelop h o) s = .next (State.answered
            { s with dve := { s.dve with
              settings := { wr := min 16383 o.wr.toNat, wg := min 16383 o.wg.toNat, wb := min 16383 o.wb.toNat,
                            tone := o.tone.toNat, scale := if o.scale = 0 then .half else .quarter }
              auto := o.auto = 1 } } .setDevelop h [])))
    ∧ ∀ (h : Header) (table : Byte) (first count : Half) (es : List Byte) (s : State),
        reachesOwner (.loadTone h table first count es) h s → es.length = count.toNat →
        (count = 0 ∨ 512 < count.toNat ∨ 3 < table.toNat ∨ 4096 < first.toNat + count.toNat →
            exec (.loadTone h table first count es) s = .next (s.refused .loadTone h .badRequest))
          ∧ (count ≠ 0 → count.toNat ≤ 512 → table.toNat ≤ 3 → first.toNat + count.toNat ≤ 4096 →
              ((∃ j ∈ s.dve.jobs, j.params.tone = table.toNat) →
                  exec (.loadTone h table first count es) s = .next (s.refused .loadTone h .tableBusy))
                ∧ ((∀ j ∈ s.dve.jobs, j.params.tone ≠ table.toNat) →
                    let put := fun t : List Byte => t.take first.toNat ++ es ++ t.drop (first.toNat + count.toNat)
                    exec (.loadTone h table first count es) s = .next (State.answered
                      { s with dve := { s.dve with tones := s.dve.tones.modify table.toNat put } } .loadTone h [])))

/-- DEVELOP (R112, R113, R115, R117, R118, R119, R169): its refusals in their order; a new job joins the tail with the record's
snapshot where the operands say nothing, the record's proof is PENDING, a READY PROOF item of the shot waits for it, and the engine
picks; a job that is QUEUED or waits for slabs takes the new parameters and origin and the higher class, is QUEUED, and the engine
picks. An URGENT job that appears, new or risen, sends a NORMAL one that waits for slabs back to QUEUED first. With a job RUNNING
a new job is QUEUED, alone in a NORMAL engine it claims its slabs at once and is RUNNING, or waits for them if they would break
into the capture reserve.

Refused are a presence byte of gains or tone table outside 0 and 1, which are the model's (log 12), a tone table above 3 and a
scale that is neither HALF, QUARTER nor none; gains that are present are clamped to 16383, and what is absent is the snapshot's.

The pick (R117, R118, R120): with a current job, or in HOT, there is none; else the SUSPENDED URGENT job, the oldest QUEUED URGENT
one, and unless it is WARM the SUSPENDED NORMAL job and the oldest QUEUED NORMAL one, in this order, never one that is marked for
cancellation. A SUSPENDED job goes on, a QUEUED one claims its slabs and is RUNNING from stripe 0, or waits for them.

The outcome bytes are the model's (log 18), and the next job number goes on from the one given (log 46). -/
def Obligations.Develop : Prop :=
  ([Mode.full.proofSlabs .half, Mode.full.proofSlabs .quarter, Mode.crop.proofSlabs .half, Mode.crop.proofSlabs .quarter]
      = [8, 2, 4, 1])
  ∧ (∀ s : State,
    let can := fun (st : JobState) (c : Priority) => s.dve.jobs.find? fun j => j.state == st && j.cls == c && !j.cancel
    let order := [can .suspended .urgent, can .queued .urgent]
      ++ if s.dve.applied = .normal then [can .suspended .normal, can .queued .normal] else []
    ((∃ j ∈ s.dve.jobs, j.isCurrent = true) ∨ s.dve.applied = .hot ∨ (∀ x ∈ order, x = none) → pick s = s)
      ∧ ∀ j, (∀ x ∈ s.dve.jobs, x.isCurrent = false) → s.dve.applied ≠ .hot → order.findSome? id = some j →
          let k := j.mode.proofSlabs j.params.scale
          let begun : Progress := { chain := s.fsc.freeList.take k, next := 0, clipCount := 0, histogram := List.replicate 64 0 }
          let jobs := fun (f : Job → Job) => s.dve.jobs.map fun x => if x.shot = j.shot then f x else x
          (j.state = .suspended → pick s = { s with dve := { s.dve with jobs := jobs fun x => { x with state := .running } } })
            ∧ (j.state = .queued → s.fsc.configured = true → s.fsc.reserve + k ≤ s.fsc.freeList.length → pick s = { s with
                fsc := { s.fsc with freeList := s.fsc.freeList.drop k }
                dve := { s.dve with jobs := jobs fun x => { x with state := .running, progress := some begun } } })
            ∧ (j.state = .queued → s.fsc.configured = false ∨ s.fsc.freeList.length < s.fsc.reserve + k → pick s =
                { s with dve := { s.dve with jobs := jobs fun x => { x with state := .waitSlabs } } }))
  ∧ (∀ (o : DevelopOps) (snapshot : DevelopParams),
      (developChoices o = true ↔ (o.cls = 0 ∨ o.cls = 1) ∧ (o.gainsPresent = 0 ∨ o.gainsPresent = 1)
        ∧ (o.tonePresent = 0 ∨ o.tonePresent = 1) ∧ (o.tonePresent = 1 → o.tone.toNat ≤ 3)
        ∧ (o.scale = 0 ∨ o.scale = 1 ∨ o.scale = 0xFF))
      ∧ (developChoices o = true → readDevelop o snapshot = some {
          wr := if o.gainsPresent = 1 then min 16383 o.wr.toNat else snapshot.wr
          wg := if o.gainsPresent = 1 then min 16383 o.wg.toNat else snapshot.wg
          wb := if o.gainsPresent = 1 then min 16383 o.wb.toNat else snapshot.wb
          tone := if o.tonePresent = 1 then o.tone.toNat else snapshot.tone
          scale := if o.scale = 0 then .half else if o.scale = 1 then .quarter else snapshot.scale }))
  ∧ ∀ (h : Header) (o : DevelopOps) (s : State), reachesOwner (.develop h o) h s →
    let origin : JobOrigin := if h.port = .tether then .tether else .body
    (readPriority o.cls = none ∨ developChoices o = false →
        exec (.develop h o) s = .next ((s.atOwner h).refused .develop h .badRequest))
      ∧ ∀ cls, readPriority o.cls = some cls → developChoices o = true →
          (s.record o.shot.toNat = none → exec (.develop h o) s = .next ((s.atOwner h).refused .develop h .notFound))
            ∧ ∀ r, s.record o.shot.toNat = some r →
                (r.state ≠ .stored ∨ r.raw = none →
                    exec (.develop h o) s = .next ((s.atOwner h).refused .develop h .notReady))
                  ∧ ∀ params, r.state = .stored → r.raw.isSome = true → readDevelop o r.snapshot = some params →
                      (∀ j, s.job o.shot.toNat = some j → j.state = .running ∨ j.state = .suspended →
                          exec (.develop h o) s = .next ((s.atOwner h).refused .develop h .developBusy))
                        ∧ ((∀ j, s.job o.shot.toNat = some j → j.state = .queued ∨ j.state = .waitSlabs) →
                            s.proofSending o.shot.toNat = true →
                            exec (.develop h o) s = .next ((s.atOwner h).refused .develop h .proofBusy))
                        ∧ (s.job o.shot.toNat = none → s.proofSending o.shot.toNat = false → 32 ≤ s.dve.jobs.length →
                            exec (.develop h o) s = .next ((s.atOwner h).refused .develop h .queueFull))
                        ∧ (s.job o.shot.toNat = none → s.itemFor o.shot.toNat .proof = none → s.dve.jobs.length < 32 →
                            let number := s.newJobNumber
                            let job : Job := { number := number, shot := o.shot.toNat, mode := r.mode, params := params,
                                               cls := cls, origin := origin, state := .queued, cancel := false,
                                               progress := none }
                            let made := ((s.atOwner h).answered .develop h
                              (le 2 number ++ [1, BitVec.ofNat 8 cls.code])).withRecord o.shot.toNat fun x =>
                                { x with proofState := .pending }
                            (∀ c, s.currentJob = some c → c.state = .running → exec (.develop h o) s = .next
                                { made with dve := { s.dve with jobs := s.dve.jobs ++ [job],
                                                                nextJob := (number + 1) % 65536 } })
                              ∧ (s.dve.jobs = [] → s.dve.applied = .normal → s.fsc.configured = true →
                                  let k := r.mode.proofSlabs params.scale
                                  let begun : Progress := { chain := s.fsc.freeList.take k, next := 0, clipCount := 0,
                                                            histogram := List.replicate 64 0 }
                                  (s.fsc.reserve + k ≤ s.fsc.freeList.length → exec (.develop h o) s = .next
                                      { made with
                                        fsc := { s.fsc with freeList := s.fsc.freeList.drop k }
                                        dve := { s.dve with
                                          jobs := [{ job with state := .running, progress := some begun }]
                                          nextJob := (number + 1) % 65536 } })
                                    ∧ (s.fsc.freeList.length < s.fsc.reserve + k → exec (.develop h o) s = .next
                                        { made with dve := { s.dve with
                                          jobs := [{ job with state := .waitSlabs }]
                                          nextJob := (number + 1) % 65536 } })))
                        ∧ (developLaw s → sendLaw s → s.job o.shot.toNat = none → s.proofSending o.shot.toNat = false →
                            s.dve.jobs.length < 32 →
                            let number := s.newJobNumber
                            let job : Job := { number := number, shot := o.shot.toNat, mode := r.mode, params := params,
                                               cls := cls, origin := origin, state := .queued, cancel := false,
                                               progress := none }
                            let yielding := s.dve.jobs.map fun x =>
                              if cls = .urgent ∧ x.state = .waitSlabs ∧ x.cls = .normal then { x with state := .queued } else x
                            let waits := s.ttc.queue.map fun x =>
                              if x.shot = o.shot.toNat ∧ x.content = .proof ∧ x.state = .ready then
                                { x with state := .waitingProof } else x
                            let made := ((s.atOwner h).answered .develop h
                              (le 2 number ++ [1, BitVec.ofNat 8 cls.code])).withRecord o.shot.toNat fun x =>
                                { x with proofState := .pending }
                            exec (.develop h o) s = .next (pick { made with
                              dve := { s.dve with jobs := yielding ++ [job], nextJob := (number + 1) % 65536 }
                              ttc := { made.ttc with queue := waits } }))
                        ∧ (∀ j, developLaw s → s.job o.shot.toNat = some j → j.state = .queued ∨ j.state = .waitSlabs →
                            s.proofSending o.shot.toNat = false →
                            let best : Priority := if cls = .urgent then .urgent else j.cls
                            let risen := j.cls = .normal ∧ cls = .urgent
                            let made := (s.atOwner h).answered .develop h (le 2 j.number ++ [0, BitVec.ofNat 8 best.code])
                            exec (.develop h o) s = .next (pick { made with dve := { s.dve with
                              jobs := s.dve.jobs.map fun x => if x.shot = o.shot.toNat then
                                { x with params := params, cls := best, origin := origin, state := .queued }
                                else if risen ∧ x.state = .waitSlabs ∧ x.cls = .normal then { x with state := .queued }
                                else x } }))
                        ∧ (∀ j c, s.job o.shot.toNat = some j → j.state = .queued → s.proofSending o.shot.toNat = false →
                            s.currentJob = some c → c.state = .running → c.shot ≠ o.shot.toNat →
                            let made := (s.atOwner h).answered .develop h
                              (le 2 j.number ++ [0, BitVec.ofNat 8 (j.cls.higher cls).code])
                            exec (.develop h o) s = .next { made with dve := { s.dve with
                              jobs := s.dve.jobs.map fun x => if x.shot = o.shot.toNat then
                                { x with params := params, cls := j.cls.higher cls, origin := origin, state := .queued }
                                else x } })

/-- STRIPE_COMPLETION (R45, R67, R116, R120 to R123, R128 to R130, R169): with no job RUNNING nothing happens, the model's choice
(log 4). The stripe's pixels go to its place in the proof's chain; every byte outside that place is as before; the progress is one
stripe further, its clip count by the quads of the stripe with a raw sample at or above the record's clip level, each bin of its
histogram by the pixels of that luminance. In the middle of a job that nothing preempts that is all; a job that is preempted is
SUSPENDED with its progress, and the engine picks. A NORMAL job meets a QUEUED URGENT one: it is SUSPENDED, and the other claims its
slabs and is RUNNING, or waits for them. A thermal state kept back is applied first: HOT suspends the job and lets none go on.

The last stripe gives the record its done proof in place of an older one, whose chain is released and whose READ_PROOF is cut, tests
the record, and offers PROOF_DONE; the shot's WAITING_PROOF item becomes READY, with ITEMS_READY when no other is READY, or is
dropped by the clip test; then the engine picks. A suspended NORMAL job then goes on from where it stood, without a claim.

A cancelled job ends with the stripe in flight: its partial chain is free again, and a DELETE that waited for it frees raw and
record and is answered. When the stripe is carried out is the model's choice (log 22), and what holds a chain up is its reading
(log 9). -/
def Obligations.Stripe : Prop :=
  ∀ s : State,
    ((∀ j ∈ s.dve.jobs, j.state ≠ .running) → exec .stripeCompletion s = .next s)
      ∧ ∀ (j : Job) (p : Progress) (r : Record), s.dve.jobs.find? (fun x => x.state == .running) = some j →
          j.progress = some p → s.record j.shot = some r →
          let done := (carryStripe j r p s.dve s.dram).2
          let proof : DoneProof := { params := j.params, chain := p.chain, clipCount := done.clipCount,
                                     histogram := done.histogram }
          let size := j.params.scale.stripeRows * j.params.scale.columns j.mode * 3
          let dram := writeChain s.dram p.chain (p.next * size)
            (pixelBytes (stripePixels s.dram (r.raw.getD []) j.mode (recipeOf j r s.dve) p.next))
          let going := s.dve.jobs.map fun x => if x.shot = j.shot then { x with progress := some done } else x
          let halted := s.dve.jobs.map fun x =>
            if x.shot = j.shot then { x with state := .suspended, progress := some done } else x
          let applied := s.dve.pendingThermal.getD s.dve.applied
          let goes := { s with dram := dram, dve := { s.dve with jobs := going, applied := applied, pendingThermal := none } }
          let sample := fun (x y : Nat) => quadSamples s.dram (r.raw.getD []) j.mode x (32 * p.next + y)
          let clipped := fun (x y : Nat) => r.clip ≤ (sample x y).1 ∨ r.clip ≤ (sample x y).2.1 ∨ r.clip ≤ (sample x y).2.2.1
            ∨ r.clip ≤ (sample x y).2.2.2
          let pixels := stripePixels s.dram (r.raw.getD []) j.mode (recipeOf j r s.dve) p.next
          done.next = p.next + 1 ∧ done.chain = p.chain
            ∧ done.clipCount = p.clipCount
              + ∑ y ∈ Finset.range 32, ((Finset.range (quadColumns j.mode)).filter fun x => clipped x y).card
            ∧ (p.histogram.length = 64 → done.histogram.length = 64
                ∧ done.histogram.sum = p.histogram.sum + j.params.scale.stripeRows * j.params.scale.columns j.mode
                ∧ ∀ k, k < 64 → done.histogram[k]? = (p.histogram[k]?).map fun n =>
                    n + (pixels.filter fun x => (77 * x.red + 150 * x.green + 29 * x.blue + 128) / 256 / 4 == k).length)
            ∧ (∀ a, (∀ i, i < size → chainAddr p.chain (p.next * size + i) ≠ some a) → Memory.read dram a = s.dram.read a)
            ∧ (s.dve.pendingThermal = none → j.cancel = false → p.next + 1 ≠ j.mode.stripes → s.dve.applied ≠ .hot →
                (j.cls = .normal → s.dve.applied = .normal
                  ∧ ∀ x ∈ s.dve.jobs, x.cls = .urgent → x.state ≠ .queued ∧ x.state ≠ .suspended) →
                exec .stripeCompletion s = .next { s with dram := dram, dve := { s.dve with jobs := going } })
            ∧ ((∀ x ∈ s.dve.jobs, x.state ≠ .waitSlabs) → j.cancel = false → p.next + 1 ≠ j.mode.stripes →
                let preempted := applied = .hot ∨ j.cls = .normal ∧ (applied = .warm
                  ∨ ∃ x ∈ s.dve.jobs, x.cls = .urgent ∧ (x.state = .queued ∨ x.state = .suspended))
                (preempted → exec .stripeCompletion s = .next (pick { goes with dve := { goes.dve with jobs := halted } }))
                  ∧ (¬ preempted → exec .stripeCompletion s = .next goes))
            ∧ ((∀ x ∈ s.dve.jobs, x.state ≠ .waitSlabs) → j.cancel = false → p.next + 1 = j.mode.stripes →
                let ended := { goes with
                  dve := { goes.dve with jobs := going.filter fun x => x.shot != j.shot }
                  cat := { s.cat with records := s.cat.records.map fun x =>
                    if x.shot = j.shot then { x with proofState := .done, proof := some proof } else x } }
                let replaced := match r.proof with
                  | none => ended
                  | some old => { ended with
                      ptc := { s.ptc with read := s.ptc.read.map fun x =>
                        if x.shot = j.shot ∧ x.content = .proof then { x with cut := true } else x }
                      fsc := if ended.chainInUse old.chain then { s.fsc with releasing := s.fsc.releasing ++ [old.chain] }
                        else { s.fsc with freeList := s.fsc.freeList ++ old.chain } }
                let told := State.offer (testRelease j.shot replaced) .body (.proofDone j.shot j.number j.origin
                  j.params.scale j.params.tone done.clipCount j.mode.quads done.histogram)
                ((∀ i, s.itemFor j.shot .proof = some i → i.state ≠ .waitingProof) →
                    exec .stripeCompletion s = .next (pick told))
                  ∧ ∀ i, s.itemFor j.shot .proof = some i → i.state = .waitingProof →
                      (done.clipCount * 1000 ≤ i.maxClip * j.mode.quads →
                          let risen := { told with ttc := { s.ttc with queue := s.ttc.queue.map fun x =>
                            if x.serial = i.serial then { x with state := .ready } else x } }
                          exec .stripeCompletion s = .next (pick
                            (if ∃ x ∈ s.ttc.queue, x.serial ≠ i.serial ∧ x.state = .ready then risen
                            else risen.offer .tether (.itemsReady i.serial s.ttc.queue.length))))
                        ∧ (i.maxClip * j.mode.quads < done.clipCount * 1000 →
                            exec .stripeCompletion s = .next (pick (testRelease j.shot (State.withRecord
                              { told with ttc := { s.ttc with queue := s.queueWithout i.serial } } j.shot fun x =>
                                { x with proofPins := x.proofPins - 1, markProof := .dropped })))))
            ∧ (∀ before u after, s.dve.pendingThermal = none → j.cancel = false → p.next + 1 ≠ j.mode.stripes →
                j.cls = .normal → s.dve.applied = .normal → s.fsc.configured = true → s.dve.jobs = before ++ u :: after →
                u.cls = .urgent → u.state = .queued → u.cancel = false → (s.dve.jobs.map Job.shot).Nodup →
                (∀ x ∈ before, x.cls = .urgent → x.state ≠ .queued) → (∀ x ∈ s.dve.jobs, x.state ≠ .waitSlabs
                  ∧ (x.state = .running → x.shot = j.shot) ∧ (x.cls = .urgent → x.state ≠ .suspended)) →
                let k := u.mode.proofSlabs u.params.scale
                let begun : Progress := { chain := s.fsc.freeList.take k, next := 0, clipCount := 0,
                                          histogram := List.replicate 64 0 }
                (s.fsc.reserve + k ≤ s.fsc.freeList.length → exec .stripeCompletion s = .next { s with
                    dram := dram
                    fsc := { s.fsc with freeList := s.fsc.freeList.drop k }
                    dve := { s.dve with jobs := halted.map fun x =>
                      if x.shot = u.shot then { x with state := .running, progress := some begun } else x } })
                  ∧ (s.fsc.freeList.length < s.fsc.reserve + k → exec .stripeCompletion s = .next { s with
                      dram := dram
                      dve := { s.dve with jobs := halted.map fun x =>
                        if x.shot = u.shot then { x with state := .waitSlabs } else x } }))
            ∧ (s.dve.pendingThermal = some .hot → j.cancel = false → p.next + 1 ≠ j.mode.stripes →
                (∀ x ∈ s.dve.jobs, x.state ≠ .waitSlabs ∧ (x.state = .running → x.shot = j.shot)) →
                exec .stripeCompletion s = .next { s with
                  dram := dram, dve := { s.dve with jobs := halted, applied := .hot, pendingThermal := none } })
            ∧ (∀ rest, s.dve.pendingThermal = none → j.cancel = false → p.next + 1 = j.mode.stripes → s.dve.jobs = rest ++ [j] →
                rest = [] ∨ (∃ n, rest = [n] ∧ n.state = .suspended ∧ n.cls = .normal ∧ n.cancel = false ∧ n.shot ≠ j.shot
                  ∧ s.dve.applied = .normal) →
                r.proof = none → r.state = .stored → r.raw.isSome = true → r.rawPins ≠ 0 → s.itemFor j.shot .proof = none →
                exec .stripeCompletion s = .next (State.offer { s with
                    dram := dram
                    dve := { s.dve with jobs := rest.map fun n => { n with state := .running } }
                    cat := { s.cat with records := s.cat.records.map fun x => if x.shot = j.shot then
                      { x with proofState := .done, proof := some proof } else x } } .body
                  (.proofDone j.shot j.number j.origin j.params.scale j.params.tone done.clipCount j.mode.quads
                    done.histogram)))
            ∧ ∀ chain tag, s.dve.pendingThermal = none → j.cancel = true → s.dve.jobs = [j] → r.state = .deleting →
                r.deleteTag = some tag → r.proof = none → r.raw = some chain → r.rawPins = 0 → r.reqA.settled = true →
                r.reqB.settled = true → s.crw.slotA.writing = none → s.crw.slotB.writing = none →
                (∀ i ∈ s.ttc.queue, i.shot ≠ j.shot) → s.ptc.read = none → s.fsc.accesses = [] → s.siu.frame = none →
                s.siu.ended = [] → exec .stripeCompletion s = .next (State.send (State.offer { s with
                    dram := dram
                    fsc := { s.fsc with freeList := s.fsc.freeList ++ p.chain ++ chain }
                    dve := { s.dve with jobs := [] }
                    cat := { s.cat with records := s.cat.records.filter fun x => x.shot != j.shot } } .body
                  (.shotReleased j.shot true)) .body (.response 0x89 tag .ok false []))

/-- The arithmetic of a quad (R124 to R128, R200). Its four samples stand at raw rows 2j and 2j + 1, columns 2i and 2i + 1, unpacked
from their groups. BL is taken off each, at least 0 left; the greens are averaged, a half rounded up; each channel times its
gain is scaled by 1024 with rounding and limited to 65,535; a quad with a raw sample at or above the clip level takes its
greatest channel for all three; the tone table gives the output at the channel over 16. A half-scale pixel is the quad, a
quarter-scale one the rounded mean of four. So a gain of 1024 leaves a channel as it is, every output is a byte, a clipped quad
is neutral, a quarter pixel lies between its quads, and each pixel counts once, in the bin of its luminance over 4: the 10,838,016
of a half FULL proof, 2,709,504 of a quarter one, 4,816,896 and 1,204,224 of the CROP ones. -/
def Obligations.QuadArithmetic : Prop :=
  ([proofPixels .full .half Mode.full.stripes, proofPixels .full .quarter Mode.full.stripes,
      proofPixels .crop .half Mode.crop.stripes, proofPixels .crop .quarter Mode.crop.stripes]
      = [10838016, 2709504, 4816896, 1204224])
    ∧ (∀ v, v ≤ 65535 → balance v 1024 = v)
    ∧ (∀ (x : Recipe) (r g1 g2 b : Nat),
        let scaled := fun (v gain : Nat) => min 65535 ((v * gain + 512) / 1024)
        let tone := fun (v : Nat) => (x.tone.getD (v / 16) 0).toNat
        let red := scaled (r - x.bl) x.params.wr
        let green := scaled (((g1 - x.bl) + (g2 - x.bl) + 1) / 2) x.params.wg
        let blue := scaled (b - x.bl) x.params.wb
        let top := tone (max red (max green blue))
        let q := developQuad x r g1 g2 b
        q.red ≤ 255 ∧ q.green ≤ 255 ∧ q.blue ≤ 255
          ∧ (x.clip ≤ r ∨ x.clip ≤ g1 ∨ x.clip ≤ g2 ∨ x.clip ≤ b → q = { red := top, green := top, blue := top })
          ∧ (r < x.clip → g1 < x.clip → g2 < x.clip → b < x.clip →
              q = { red := tone red, green := tone green, blue := tone blue }))
    ∧ (∀ (d : Memory) (chain : List Nat) (m : Mode) (x : Recipe) (i j : Nat),
        let v := fun (row col : Nat) => unpackSample (readChain d chain (row * m.rowBytes + col / 4 * 7) 7) (col % 4)
        let q := fun (i j : Nat) =>
          developQuad x (v (2 * j) (2 * i)) (v (2 * j) (2 * i + 1)) (v (2 * j + 1) (2 * i)) (v (2 * j + 1) (2 * i + 1))
        let mean := fun (c : Rgb → Nat) => (c (q (2 * i) (2 * j)) + c (q (2 * i + 1) (2 * j)) + c (q (2 * i) (2 * j + 1))
          + c (q (2 * i + 1) (2 * j + 1)) + 2) / 4
        (x.params.scale = .half → proofPixel d chain m x i j = q i j)
          ∧ (x.params.scale = .quarter → proofPixel d chain m x i j =
              { red := mean Rgb.red, green := mean Rgb.green, blue := mean Rgb.blue }))
    ∧ (∀ (a b c d : Sample) (k : Nat), k < 4 → unpackSample (packGroup a b c d) k = ([a, b, c, d].getD k 0).toNat)
    ∧ (∀ a b c d lo hi : Nat, lo ≤ a → a ≤ hi → lo ≤ b → b ≤ hi → lo ≤ c → c ≤ hi → lo ≤ d → d ≤ hi →
        lo ≤ mean4 a b c d ∧ mean4 a b c d ≤ hi)
    ∧ ∀ (bins : List Nat) (p : Rgb), bins.length = 64 → p.red ≤ 255 → p.green ≤ 255 → p.blue ≤ 255 →
        luminance p = (77 * p.red + 150 * p.green + 29 * p.blue + 128) / 256 ∧ luminance p ≤ 255
          ∧ (∀ k, k < 64 → (countPixel bins p).getD k 0 = bins.getD k 0 + if luminance p / 4 = k then 1 else 0)
          ∧ (countPixel bins p).length = 64 ∧ (countPixel bins p).sum = bins.sum + 1

/-! ## Card slots -/

/-- OPEN_SLOT, CLOSE_SLOT, SLOT_FULL (R133, R135, R136, R137, R143): refused for a slot byte that names no slot, then by the slot's
state. A PRESENT slot opens with an empty pool, IDLE, or on to WAIT_EXTENTS when an item waits; a slot at rest closes to PRESENT;
SLOT_FULL empties the pool on acceptance and makes a slot at rest FULL; of one that writes it sets full-pending (what that does
at the end of the item is said with the chunk events and with DELETE). Each change but IDLE to WRITING and back is noticed, if
its class is enabled. What moves to slot B when overflow is in force is said of migration by itself. That opening and closing
keep which kind the arbiter took last is the model's reading (log 26). -/
def Obligations.SlotRequests : Prop :=
  (∀ (h : Header) (b : Byte) (s : State), reachesOwner (.openSlot h b) h s →
    (1 < b.toNat → exec (.openSlot h b) s = .next (s.refused .openSlot h .badRequest))
      ∧ ∀ i, readSlot b = some i →
          ((s.slot i).state ≠ .present → exec (.openSlot h b) s = .next (s.refused .openSlot h .slotState))
            ∧ ((s.slot i).state = .present →
                let opened := State.answered ((s.updSlot i fun x =>
                  { x with state := .idle, pool := [], fullPending := false }).offerClass Classes.slotState
                    (.slotState i .present .idle (s.slot i).queue.length 0)) .openSlot h []
                ((s.slot i).queue = [] → exec (.openSlot h b) s = .next opened)
                  ∧ ((s.slot i).queue ≠ [] → exec (.openSlot h b) s = .next
                      ((opened.updSlot i fun x => { x with state := .waitExtents }).offerClass Classes.slotState
                        (.slotState i .idle .waitExtents (s.slot i).queue.length 0)))))
    ∧ (∀ (h : Header) (b : Byte) (s : State), 1 < b.toNat →
        (reachesOwner (.closeSlot h b) h s → exec (.closeSlot h b) s = .next (s.refused .closeSlot h .badRequest))
          ∧ (reachesOwner (.slotFull h b) h s → exec (.slotFull h b) s = .next (s.refused .slotFull h .badRequest)))
    ∧ (∀ (h : Header) (b : Byte) (s : State) (i : SlotId), reachesOwner (.closeSlot h b) h s → readSlot b = some i →
        ((s.slot i).state = .absent ∨ (s.slot i).state = .present →
            exec (.closeSlot h b) s = .next (s.refused .closeSlot h .slotState))
          ∧ ((s.slot i).state = .writing → exec (.closeSlot h b) s = .next (s.refused .closeSlot h .busy))
          ∧ ((s.slot i).state = .idle ∨ (s.slot i).state = .waitExtents ∨ (s.slot i).state = .full
                ∨ (s.slot i).state = .fault →
              exec (.closeSlot h b) s = .next (if (s.slot i).blocks = [] then
                State.answered ((s.updSlot i fun x =>
                  { x with state := .present, pool := [], fullPending := false }).offerClass Classes.slotState
                    (.slotState i (s.slot i).state .present (s.slot i).queue.length 0)) .closeSlot h []
              else s.refused .closeSlot h .busy)))
    ∧ ∀ (h : Header) (b : Byte) (s : State) (i : SlotId), reachesOwner (.slotFull h b) h s → readSlot b = some i →
        ((s.slot i).state.isOpen = false → exec (.slotFull h b) s = .next (s.refused .slotFull h .slotState))
          ∧ ((s.slot i).state = .writing → exec (.slotFull h b) s = .next (State.answered
              (s.updSlot i fun x => { x with pool := [], fullPending := true }) .slotFull h []))
          ∧ ((s.slot i).state = .full → exec (.slotFull h b) s = .next (State.answered
              (s.updSlot i fun x => { x with pool := [] }) .slotFull h []))
          ∧ ((s.slot i).state = .idle ∨ (s.slot i).state = .waitExtents →
              exec (.slotFull h b) s = .next (migrateFrom i [] ((State.answered
                (s.updSlot i fun x => { x with pool := [], state := .full }) .slotFull h []).offerClass Classes.slotState
                  (.slotState i (s.slot i).state .full (s.slot i).queue.length 0))))

/-- GRANT_EXTENTS and the start of a head item (R141, R142, R143, R145): a grant's refusals in their order; an accepted one joins
the tail of the pool and is answered, and in WAIT_EXTENTS the head item is tried. The fragments of an item are taken from the
head of the pool, whole extents in their order but for the last, of which the first blocks are taken and the rest stays at the
pool's head; at most 8 of them, the need covered exactly; there are none when the first 8 extents hold too little. A head item
with fragments is written from then on: out of the queue, its requirement WRITING, the slot WRITING, with a notice out of
WAIT_EXTENTS, and with no operation in flight and no block request the reads of its first chunk begin. One without leaves the
slot in WAIT_EXTENTS. -/
def Obligations.GrantExtents : Prop :=
  (∀ (h : Header) (b count : Byte) (ops : List ExtentOps) (s : State), reachesOwner (.grantExtents h b count ops) h s →
    ops.length = count.toNat →
    let es : List Extent := ops.map fun e => { first := e.first.toNat, count := e.count.toNat }
    let refusal := fun (x : Result) => exec (.grantExtents h b count ops) s = .next (s.refused .grantExtents h x)
    (1 < b.toNat ∨ count = 0 ∨ 8 < count.toNat ∨ (∃ e ∈ es, e.count = 0 ∨ 4294967296 < e.first + e.count) →
        refusal .badRequest)
      ∧ ∀ i, readSlot b = some i → count ≠ 0 → count.toNat ≤ 8 →
          (∀ e ∈ es, 0 < e.count ∧ e.first + e.count ≤ 4294967296) →
          let x := s.slot i
          let open' := (x.state = .idle ∨ x.state = .writing ∨ x.state = .waitExtents) ∧ x.fullPending = false
          let granted' := State.answered (s.updSlot i fun y => { y with pool := y.pool ++ es }) .grantExtents h []
          (¬ open' → refusal .slotState)
            ∧ (open' → (∃ e ∈ es, e.count < 16384) → refusal .extentSmall)
            ∧ (open' → (∀ e ∈ es, 16384 ≤ e.count) → disjointExtents es = false ∨ (∃ e ∈ es, ∃ t ∈ x.taken, e.overlaps t = true) →
                refusal .overlap)
            ∧ (open' → (∀ e ∈ es, 16384 ≤ e.count) → disjointExtents es = true →
                (∀ e ∈ es, ∀ t ∈ x.taken, e.overlaps t = false) →
                (32 < x.pool.length + es.length → refusal .poolFull)
                  ∧ (x.pool.length + es.length ≤ 32 → exec (.grantExtents h b count ops) s = .next
                      (if x.state = .waitExtents then tryHead i granted' else granted'))))
    ∧ (∀ x y : Extent, 0 < x.count → 0 < y.count →
        (x.overlaps y = true ↔ ∃ k, x.first ≤ k ∧ k < x.first + x.count ∧ y.first ≤ k ∧ k < y.first + y.count))
    ∧ (∀ (limit need : Nat) (pool : List Extent),
        (buildFragments limit pool need = none ↔ ((pool.take limit).map Extent.count).sum < need)
          ∧ ∀ fs rest, buildFragments limit pool need = some (fs, rest) →
              fs.length ≤ limit ∧ (fs.map Extent.count).sum = need
                ∧ ∃ k, fs = pool.take k ∧ rest = pool.drop k
                    ∨ ∃ e n, pool[k]? = some e ∧ 0 < n ∧ n < e.count ∧ fs = pool.take k ++ [{ first := e.first, count := n }]
                        ∧ rest = { first := e.first + n, count := e.count - n } :: pool.drop (k + 1))
    ∧ ∀ (i : SlotId) (s : State) (item : CardItem) (rest : List CardItem),
        let x := s.slot i
        x.state = .idle ∨ x.state = .waitExtents → x.queue = item :: rest →
        (buildFragments 8 x.pool item.mode.itemBlocks = none → tryHead i s =
            if x.state = .waitExtents then s else (s.updSlot i fun y => { y with state := .waitExtents }).offerClass
              Classes.slotState (.slotState i .idle .waitExtents (rest.length + 1) x.pool.length))
          ∧ ∀ fs left r chain, buildFragments 8 x.pool item.mode.itemBlocks = some (fs, left) →
              s.record item.shot = some r → r.raw = some chain →
              let w : WritingItem := { item := item, fragments := fs, next := 0, written := 0, abort := false }
              let taken := (s.updSlot i fun y => { y with queue := rest, pool := left, writing := some w, state := .writing }).setReq
                item.shot i .writing
              let told := if x.state = .waitExtents then taken.offerClass Classes.slotState
                (.slotState i .waitExtents .writing rest.length left.length) else taken
              (x.op.isSome = true → tryHead i s = told)
                ∧ (x.op = none → x.blocks = [] → tryHead i s = State.updSlot
                    { told with fsc := { s.fsc with accesses := s.fsc.accesses ++ [{ user := .card i, chain := chain }] } } i
                    fun y => { y with
                      lastWasBlock := false
                      op := some { kind := .chunk, issued := false, timer := s.crw.stallLimit, runs := chunkRuns w,
                                   payload := chunkBytes w told } })

/-- BLOCK_READ, BLOCK_WRITE, their completion and the arbiter (R146, R147, R148, R187): the range, the slot's state, four
requests at most, no write into a pool or a fragment. At a slot at rest the request is issued at once with the stall timer;
while an operation is in flight it waits. A completion answers the oldest request, a read with its blocks in one DATA frame, and
the arbiter takes what is ready then. With both kinds ready, chunk and block request alternate. A completion with no operation
in flight changes nothing: after a fault or a removal none is awaited (R149, R150, R132), and the model takes any other so (log
4); every other completion is taken as that of the operation in flight (log 48). -/
def Obligations.BlockRequests : Prop :=
  (∀ (c : Instr) (q : Request) (h : Header) (b : Byte) (first : Word) (n : Byte) (data : List Byte) (s : State) (i : SlotId),
    (c = .blockRead h b first n ∧ q = .blockRead ∧ data = [] ∨ c = .blockWrite h b first n
      (some { tag := h.tag, chunk := 0, payload := data }) ∧ q = .blockWrite ∧ data.length = n.toNat * 512) →
    reachesOwner c h s → readSlot b = some i →
    let x := s.slot i
    let req : BlockRequest := { write := q == .blockWrite, tag := h.tag, first := first.toNat, count := n.toNat,
                                payload := data }
    (n = 0 ∨ 64 < n.toNat ∨ 4294967296 < first.toNat + n.toNat → exec c s = .next (s.refused q h .badRequest))
      ∧ (n ≠ 0 → n.toNat ≤ 64 → first.toNat + n.toNat ≤ 4294967296 →
          (x.state.isOpen = false → exec c s = .next (s.refused q h .slotState))
            ∧ (x.state.isOpen = true → 4 ≤ x.blocks.length → exec c s = .next (s.refused q h .busy))
            ∧ (x.state.isOpen = true → x.blocks.length < 4 → q = .blockWrite →
                (∃ e ∈ x.taken, e.overlaps { first := first.toNat, count := n.toNat } = true) →
                exec c s = .next (s.refused q h .overlap))
            ∧ (x.state.isOpen = true → x.blocks.length < 4 →
                (q = .blockWrite → ∀ e ∈ x.taken, e.overlaps { first := first.toNat, count := n.toNat } = false) →
                (x.op.isSome = true → exec c s = .next (s.updSlot i fun y => { y with blocks := y.blocks ++ [req] }))
                  ∧ (x.op = none → x.blocks = [] → x.writing = none → exec c s = .next (s.updSlot i fun y => { y with
                      blocks := [req], lastWasBlock := true
                      op := some { kind := if q = .blockWrite then .blockWrite else .blockRead, issued := true,
                                   timer := s.crw.stallLimit, runs := [{ first := first.toNat, count := n.toNat }],
                                   payload := data } })))))
    ∧ (∀ (h : Header) (b : Byte) (first : Word) (n : Byte) (s : State), reachesOwner (.blockWrite h b first n none) h s →
        exec (.blockWrite h b first n none) s = .next (s.refused .blockWrite h .badRequest))
    ∧ (∀ (i : SlotId) (bytes : List Byte) (s : State),
        ((s.slot i).op = none → exec (.blockRequestCompletion i bytes) s = .next s)
          ∧ ∀ o req, (s.slot i).op = some o → o.kind ≠ .chunk → o.issued = true → (s.slot i).blocks = [req] →
              (s.slot i).writing = none → (req.write = false → bytes.length = req.count * 512) →
              let freed := s.updSlot i fun y => { y with op := none, blocks := [] }
              exec (.blockRequestCompletion i bytes) s = .next (if req.write then
                  freed.send .body (.response 0x82 req.tag .ok false [])
                else (freed.send .body (.response 0x81 req.tag .ok true [])).send .body (.frame req.tag 0 bytes false)))
    ∧ (∀ (i : SlotId) (bytes : List Byte) (s : State) (o : CardOp) (req : BlockRequest) (rest : List BlockRequest),
        (s.slot i).op = some o → o.kind ≠ .chunk → o.issued = true → (s.slot i).blocks = req :: rest →
        (req.write = false → bytes.length = req.count * 512) →
        let freed := s.updSlot i fun y => { y with op := none, blocks := rest }
        exec (.blockRequestCompletion i bytes) s = .next (arbitrate i (if req.write then
            freed.send .body (.response 0x82 req.tag .ok false [])
          else (freed.send .body (.response 0x81 req.tag .ok true [])).send .body (.frame req.tag 0 bytes false))))
    ∧ ∀ (i : SlotId) (s : State) (w : WritingItem) (req : BlockRequest) (rest : List BlockRequest), (s.slot i).op = none →
        (s.slot i).state = .writing → (s.slot i).writing = some w → w.abort = false → w.next < w.item.mode.itemChunks →
        (s.slot i).blocks = req :: rest →
        ((arbitrate i s).slot i).op.map CardOp.kind = some (if (s.slot i).lastWasBlock then .chunk
          else if req.write then .blockWrite else .blockRead)

/-- CHUNK_RAW_READ_COMPLETION and CARD_CHUNK_COMPLETION (R137, R144, R145, R151): the reads over, the chunk is issued with the stall
timer; the chunk written, the next one is read, or, after the last, the item is done: CARD_ITEM_DONE, the requirement WRITTEN,
the slot IDLE, or FULL with full-pending set, with its notice and what migrates then. Chunk 0 is the header block and the first
2047 blocks of the raw, chunk j the 2048 blocks, or the rest, from item block 2048 j on; its runs are the card addresses of
those item blocks in their order, through the fragments in theirs, each run within one fragment. Without a chunk of that
standing nothing happens, the model's choice (log 4, log 37); a completion is taken as that of the chunk in flight (log 48);
which accesses a chunk holds and ends is the model's reading (log 9), and so is that full-pending stays set in FULL (log 11). -/
def Obligations.ChunkEvents : Prop :=
  (∀ (w : WritingItem) (s : State) (r : Record) (chain : List Nat), s.record w.item.shot = some r → r.raw = some chain →
    let header := infoRecord r ++ List.replicate 432 0
    header.length = 512
      ∧ (w.next = 0 → chunkBytes w s = header ++ readChain s.dram chain 0 (2047 * 512))
      ∧ (w.next ≠ 0 → chunkBytes w s = readChain s.dram chain ((w.next * 2048 - 1) * 512)
          (min 2048 (w.item.mode.itemBlocks - w.next * 2048) * 512)))
  ∧ (∀ w : WritingItem, (∀ f ∈ w.fragments, 0 < f.count) →
      let blocks := fun (es : List Extent) => es.flatMap fun e => List.range' e.first e.count
      let len := min 2048 (w.item.mode.itemBlocks - w.next * 2048)
      blocks (chunkRuns w) = ((blocks w.fragments).drop (w.next * 2048)).take len
        ∧ (chunkRuns w).length ≤ w.fragments.length
        ∧ ∀ e ∈ chunkRuns w, 0 < e.count
            ∧ ∃ f ∈ w.fragments, f.first ≤ e.first ∧ e.first + e.count ≤ f.first + f.count)
  ∧ (∀ (i : SlotId) (s : State),
    ((s.slot i).op = none → (∀ a ∈ s.fsc.accesses, a.user ≠ .card i) → exec (.chunkRawReadCompletion i) s = .next s)
      ∧ ∀ o w r chain, (s.slot i).op = some o → o.kind = .chunk → o.issued = false → (s.slot i).writing = some w →
          s.record w.item.shot = some r → r.raw = some chain → s.fsc.releasing = [] →
          let left := s.fsc.accesses.filter fun a => !(a.user == .card i && a.chain == chain)
          exec (.chunkRawReadCompletion i) s = .next (State.updSlot { s with fsc := { s.fsc with accesses := left } } i fun y =>
            { y with op := some { o with issued := true, timer := s.crw.stallLimit } }))
    ∧ ∀ (i : SlotId) (s : State),
        ((s.slot i).op = none → exec (.cardChunkCompletion i) s = .next s)
          ∧ ∀ o w r chain, (s.slot i).op = some o → o.kind = .chunk → o.issued = true → (s.slot i).state = .writing →
              (s.slot i).writing = some w → w.abort = false → s.record w.item.shot = some r → r.raw = some chain →
              (s.slot i).blocks = [] →
              let len := min 2048 (w.item.mode.itemBlocks - w.next * 2048)
              let w' := { w with next := w.next + 1, written := w.written + len }
              (w.next + 1 < w.item.mode.itemChunks → exec (.cardChunkCompletion i) s = .next (State.updSlot
                  { s with fsc := { s.fsc with accesses := s.fsc.accesses ++ [{ user := .card i, chain := chain }] } } i
                  fun y => { y with
                    writing := some w', lastWasBlock := false
                    op := some { kind := .chunk, issued := false, timer := s.crw.stallLimit, runs := chunkRuns w',
                                 payload := chunkBytes w' s } }))
                ∧ (w.next + 1 = w.item.mode.itemChunks → (s.slot i).queue = [] → (s.slot i).fullPending = false →
                    r.rawPins ≠ 0 → r.state = .stored →
                    exec (.cardChunkCompletion i) s = .next (State.setReq (State.offer (s.updSlot i fun y =>
                        { y with op := none, writing := none, state := .idle }) .body
                      (.cardItemDone w.item.shot i .written w.item.mode.itemBlocks (w.written + len) w.fragments))
                      w.item.shot i .written))
                ∧ (w.next + 1 = w.item.mode.itemChunks → (s.slot i).fullPending = true → r.rawPins ≠ 0 → r.state = .stored →
                    exec (.cardChunkCompletion i) s = .next (migrateFrom i [] ((State.setReq (State.offer (s.updSlot i fun y =>
                        { y with op := none, writing := none, state := .full }) .body
                      (.cardItemDone w.item.shot i .written w.item.mode.itemBlocks (w.written + len) w.fragments))
                      w.item.shot i .written).offerClass Classes.slotState
                        (.slotState i .writing .full (s.slot i).queue.length (s.slot i).pool.length))))

/-- Card faults, the card-detect lines and migration (R133, R134, R140, R149, R150, R152): an error or a stall of an operation that
was issued, and a removal from an open state, end the operation; the writing item ends FAILED, or ABORTED (its requirement
WAIVED) if it was marked for abort, with CARD_ITEM_DONE and the test of its record; every block request is answered
CARD_FAULT in order, the pool is emptied, the slot is in FAULT, or ABSENT. A removal from PRESENT or FAULT makes the slot ABSENT,
an insertion an ABSENT one PRESENT. With overflow in force slot A's items then move to B, a failed one first: no longer
required on A, QUEUED on B unless B's requirement stands already; B's head item is tried if B is IDLE. An error or a stall
without an issued operation, and a stall with time left, do nothing (log 3, log 4); a completion with an error is taken as that
of the operation in flight (log 48); the reads of an abandoned chunk end as log 9 says; an event of a card-detect line acts
whatever level the line has (log 41). That a failed item moves after the slot's own change (log 10), that a removal from FAULT
moves what has been queued since (log 32), and that the arbiter's memory is kept (log 26) are the model's readings. -/
def Obligations.CardFaultsAndLines : Prop :=
  (∀ (i : SlotId) (s : State),
    let x := s.slot i
    ((∀ o, x.op = some o → o.issued = false) →
        exec (.cardErrorCompletion i) s = .next s ∧ exec (.cardStallExpiry i) s = .next s)
      ∧ ((∀ o, x.op = some o → 0 < o.timer) → exec (.cardStallExpiry i) s = .next s)
      ∧ (∀ (c : Instr) (new : SlotState) (u : State), x.state.isOpen = true →
          (c = .cardErrorCompletion i ∧ new = .fault ∧ u = s ∧ (∃ o, x.op = some o ∧ o.issued = true)
            ∨ c = .cardStallExpiry i ∧ new = .fault ∧ u = s ∧ (∃ o, x.op = some o ∧ o.issued = true ∧ o.timer = 0)
            ∨ c = .cardRemoval i ∧ new = .absent ∧ u = s.updSlot i fun y => { y with detect := false }) →
          let answers := x.blocks.map fun b => OutMsg.response (if b.write then 0x82 else 0x81) b.tag .cardFault false []
          let ended := fun (v : State) => (State.updSlot
            { v with ptc := { v.ptc with bodyOut := v.ptc.bodyOut ++ answers } } i fun y =>
              { y with op := none, writing := none, blocks := [], pool := [], fullPending := false,
                       state := new }).offerClass Classes.slotState (.slotState i x.state new x.queue.length 0)
          (x.writing = none → exec c s = .next (migrateFrom i [] (ended u)))
            ∧ ∀ w, x.writing = some w →
                let bare := u.updSlot i fun y => { y with op := none, writing := none }
                let tested := testRelease w.item.shot ((bare.offer .body (.cardItemDone w.item.shot i
                  (if w.abort then .aborted else .failed) w.item.mode.itemBlocks w.written w.fragments)).setReq
                    w.item.shot i (if w.abort then .waived else .failed))
                exec c s = .next (migrateFrom i (if w.abort then [] else [w.item]) (ended tested)))
      ∧ (x.state = .present ∨ x.state = .fault → exec (.cardRemoval i) s = .next (migrateFrom i [] ((s.updSlot i fun y =>
          { y with detect := false, state := .absent }).offerClass Classes.slotState
            (.slotState i x.state .absent x.queue.length x.pool.length))))
      ∧ (x.state = .absent → exec (.cardRemoval i) s = .next (s.updSlot i fun y => { y with detect := false })
          ∧ exec (.cardInsert i) s = .next ((s.updSlot i fun y => { y with detect := true, state := .present }).offerClass
              Classes.slotState (.slotState i .absent .present x.queue.length x.pool.length)))
      ∧ (x.state ≠ .absent → exec (.cardInsert i) s = .next (s.updSlot i fun y => { y with detect := true })))
    ∧ (∀ (i : SlotId) (failed : List CardItem) (s : State), i = .b ∨ s.overflowInForce = false → migrateFrom i failed s = s)
    ∧ ∀ (failed : List CardItem) (s : State), s.overflowInForce = true →
        let moved := failed ++ s.crw.slotA.queue
        (moved.map CardItem.shot).Nodup → (s.cat.records.map Record.shot).Nodup →
        (∀ x ∈ moved, ∃ r, s.record x.shot = some r ∧ r.state = .stored ∧ r.raw.isSome = true
          ∧ (r.reqB = .notRequired ∨ r.reqB.settled = false)) →
        let joins := fun (x : CardItem) => (s.record x.shot).any fun r => r.reqB == .notRequired
        let u := { s with
          crw := { s.crw with slotA := { s.crw.slotA with queue := [] },
                              slotB := { s.crw.slotB with queue := s.crw.slotB.queue ++ moved.filter joins } }
          cat := { s.cat with records := s.cat.records.map fun r => if r.shot ∈ moved.map CardItem.shot then
            { r with reqA := .notRequired, reqB := if r.reqB = .notRequired then .queued else r.reqB } else r } }
        migrateFrom .a failed s = if s.crw.slotB.state = .idle then tryHead .b u else u

/-- RETRY_CARD and WAIVE_CARD (R143, R153, R154): a slot choice outside its values and a shot without a record are refused. Both act on
the one record or, under shot number 0, on every record in order, and on the slots chosen, A before B. A retry queues a FAILED
requirement again where the slot is IDLE, WAIT_EXTENTS or WRITING and not full-pending, and counts it; after the answer a slot that
is IDLE tries its head item. A waive makes a QUEUED or FAILED one WAIVED, the item gone from its queue, and tests the record; it
is BUSY for a single shot while a slot chosen writes its item, and passes such a one over under 0; after the answer a slot that
waits for extents and whose head item is gone tries its new head. That slot A tries first, and after all requirements, is the
model's choice (log 42). -/
def Obligations.RetryAndWaive : Prop :=
  (∀ (h : Header) (n : Word) (b : Byte) (s : State), reachesOwner (.retryCard h n b) h s →
    (2 < b.toNat → exec (.retryCard h n b) s = .next (s.refused .retryCard h .badRequest))
      ∧ (b.toNat ≤ 2 → n ≠ 0 → s.record n.toNat = none →
          exec (.retryCard h n b) s = .next (s.refused .retryCard h .notFound))
      ∧ ∀ i r, readSlot b = some i → n ≠ 0 → s.record n.toNat = some r → s.crw.slotA.state ≠ .idle →
          s.crw.slotB.state ≠ .idle → exec (.retryCard h n b) s = .next
            (if r.req i = .failed ∧ ((s.slot i).state = .waitExtents ∨ (s.slot i).state = .writing ∧ (s.slot i).fullPending = false)
            then State.answered ((s.updSlot i fun x => { x with queue := x.queue ++ [{ shot := n.toNat, mode := r.mode }] }).setReq
              n.toNat i .queued) .retryCard h [1, 0]
            else s.answered .retryCard h [0, 0]))
    ∧ (∀ (h : Header) (n : Word) (b : Byte) (s : State), reachesOwner (.retryCard h n b) h s → b.toNat ≤ 2 → catalogLaw s →
        n = 0 ∨ (s.record n.toNat).isSome = true →
        let takes := fun (x : Slot) => x.state == .idle || x.state == .waitExtents || x.state == .writing && !x.fullPending
        let again := fun (i : SlotId) (r : Record) => (b == 2 || b == (match i with | .a => 0 | .b => 1)) && takes (s.slot i)
          && (n == 0 || r.shot == n.toNat) && r.req i == .failed
        let items := fun (i : SlotId) => (s.cat.records.filter (again i)).map fun r => ({ shot := r.shot, mode := r.mode } : CardItem)
        let queued := { s with
          crw := { s.crw with slotA := { s.crw.slotA with queue := s.crw.slotA.queue ++ items .a }
                              slotB := { s.crw.slotB with queue := s.crw.slotB.queue ++ items .b } }
          cat := { s.cat with records := s.cat.records.map fun r =>
            { r with reqA := if again .a r then .queued else r.reqA, reqB := if again .b r then .queued else r.reqB } } }
        let idle := fun (i : SlotId) (t : State) => if (t.slot i).state = .idle then tryHead i t else t
        exec (.retryCard h n b) s = .next (idle .b (idle .a
          (State.answered queued .retryCard h (le 2 ((items .a).length + (items .b).length))))))
    ∧ (∀ (h : Header) (n : Word) (b : Byte) (s : State), reachesOwner (.waiveCard h n b) h s → b.toNat ≤ 2 →
        let slots : List SlotId := if b = 0 then [.a] else if b = 1 then [.b] else [.a, .b]
        let waive := fun (t : Nat × State) (p : Nat × SlotId) => match t.2.record p.1 with
          | some r => if r.req p.2 = .queued ∨ r.req p.2 = .failed then
              (t.1 + 1, testRelease p.1 (State.setReq (t.2.updSlot p.2 fun x =>
                { x with queue := x.queue.filter fun y => y.shot != p.1 }) p.1 p.2 .waived)) else t
          | none => t
        let newHead := fun (i : SlotId) (t : State) =>
          if (t.slot i).state = .waitExtents ∧ (t.slot i).queue.head? ≠ (s.slot i).queue.head? then tryHead i t else t
        let waived := fun (shots : List Nat) =>
          let t := (shots.flatMap fun k => slots.map fun i => (k, i)).foldl waive (0, s)
          exec (.waiveCard h n b) s = .next (newHead .b (newHead .a (t.2.answered .waiveCard h (le 2 t.1))))
        (n = 0 → waived (s.cat.records.map Record.shot))
          ∧ ∀ r, n ≠ 0 → s.record n.toNat = some r →
              ((∃ i ∈ slots, r.req i = .writing) → exec (.waiveCard h n b) s = .next (s.refused .waiveCard h .busy))
                ∧ ((∀ i ∈ slots, r.req i ≠ .writing) → waived [n.toNat]))
    ∧ ∀ (h : Header) (n : Word) (b : Byte) (s : State), reachesOwner (.waiveCard h n b) h s →
        (2 < b.toNat → exec (.waiveCard h n b) s = .next (s.refused .waiveCard h .badRequest))
          ∧ (b.toNat ≤ 2 → n ≠ 0 → s.record n.toNat = none →
              exec (.waiveCard h n b) s = .next (s.refused .waiveCard h .notFound))
          ∧ ∀ i r, readSlot b = some i → n ≠ 0 → s.record n.toNat = some r →
              (r.req i = .writing → exec (.waiveCard h n b) s = .next (s.refused .waiveCard h .busy))
                ∧ (r.req i = .queued ∨ r.req i = .failed → r.raw.isSome = true → r.rawPins ≠ 0 → r.state = .stored →
                    s.crw.slotA.state ≠ .waitExtents → s.crw.slotB.state ≠ .waitExtents →
                    exec (.waiveCard h n b) s = .next (State.answered ((s.updSlot i fun x =>
                      { x with queue := x.queue.filter fun y => y.shot != n.toNat }).setReq n.toNat i .waived)
                        .waiveCard h [1, 0]))
                ∧ (r.req i ≠ .writing → r.req i ≠ .queued → r.req i ≠ .failed →
                    exec (.waiveCard h n b) s = .next (s.answered .waiveCard h [0, 0]))

/-! ## Tethering -/

/-- The session (R157 to R161, R166, R173, R193): OPEN_SESSION attaches and starts the silence timer with the silence limit, answers with the
queue's length, the auto-send state and the error count, and a transfer in progress goes back to the queue's head;
CLOSE_SESSION, the expiry of the silence timer, a bus reset and the loss of the cable detach by the policy, the two link
events then emptying the tether port; in DETACHED nothing is left to detach, but a link event empties the tether port there
too, which is the model's reading (log 45). A SENDING item's stream stops; a cut one ends as its cut says. Under DROP every item
that is left goes, in queue order: its mark is DROPPED, its content unpinned, its record tested. An expiry in DETACHED, or with time
left on the timer, does nothing (log 3, log 4); the read of an abandoned frame ends with it (log 9, log 39). -/
def Obligations.Session : Prop :=
  (∀ (h : Header) (s : State), reachesOwner (.openSession h) h s →
    let opened := { s with ttc := { s.ttc with attached := true, silence := some (s.ttc.silenceLimit * 1000) } }
    let answer := fun (t : State) => le 1 t.ttc.queue.length ++ [if s.ttc.armed then 0 else 1] ++ le 1 s.ttc.errors
    (s.ttc.attached = false ∨ s.sendingItem = none →
        exec (.openSession h) s = .next (opened.answered .openSession h (answer s)))
      ∧ (s.ttc.attached = true → ∀ i, s.sendingItem = some i → i.cut = .clear →
          ∃ t, exec (.openSession h) s = .next t ∧ State.followOnKeeps opened t
            ∧ t.ttc = { opened.ttc with queue := i.back :: s.queueWithout i.serial } ∧ t.cat = s.cat ∧ t.crw = s.crw
            ∧ t.ptc.tetherOut.getLast? = some (.response 0x96 h.tag .ok false (answer t))
            ∧ (s.fsc.releasing = [] → t.fsc = { s.fsc with accesses := s.readsWithout i } ∧ t.dve = s.dve))
      ∧ (s.ttc.attached = true → ∀ i, s.sendingItem = some i → i.cut ≠ .clear →
          exec (.openSession h) s = .next ((opened.cutItemEnded i).answered .openSession h (answer (opened.cutItemEnded i)))))
    ∧ (∀ (h : Header) (s : State), reachesOwner (.closeSession h) h s → s.ttc.attached = false →
        exec (.closeSession h) s = .next (s.answered .closeSession h []))
    ∧ (∀ s : State, (s.ttc.attached = false ∨ s.ttc.silence ≠ some 0 → exec .silenceExpiry s = .next s)
        ∧ (s.ttc.attached = false → ∀ c, c = .usbBusReset ∨ c = .tetherCableLoss →
            exec c s = .next { s with ptc := { s.ptc with tetherQueue := [], tetherOut := [] } }))
    ∧ ∀ (c : Instr) (s : State), s.ttc.attached = true →
        (c = .silenceExpiry ∧ s.ttc.silence = some 0 ∨ c = .usbBusReset ∨ c = .tetherCableLoss
          ∨ ∃ h, c = .closeSession h ∧ reachesOwner c h s) →
        let ends := fun (u : State) => (c = .silenceExpiry → exec c s = .next u)
          ∧ (∀ h, c = .closeSession h → exec c s = .next (u.answered .closeSession h []))
          ∧ (c = .usbBusReset ∨ c = .tetherCableLoss →
              exec c s = .next { u with ptc := { u.ptc with tetherQueue := [], tetherOut := [] } })
        let begun := match s.sendingItem with
          | none => s.withoutSession
          | some i => if i.cut = .clear then s.withoutSession.streamStopped i else s.withoutSession.cutItemEnded i
        (s.ttc.policy = .drop →
            ends (begun.ttc.queue.foldl (fun u i => testRelease i.shot (u.itemGone i .dropped)) begun))
          ∧ (s.ttc.policy = .keep → ∀ i, s.sendingItem = some i → i.cut ≠ .clear → ends begun)
          ∧ ∃ t, exec c s = .next t ∧ s.detachesTo t
          ∧ (∀ h, c = .closeSession h → t.ptc.tetherOut.getLast? = some (.response 0x86 h.tag .ok false []))
          ∧ (c = .usbBusReset ∨ c = .tetherCableLoss → t.ptc.tetherQueue = [] ∧ t.ptc.tetherOut = [])

/-- SET_RULE, the match, the acting of rules, REARM_AUTOSEND (R162, R163, R164, R165, R167, R175, R50): a rule index above 7 or
a choice outside its values is refused, anything else replaces the one rule, clamped; a rule matches by the six conditions. In
an ATTACHED session with auto-send ARMED the rules act in index order, each on what the ones before it left: an item of the shot
and content rises to the rule's class, an URGENT one raising the job it waits for; a content that was SENT, or that is not
there, is passed over; a full queue or a job that cannot be had drops the match, its mark DROPPED, the first also counted; else
an item with the rule's class, limit, scale and index joins the tail, for a proof that was never made with a job of origin RULE.
SET_TAGS of a STORED record asks for one shot, a rearm with backfill for every STORED one in order. A rearm sets the count to 0
and ARMED and answers. That a backfill byte that is neither 0 nor 1 is refused is the model's choice (log 13); next serial and
next job number go on from the ones given (log 46). -/
def Obligations.RulesAndRearm : Prop :=
  (∀ (h : Header) (k : Byte) (o : RuleOps) (s : State), reachesOwner (.setRule h k o) h s →
    let good := o.enabled.toNat ≤ 1 ∧ o.requireLock.toNat ≤ 1 ∧ o.content.toNat ≤ 1 ∧ o.scale.toNat ≤ 1 ∧ o.cls.toNat ≤ 1
    (7 < k.toNat ∨ ¬ good → exec (.setRule h k o) s = .next (s.refused .setRule h .badRequest))
      ∧ (k.toNat ≤ 7 → good →
          let u : SendRule := {
            enabled := o.enabled = 1, flagMask := o.flagMask, flagValue := o.flagValue, anyOf := o.anyOf,
            minRating := min 5 o.minRating.toNat, requireLock := o.requireLock = 1,
            content := if o.content = 0 then .raw else .proof, scale := if o.scale = 0 then .half else .quarter,
            maxClip := min 1000 o.maxClip.toNat, cls := if o.cls = 0 then .urgent else .normal }
          exec (.setRule h k o) s = .next (State.answered
            { s with ttc := { s.ttc with rules := s.ttc.rules.set k.toNat u } } .setRule h [])))
    ∧ (∀ (u : SendRule) (r : Record), u.matchesRecord r = true ↔ u.enabled = true
        ∧ (∀ k, k < 16 → u.flagMask.getLsbD k = true → r.tags.getLsbD k = u.flagValue.getLsbD k)
        ∧ (u.anyOf = 0 ∨ ∃ k, k < 16 ∧ u.anyOf.getLsbD k = true ∧ r.tags.getLsbD k = true)
        ∧ u.minRating ≤ r.rating
        ∧ (u.requireLock = true → ∃ f, r.focus = .filled f ∧ f.locked = true)
        ∧ (u.content = .proof → r.proofState = .done → ∀ p, r.proof = some p →
            p.clipCount * 1000 ≤ u.maxClip * (match r.mode with | .full => 10838016 | .crop => 4816896)))
    ∧ (∀ (n : Nat) (s : State),
        (s.ttc.attached = false ∨ s.ttc.armed = false → evaluateRules n s = s)
          ∧ (s.ttc.attached = true → s.ttc.armed = true → evaluateRules n s = s.ttc.rules.zipIdx.foldl (fun t x =>
              if (t.record n).any x.1.matchesRecord then actOnMatch x.2 x.1 n t else t) s))
    ∧ (∀ (k : Nat) (u : SendRule) (n : Nat) (r : Record) (s : State), s.record n = some r →
        (∀ i, s.itemFor n u.content = some i →
            let risen := { s with ttc := { s.ttc with queue := s.ttc.queue.map fun x =>
              if x.serial = i.serial then { x with cls := i.cls.higher u.cls } else x } }
            (i.state ≠ .waitingProof ∨ i.cls = .urgent ∨ u.cls = .normal → actOnMatch k u n s = risen)
              ∧ ∀ j c, i.state = .waitingProof → i.cls = .normal → u.cls = .urgent → r.state = .stored →
                  r.raw.isSome = true → s.job n = some j → j.state = .queued → j.cls = .normal → s.currentJob = some c →
                  c.state = .running → c.shot ≠ n → actOnMatch k u n s = { risen with dve := { s.dve with jobs := s.dve.jobs.map fun x =>
                    if x.shot = n then { x with cls := .urgent, state := .queued } else x } })
          ∧ (s.itemFor n u.content = none →
              (r.tetherMark u.content = .sent ∨ r.available u.content = false → actOnMatch k u n s = s)
                ∧ (r.tetherMark u.content ≠ .sent → r.available u.content = true →
                    let marked := fun (s : State) (m : TetherMark) => s.withRecord n fun x => match u.content with
                      | .raw => { x with markRaw := m }
                      | .proof => { x with markProof := m }
                    (64 ≤ s.ttc.queue.length → actOnMatch k u n s =
                        marked { s with ttc := { s.ttc with drops := sat16 s.ttc.drops } } .dropped)
                      ∧ (s.ttc.queue.length < 64 → u.content = .proof → r.proofState = .none →
                          (r.raw = none ∨ s.job n = none ∧ 32 ≤ s.dve.jobs.length) → actOnMatch k u n s = marked s .dropped)
                      ∧ (s.ttc.queue.length < 64 → sendLaw s →
                          let serial := s.newSerial
                          let item : SendItem := {
                            serial := serial, shot := n, content := u.content, cls := u.cls, attempts := 0, origin := some k,
                            state := if u.content = .raw ∨ r.proofState = .done then .ready else .waitingProof,
                            maxClip := u.maxClip, scale := u.scale, transfer := none, cut := .clear, cancelTag := none }
                          let joined := State.withRecord
                            { s with ttc := { s.ttc with queue := s.ttc.queue ++ [item],
                                                         nextSerial := if serial = 4294967295 then 1 else serial + 1 } }
                            n fun x => match u.content with
                              | .raw => { x with rawPins := x.rawPins + 1, markRaw := .queued }
                              | .proof => { x with proofPins := x.proofPins + 1, markProof := .queued }
                          (u.content = .raw ∨ r.proofState ≠ .none → actOnMatch k u n s =
                              if item.state = .ready ∧ ∀ i ∈ s.ttc.queue, i.state ≠ .ready then
                                joined.offer .tether (.itemsReady serial (s.ttc.queue.length + 1))
                              else joined)
                            ∧ (u.content = .proof → r.proofState = .none → r.raw.isSome = true → s.job n = none →
                                s.dve.jobs.length < 32 → s.currentJob.isSome = true → u.cls = .normal →
                                let job : Job := { number := s.newJobNumber, shot := n, mode := r.mode,
                                                   params := { r.snapshot with scale := u.scale }, cls := .normal,
                                                   origin := .rule, state := .queued, cancel := false, progress := none }
                                actOnMatch k u n s = State.withRecord
                                  { joined with dve := { s.dve with jobs := s.dve.jobs ++ [job],
                                                                    nextJob := (s.newJobNumber + 1) % 65536 } } n fun x =>
                                    { x with proofState := .pending })))))
    ∧ (∀ (h : Header) (n : Word) (a b : Half) (rate : Byte) (s : State) (r : Record),
        reachesOwner (.setTags h n a b rate) h s → s.record n.toNat = some r → r.state = .stored →
        exec (.setTags h n a b rate) s = .next (evaluateRules n.toNat (((s.atOwner h).withRecord n.toNat fun x =>
          { x with tags := (x.tags &&& ~~~b) ||| a,
                   rating := if rate = 255 then x.rating else min 5 rate.toNat }).answered .setTags h [])))
    ∧ ∀ (h : Header) (b : Byte) (s : State), reachesOwner (.rearmAutosend h b) h s →
        let armed := State.answered
          { s.atOwner h with ttc := { (s.atOwner h).ttc with errors := 0, armed := true } } .rearmAutosend h []
        (1 < b.toNat → exec (.rearmAutosend h b) s = .next ((s.atOwner h).refused .rearmAutosend h .badRequest))
          ∧ (b = 0 ∨ b = 1 ∧ s.ttc.attached = false → exec (.rearmAutosend h b) s = .next armed)
          ∧ (b = 1 → exec (.rearmAutosend h b) s = .next (((s.cat.records.filter fun r => r.state == .stored).map
              Record.shot).foldl (fun t n => evaluateRules n t) armed))

/-- SEND_SHOT (R114, R166, R167, R168): its refusals in their order; an item that the queue holds rises to the higher class and
answers EXISTING, one that waits for its proof and rises to URGENT raising the job; else an item with a new serial joins the
tail, its content pinned and its mark QUEUED, READY for a raw and for a done proof, which offers ITEMS_READY when no other is
READY; for a proof that was never made, with a job of origin TETHER. A job that is QUEUED or waits for slabs rises to URGENT and is
QUEUED, one that is RUNNING or SUSPENDED keeps its class; an URGENT job that appears, new or risen, sends a NORMAL one that waits for
slabs back to QUEUED (R119); the engine picks. The outcome bytes are the model's (log 18), and so is that
next serial and next job number go on from the ones given (log 46). -/
def Obligations.SendShot : Prop :=
  ∀ (h : Header) (n : Word) (b k : Byte) (s : State), reachesOwner (.sendShot h n b k) h s → sendLaw s →
    let a := s.atOwner h
    let refusal := fun (x : Result) => exec (.sendShot h n b k) s = .next (a.refused .sendShot h x)
    (1 < b.toNat ∨ 1 < k.toNat → refusal .badRequest)
      ∧ (b.toNat ≤ 1 → k.toNat ≤ 1 → s.ttc.attached = false → refusal .noSession)
      ∧ ∀ c p, readContent b = some c → readPriority k = some p → s.ttc.attached = true →
          (s.record n.toNat = none → refusal .notFound)
            ∧ ∀ r, s.record n.toNat = some r →
                (∀ i, s.itemFor n.toNat c = some i → i.state ≠ .waitingProof ∨ p = .normal →
                    let risen := a.ttc.queue.map fun x => if x.serial = i.serial then { x with cls := i.cls.higher p } else x
                    exec (.sendShot h n b k) s = .next (State.answered
                      { a with ttc := { a.ttc with queue := risen } } .sendShot h (le 4 i.serial ++ [0])))
                  ∧ (∀ i j cur, s.itemFor n.toNat c = some i → i.state = .waitingProof → i.cls = .normal → p = .urgent →
                      r.state = .stored → r.raw.isSome = true → s.job n.toNat = some j → j.state = .queued → j.cls = .normal →
                      s.currentJob = some cur → cur.state = .running → cur.shot ≠ n.toNat →
                      exec (.sendShot h n b k) s = .next (State.answered
                        { a with
                          ttc := { a.ttc with queue := a.ttc.queue.map fun x =>
                            if x.serial = i.serial then { x with cls := .urgent } else x }
                          dve := { s.dve with jobs := s.dve.jobs.map fun x =>
                            if x.shot = n.toNat then { x with cls := .urgent, state := .queued } else x } } .sendShot h
                        (le 4 i.serial ++ [0])))
                  ∧ (∀ i j, developLaw s → s.itemFor n.toNat c = some i → i.state = .waitingProof → i.cls = .normal → p = .urgent →
                      r.state = .stored → r.raw.isSome = true → s.job n.toNat = some j →
                      let risen := { a with ttc := { a.ttc with queue := a.ttc.queue.map fun x =>
                        if x.serial = i.serial then { x with cls := .urgent } else x } }
                      let answered := fun (t : State) =>
                        exec (.sendShot h n b k) s = .next (t.answered .sendShot h (le 4 i.serial ++ [0]))
                      (j.state = .running ∨ j.state = .suspended → answered risen)
                        ∧ (j.state = .queued ∨ j.state = .waitSlabs → j.cls = .urgent → answered (pick risen))
                        ∧ (j.state = .queued ∨ j.state = .waitSlabs → j.cls = .normal → answered (pick { risen with
                            dve := { s.dve with jobs := s.dve.jobs.map fun x =>
                              if x.shot = n.toNat then { x with cls := .urgent, state := .queued }
                              else if x.state = .waitSlabs ∧ x.cls = .normal then { x with state := .queued } else x } })))
                  ∧ (s.itemFor n.toNat c = none →
                      (r.available c = false → refusal .notReady)
                        ∧ (r.available c = true → s.ttc.queue.length = 64 → refusal .queueFull)
                        ∧ (c = .proof → r.available c = true → s.ttc.queue.length < 64 → r.proofState = .none →
                            r.raw.isSome = true → s.job n.toNat = none → 32 ≤ s.dve.jobs.length → refusal .queueFull)
                        ∧ (c = .proof → r.available c = true → s.ttc.queue.length < 64 → r.proofState = .none →
                            r.raw.isSome = true → s.job n.toNat = none → s.dve.jobs.length < 32 → s.currentJob.isSome = true →
                            p = .normal →
                            let serial := s.newSerial
                            let item : SendItem := {
                              serial := serial, shot := n.toNat, content := .proof, cls := .normal, attempts := 0,
                              origin := none, state := .waitingProof, maxClip := 1000, scale := r.snapshot.scale,
                              transfer := none, cut := .clear, cancelTag := none }
                            let job : Job := { number := s.newJobNumber, shot := n.toNat, mode := r.mode,
                                               params := r.snapshot, cls := .normal, origin := .tether, state := .queued,
                                               cancel := false, progress := none }
                            exec (.sendShot h n b k) s = .next (State.answered (State.withRecord
                              { a with
                                ttc := { a.ttc with queue := a.ttc.queue ++ [item],
                                                    nextSerial := if serial = 4294967295 then 1 else serial + 1 }
                                dve := { s.dve with jobs := s.dve.jobs ++ [job], nextJob := (s.newJobNumber + 1) % 65536 } }
                              n.toNat fun x => { x with proofPins := x.proofPins + 1, markProof := .queued,
                                                        proofState := .pending }) .sendShot h (le 4 serial ++ [1])))
                        ∧ (developLaw s → c = .proof → r.available c = true → s.ttc.queue.length < 64 → r.proofState = .none →
                            r.raw.isSome = true → s.job n.toNat = none → s.dve.jobs.length < 32 →
                            let serial := s.newSerial
                            let item : SendItem := {
                              serial := serial, shot := n.toNat, content := .proof, cls := p, attempts := 0, origin := none,
                              state := .waitingProof, maxClip := 1000, scale := r.snapshot.scale, transfer := none,
                              cut := .clear, cancelTag := none }
                            let job : Job := { number := s.newJobNumber, shot := n.toNat, mode := r.mode, params := r.snapshot,
                                               cls := p, origin := .tether, state := .queued, cancel := false,
                                               progress := none }
                            let yielding := s.dve.jobs.map fun x =>
                              if p = .urgent ∧ x.state = .waitSlabs ∧ x.cls = .normal then { x with state := .queued } else x
                            exec (.sendShot h n b k) s = .next (State.answered (pick (State.withRecord
                              { a with
                                ttc := { a.ttc with queue := a.ttc.queue ++ [item],
                                                    nextSerial := if serial = 4294967295 then 1 else serial + 1 }
                                dve := { s.dve with jobs := yielding ++ [job], nextJob := (s.newJobNumber + 1) % 65536 } }
                              n.toNat fun x => { x with proofPins := x.proofPins + 1, markProof := .queued,
                                                        proofState := .pending })) .sendShot h (le 4 serial ++ [1])))
                        ∧ (r.available c = true → s.ttc.queue.length < 64 → c = .raw ∨ r.proofState ≠ .none →
                            let serial := s.newSerial
                            let item : SendItem := {
                              serial := serial, shot := n.toNat, content := c, cls := p, attempts := 0, origin := none,
                              state := if c = .raw ∨ r.proofState = .done then .ready else .waitingProof, maxClip := 1000,
                              scale := r.snapshot.scale, transfer := none, cut := .clear, cancelTag := none }
                            let joined := State.withRecord
                              { a with ttc := { a.ttc with queue := a.ttc.queue ++ [item],
                                                           nextSerial := if serial = 4294967295 then 1 else serial + 1 } }
                              n.toNat fun x => match c with
                                | .raw => { x with rawPins := x.rawPins + 1, markRaw := .queued }
                                | .proof => { x with proofPins := x.proofPins + 1, markProof := .queued }
                            (∀ i ∈ s.ttc.queue, i.serial ≠ serial)
                              ∧ ((∀ i ∈ s.ttc.queue, i.serial ≠ s.ttc.nextSerial) → serial = s.ttc.nextSerial)
                              ∧ exec (.sendShot h n b k) s = .next (State.answered
                                  (if item.state = .ready ∧ ∀ i ∈ s.ttc.queue, i.state ≠ .ready then
                                    joined.offer .tether (.itemsReady serial (s.ttc.queue.length + 1))
                                  else joined) .sendShot h (le 4 serial ++ [1]))))

/-- TAKE_NEXT and the stream (R170, R171, R173, R159): ITEM_OPEN while an item is SENDING, NO_ITEM with none READY; else the
oldest READY item, URGENT before NORMAL, is SENDING, described in the response, and its first chunk sent with the header in
front. Each delivery restarts the silence timer and sends the next chunk; the last one leaves the item awaiting its result; a
cancelled item is cut with an ABORTED frame, answered and gone; one that a DELETE cut goes the same way, its mark DROPPED and
its content unpinned, with ITEM_ABORTED to the tether port and the answer of a CANCEL_ITEM that was outstanding, and the record
is tested. A delivery takes what stood before it with it (log 1), a completion with no chunk in flight does nothing (log 4), and
what an access holds up is the model's reading (log 9); that a cut stream ends as its ABORTED frame is produced (log 53), and that
the response for a raw has a scale byte, none (log 52), are its choices. -/
def Obligations.ItemTransfer : Prop :=
  (∀ (h : Header) (s : State), reachesOwner (.takeNext h) h s →
    let a := s.atOwner h
    (s.sendingItem.isSome = true → exec (.takeNext h) s = .next (a.refused .takeNext h .itemOpen))
      ∧ (s.sendingItem = none → (∀ i ∈ s.ttc.queue, i.state ≠ .ready) →
          exec (.takeNext h) s = .next (a.refused .takeNext h .noItem))
      ∧ ∀ before i after r chain bytes scale, s.sendingItem = none → s.ttc.queue = before ++ i :: after → i.state = .ready →
          (∀ x ∈ before, x.state = .ready → x.cls ≠ i.cls) →
          (i.cls = .normal → ∀ x ∈ s.ttc.queue, x.state = .ready → x.cls = .normal) →
          s.record i.shot = some r → r.readable i.content = some (chain, bytes, scale) →
          let t : Transfer := { awaiting := false, next := 0, chunks := (512 + bytes + 65535) / 65536, total := 512 + bytes,
                                tag := h.tag, chain := chain, header := headerBlock r i.content }
          let queue := s.ttc.queue.map fun x =>
            if x.serial = i.serial then { x with state := .sending, transfer := some t, cut := .clear } else x
          exec (.takeNext h) s = .next { a with
            fsc := { s.fsc with accesses := s.fsc.accesses ++ [{ user := .tether, chain := chain }] }
            ttc := { a.ttc with queue := queue }
            ptc := { s.ptc with tetherOut := s.ptc.tetherOut ++
              [.response 0xA8 h.tag .ok true (le 4 i.serial ++ le 4 i.shot ++ le 1 i.content.code ++ leOpt 1 scale
                ++ leOpt 1 i.origin ++ le 4 (512 + bytes) ++ le 2 ((512 + bytes + 65535) / 65536)),
               .frame h.tag 0 (headerBlock r i.content ++ readChain s.dram chain 0 (min 65536 (512 + bytes) - 512)) false] } })
    ∧ (∀ s : State, s.sendingItem = none ∨ (∃ i t, s.sendingItem = some i ∧ i.transfer = some t ∧ t.awaiting = true) →
        exec .tetherChunkCompletion s = .next s)
    ∧ ∀ (s : State) (i : SendItem) (t : Transfer), s.sendingItem = some i → i.transfer = some t → t.awaiting = false →
        s.fsc.releasing = [] →
        let left := s.fsc.accesses.filter fun x => !(x.user == .tether && x.chain == t.chain)
        let rest := dropThrough (isFrame t.tag t.next) s.ptc.tetherOut
        let goes := fun (t' : Transfer) => s.ttc.queue.map fun x =>
          if x.serial = i.serial then { x with transfer := some t' } else x
        (i.cut = .clear → t.next + 1 ≠ t.chunks → exec .tetherChunkCompletion s = .next { s with
            fsc := { s.fsc with accesses := left ++ [{ user := .tether, chain := t.chain }] }
            ttc := { s.ttc with queue := goes { t with next := t.next + 1 }, silence := some (s.ttc.silenceLimit * 1000) }
            ptc := { s.ptc with tetherOut := rest ++ [.frame t.tag (t.next + 1)
              (readChain s.dram t.chain ((t.next + 1) * 65536 - 512) (min 65536 (t.total - (t.next + 1) * 65536))) false] } })
          ∧ (i.cut = .clear → t.next + 1 = t.chunks → exec .tetherChunkCompletion s = .next { s with
              fsc := { s.fsc with accesses := left }
              ttc := { s.ttc with queue := goes { t with next := t.next + 1, awaiting := true },
                                  silence := some (s.ttc.silenceLimit * 1000) }
              ptc := { s.ptc with tetherOut := rest } })
          ∧ (i.cut = .cancel → ∀ tag, i.cancelTag = some tag → ∃ u, exec .tetherChunkCompletion s = .next u
              ∧ u.ttc = { s.ttc with queue := s.queueWithout i.serial, silence := some (s.ttc.silenceLimit * 1000) }
              ∧ u.ptc.tetherOut = rest ++ [.frame t.tag (t.next + 1) [] true, .response 0x85 tag .ok false []]
              ∧ u.siu = s.siu ∧ u.dram = s.dram ∧ u.crw = s.crw ∧ u.fe = s.fe ∧ u.thm = s.thm ∧ u.pending = s.pending)
          ∧ (i.cut = .delete →
              let gone := State.withRecord
                { s with
                  fsc := { s.fsc with accesses := left }
                  ttc := { s.ttc with queue := s.queueWithout i.serial, silence := some (s.ttc.silenceLimit * 1000) }
                  ptc := { s.ptc with tetherOut := rest ++ [.frame t.tag (t.next + 1) [] true] } } i.shot fun x => match i.content with
                    | .raw => { x with rawPins := x.rawPins - 1, markRaw := .dropped }
                    | .proof => { x with proofPins := x.proofPins - 1, markProof := .dropped }
              let told := gone.offer .tether (.itemAborted i.serial i.shot i.content (t.next + 1))
              exec .tetherChunkCompletion s = .next (testRelease i.shot (match i.cancelTag with
                | some tag => told.send .tether (.response 0x85 tag .ok false [])
                | none => told)))

/-- ITEM_RESULT and CANCEL_ITEM (R54, R56, R57, R172, R173, R174): refused in their order. OK takes the item out with its mark SENT,
the content unpinned and the error count one lower; FAILED raises the count up to the threshold and suspends auto-send there, and
the item goes back to the head, or out with its mark FAILED at the third attempt. A cancelled item goes out at once, also one
that awaits its result, or is marked while its stream runs. What goes out is answered, and then its record is tested (the
model's order, log 40): a raw that nothing else wants is free, and a record bare of raw and proof that nothing refers to is gone
with SHOT_RELEASED; one that keeps a pinned proof stays. What holds a raw up is the model's reading (log 9). -/
def Obligations.ResultAndCancel : Prop :=
  (∀ (shot : Nat) (s : State) (r : Record) (chain : List Nat), s.record shot = some r → r.state = .stored →
    r.raw = some chain → r.rawPins = 0 → r.reqA.settled = true → r.reqB.settled = true → s.job shot = none →
    s.chainInUse chain = false → (∀ j, s.currentJob = some j → j.state = .running) →
    let freed := { s with fsc := { s.fsc with freeList := s.fsc.freeList ++ chain } }
    (r.proof = none → (∀ i w, (s.slot i).writing = some w → w.item.shot ≠ shot) →
        (∀ i ∈ s.ttc.queue, i.shot = shot → i.state ≠ .sending) → (∀ x, s.ptc.read = some x → x.shot ≠ shot) →
        r.deleteTag = none → testRelease shot s = State.offer
          { freed with cat := { s.cat with records := s.cat.records.filter fun x => x.shot != shot } } .body
          (.shotReleased shot false))
      ∧ (r.proof.isSome = true → r.proofPins ≠ 0 →
          testRelease shot s = freed.withRecord shot fun x => { x with raw := none }))
  ∧ (∀ (h : Header) (n : Word) (b : Byte) (s : State), reachesOwner (.itemResult h n b) h s →
    let a := s.atOwner h
    let refusal := fun (x : Result) => exec (.itemResult h n b) s = .next (a.refused .itemResult h x)
    (1 < b.toNat → refusal .badRequest)
      ∧ (b.toNat ≤ 1 → (∀ i, s.sendingItem = some i → i.serial ≠ n.toNat ∨ i.cut ≠ .clear) → refusal .noItem)
      ∧ ∀ i t, s.sendingItem = some i → i.serial = n.toNat → i.cut = .clear → i.transfer = some t →
          (b.toNat ≤ 1 → t.awaiting = false → refusal .itemOpen)
            ∧ (t.awaiting = true →
                let gone := fun (m : TetherMark) (s : State) => State.withRecord
                  { s with ttc := { s.ttc with queue := s.queueWithout i.serial } } i.shot fun x => match i.content with
                    | .raw => { x with rawPins := x.rawPins - 1, markRaw := m }
                    | .proof => { x with proofPins := x.proofPins - 1, markProof := m }
                (b = 0 → exec (.itemResult h n b) s = .next (testRelease i.shot (State.answered
                    (gone .sent { a with ttc := { a.ttc with errors := a.ttc.errors - 1 } }) .itemResult h [])))
                  ∧ (b = 1 → 2 ≤ i.attempts → a.ttc.armed = false → a.ttc.errors < a.ttc.threshold →
                      exec (.itemResult h n b) s = .next (testRelease i.shot (State.answered
                        (gone .failed { a with ttc := { a.ttc with errors := a.ttc.errors + 1 } }) .itemResult h []))))
            ∧ ∀ r, t.awaiting = true → s.record i.shot = some r → r.state = .stored → r.raw.isSome = true →
                r.reqA.settled = false →
                let gone := fun (m : TetherMark) (s : State) => State.withRecord
                  { s with ttc := { s.ttc with queue := s.queueWithout i.serial } } i.shot fun x => match i.content with
                    | .raw => { x with rawPins := x.rawPins - 1, markRaw := m }
                    | .proof => { x with proofPins := x.proofPins - 1, markProof := m }
                let count := if a.ttc.errors < a.ttc.threshold then a.ttc.errors + 1 else a.ttc.errors
                let worse := { a with ttc := { a.ttc with errors := count } }
                let judged := fun (s : State) => if s.ttc.armed = true ∧ s.ttc.threshold ≤ s.ttc.errors then
                    let o : Notice := .autosendSuspended s.ttc.errors s.ttc.threshold
                    (State.offer { s with ttc := { s.ttc with armed := false } } .tether o).offerClass Classes.autosend o
                  else s
                (b = 0 → exec (.itemResult h n b) s = .next (State.answered
                    (gone .sent { a with ttc := { a.ttc with errors := a.ttc.errors - 1 } }) .itemResult h []))
                  ∧ (b = 1 → 2 ≤ i.attempts →
                      exec (.itemResult h n b) s = .next (judged ((gone .failed worse).answered .itemResult h [])))
                  ∧ (b = 1 → i.attempts < 2 →
                      let retried := { i.back with attempts := i.attempts + 1 } :: s.queueWithout i.serial
                      let again := { worse with ttc := { worse.ttc with queue := retried } }
                      exec (.itemResult h n b) s = .next (judged (State.answered
                        (if ∀ x ∈ s.queueWithout i.serial, x.state ≠ .ready then
                          again.offer .tether (.itemsReady i.serial again.ttc.queue.length) else again) .itemResult h []))))
    ∧ ∀ (h : Header) (n : Word) (s : State), reachesOwner (.cancelItem h n) h s →
        let a := s.atOwner h
        ((∀ i, s.ttc.queue.find? (fun x => x.serial == n.toNat) = some i → i.state = .sending ∧ i.cut ≠ .clear) →
            exec (.cancelItem h n) s = .next (a.refused .cancelItem h .noItem))
          ∧ ∀ i, s.ttc.queue.find? (fun x => x.serial == n.toNat) = some i →
              (∀ t, i.state = .sending → i.cut = .clear → i.transfer = some t → t.awaiting = false →
                  let marked := s.ttc.queue.map fun x =>
                    if x.serial = n.toNat then { x with cut := .cancel, cancelTag := some h.tag } else x
                  exec (.cancelItem h n) s = .next { a with ttc := { a.ttc with queue := marked } })
                ∧ (i.state ≠ .sending ∨ i.cut = .clear ∧ (∃ t, i.transfer = some t ∧ t.awaiting = true) →
                    exec (.cancelItem h n) s = .next (testRelease i.shot (State.answered (State.withRecord
                      { a with ttc := { a.ttc with queue := s.queueWithout n.toNat } } i.shot fun x => match i.content with
                        | .raw => { x with rawPins := x.rawPins - 1, markRaw := .dropped }
                        | .proof => { x with proofPins := x.proofPins - 1, markProof := .dropped }) .cancelItem h [])))
                ∧ ∀ r, i.state ≠ .sending → s.record i.shot = some r → r.state = .stored → r.raw.isSome = true →
                    r.reqA.settled = false → exec (.cancelItem h n) s = .next (State.answered (State.withRecord
                      { a with ttc := { a.ttc with queue := s.queueWithout n.toNat } } i.shot fun x => match i.content with
                        | .raw => { x with rawPins := x.rawPins - 1, markRaw := .dropped }
                        | .proof => { x with proofPins := x.proofPins - 1, markProof := .dropped }) .cancelItem h [])

/-! ## Temperature, time, notices -/

/-- Samples and time (R178 to R182, R201, R149, R116): a sensor's rise and fall by its thresholds, 95 and 110 °C for the die, 85 and
95 °C for the stack; the part state is the higher of the two and is handed on only when it has changed. A sample that comes
before 100 ms have passed since the reset line or the sample before it changes nothing. The develop engine keeps a change back while
a job is RUNNING; else it is applied at once: a job that waits for slabs is QUEUED again in HOT, a NORMAL one in WARM too, and the
engine picks (R116, R119). A tick adds 1 to the time base and to
the sample period, up to its end, and takes 1 off each timer that runs: the wait timer, the silence timer, the stall timers.
That ticks count the timers, and that a sample ahead of its time does nothing, is the model's choice (log 3). -/
def Obligations.ThermalAndTime : Prop :=
  dieThresholds = { warm := 95, hot := 110 } ∧ stackThresholds = { warm := 85, hot := 95 }
    ∧ (∀ (x : Sensor) (t : Thresholds) (c : Reading),
        let v : Int := if c.valid then max (-40) (min 150 c.value) else 150
        let now := fun (st : Thermal) (k : Nat) =>
          x.sample t c = { reading := some v, invalid := !c.valid, state := st, hold := k }
        (x.state ≠ .hot → t.hot ≤ v → now .hot 0)
          ∧ (x.state = .normal → v < t.hot → now (if t.warm ≤ v then .warm else .normal) 0)
          ∧ (x.state = .warm → v < t.hot → if v < t.warm - 5 then (if x.hold < 9 then now .warm (x.hold + 1) else now .normal 0)
              else now .warm 0)
          ∧ (x.state = .hot → if v < t.hot - 5 then (if x.hold < 9 then now .hot (x.hold + 1) else now .warm 0)
              else now .hot 0))
    ∧ (∀ (d k : Reading) (s : State),
        let die := s.thm.die.sample dieThresholds d
        let stack := s.thm.stack.sample stackThresholds k
        let part := die.state.higher stack.state
        let m : Thm := { die := die, stack := stack, part := part, sinceSample := 0, sampleTime := s.ptc.timeBase }
        (s.thm.sinceSample < 100 → exec (.thermalSample d k) s = .next s)
          ∧ (100 ≤ s.thm.sinceSample → part = s.thm.part → exec (.thermalSample d k) s = .next { s with thm := m })
          ∧ (100 ≤ s.thm.sinceSample → part ≠ s.thm.part → ∃ t, exec (.thermalSample d k) s = .next t ∧ t.thm = m ∧ t.siu.thermal = part
              ∧ t.pending = s.pending ∧ t.dram = s.dram ∧ t.fe = s.fe ∧ t.ptc.timeBase = s.ptc.timeBase
              ∧ (s.siu.thermal = .normal → part ≠ .normal → t.siu.pre.armed = false)
              ∧ (part = .hot → t.siu.engine ≠ .burst) ∧ (part ≠ .hot → t.siu.engine = s.siu.engine)
              ∧ ((∃ j ∈ s.dve.jobs, j.state = .running) → s.siu.thermal ≠ .normal ∨ s.ring = [] →
                  t.dve = { s.dve with pendingThermal := some part })
              ∧ (s.dve.jobs = [] → s.siu.thermal ≠ .normal ∨ s.ring = [] → t.dve = { s.dve with applied := part })
              ∧ (developLaw s → (∀ j ∈ s.dve.jobs, j.state ≠ .running) → s.siu.thermal ≠ .normal ∨ s.ring = [] →
                  let applied := pick { s with dve := { s.dve with
                    applied := part
                    jobs := s.dve.jobs.map fun x =>
                      if x.state = .waitSlabs ∧ (part = .hot ∨ part = .warm ∧ x.cls = .normal) then { x with state := .queued }
                      else x } }
                  t.dve = applied.dve ∧ t.fsc = applied.fsc ∧ t.cat = s.cat)
              ∧ (s.ptc.enables.thermal = true → s.siu.thermal ≠ .normal ∨ s.ring = [] →
                  t.ptc.bodyQueue = offerTo 32 s.ptc.bodyQueue
                    (.thermalState s.thm.part part s.ptc.timeBase die stack))))
    ∧ ∀ s : State, ∃ t, exec .timeBaseTick s = .next t
        ∧ t = { s with siu := { s.siu with shoot := t.siu.shoot }, crw := t.crw
                       ttc := { s.ttc with silence := s.ttc.silence.map (· - 1) }
                       thm := { s.thm with sinceSample := min 100 (s.thm.sinceSample + 1) }
                       ptc := { s.ptc with timeBase := (s.ptc.timeBase + 1) % 4294967296 } }
        ∧ t.siu.shoot = s.siu.shoot.map (fun p => { p with timer := p.timer.map (· - 1) })
        ∧ t.crw = { s.crw with slotA := t.crw.slotA, slotB := t.crw.slotB }
        ∧ ∀ i, t.slot i = { s.slot i with op := (s.slot i).op.map fun o =>
            if o.issued then { o with timer := o.timer - 1 } else o }

/-- FETCH_NOTICES, NOTICE_CLASSES, the offer and the entries (R190, R191, R192, R199, R102): a fetch takes from the head of its
port's queue at most the clamped maximum, within 2048 bytes, and says how many are left; NOTICE_CLASSES sets the four enables
and has the standing conditions of newly enabled classes offered in order; a queue of 31 takes an OVERRUN in place of a notice,
and after it only counts; the lens queue keeps the newest FOCUS_RESULT. An entry is the notice's type code, the length of its
fields in two bytes, and the fields in the order of its rule or in the layout of R199. The time that a standing THERMAL_STATE
carries (log 19) and the all ones of a reading that never was (log 36) are the model's. -/
def Obligations.Notices : Prop :=
  (∀ (h : Header) (m : Byte) (s : State), reachesOwner (.fetchNotices h m) h s →
    ∃ taken left, s.ptc.queue h.port = taken ++ left
      ∧ taken.length ≤ max 1 (min 8 m.toNat)
      ∧ 2 + (taken.flatMap Notice.entry).length ≤ 2048
      ∧ (∀ n rest, left = n :: rest → taken.length = max 1 (min 8 m.toNat)
          ∨ 2048 < 2 + (taken.flatMap Notice.entry).length + n.entry.length)
      ∧ exec (.fetchNotices h m) s = .next (State.answered
          { s.atOwner h with ptc := s.ptc.setQueue h.port left } .fetchNotices h
          (le 1 taken.length ++ le 1 left.length ++ taken.flatMap Notice.entry)))
    ∧ (∀ (h : Header) (a b c d : Byte) (s : State), reachesOwner (.noticeClasses h a b c d) h s →
        (1 < a.toNat ∨ 1 < b.toNat ∨ 1 < c.toNat ∨ 1 < d.toNat →
            exec (.noticeClasses h a b c d) s = .next (s.refused .noticeClasses h .badRequest))
          ∧ (a.toNat ≤ 1 → b.toNat ≤ 1 → c.toNat ≤ 1 → d.toNat ≤ 1 →
              let old := s.ptc.enables
              let standing : List Notice :=
                (if old.thermal = false ∧ a = 1 ∧ s.thm.part ≠ .normal then
                  [.thermalState s.thm.part s.thm.part s.thm.sampleTime s.thm.die s.thm.stack] else [])
                ++ (if old.shortage = false ∧ b = 1 ∧ s.siu.burst.shortage = true then
                  [.shortage 0 s.fsc.freeList.length s.cat.records.length s.siu.burst.skips] else [])
                ++ (if old.slotState = false ∧ c = 1 then
                  ([SlotId.a, .b].filter fun i => (s.slot i).state == .fault || (s.slot i).state == .waitExtents).map fun i =>
                    .slotState i (s.slot i).state (s.slot i).state (s.slot i).queue.length (s.slot i).pool.length else [])
                ++ (if old.autosend = false ∧ d = 1 ∧ s.ttc.armed = false then
                  [.autosendSuspended s.ttc.errors s.ttc.threshold] else [])
              exec (.noticeClasses h a b c d) s = .next (standing.foldl (fun t n => t.offer .body n) (State.answered
                { s with ptc := { s.ptc with
                  enables := { thermal := a = 1, shortage := b = 1, slotState := c = 1, autosend := d = 1 } } }
                .noticeClasses h []))))
    ∧ (∀ (q : List Notice) (n : Notice), (∀ x ∈ q, x.isOverrun = false) →
        (q.length < 31 → offerTo 32 q n = q ++ [n]) ∧ (q.length = 31 → offerTo 32 q n = q ++ [.overrun 1])
          ∧ ∀ k, k ≤ 65535 → offerTo 32 (q ++ [.overrun k]) n = q ++ [.overrun (min 65535 (k + 1))])
    ∧ (∀ x y : FocusSummary, offerLens [] (.focusResult x) = [.focusResult x]
        ∧ offerLens [.focusResult y] (.focusResult x) = [.focusResult x])
    ∧ let b : Nat → Byte := BitVec.ofNat 8
      let flag := fun (x : Bool) => if x then (1 : Byte) else 0
      let sensor : Sensor → List Byte := fun x => (match x.reading with | some v => leInt 2 v | none => [0xFF, 0xFF])
        ++ [flag x.invalid, b x.state.code]
      (∀ e t, (Notice.autosendSuspended e t).entry = ([1, 2, 0, b e, b t] : List Byte))
        ∧ (∀ (shot : Nat) (i : SlotId) (x : ItemStatus) (length written : Nat) (fs : List Extent),
            (Notice.cardItemDone shot i x length written fs).entry = [(2 : Byte)] ++ le 2 (16 + 8 * fs.length) ++ le 4 shot
              ++ [b i.code, b x.code, b fs.length, 0] ++ le 4 length ++ le 4 written
              ++ fs.flatMap (fun e : Extent => le 4 e.first ++ le 4 e.count))
        ∧ (∀ x : FocusSummary, (Notice.focusResult x).entry = ([3, 32, 0] : List Byte) ++ le 4 x.frame
            ++ [b ((if x.noLens then 1 else 0) + (if x.overrun then 2 else 0) + (if x.truncated then 4 else 0)
                  + (match x.lens with | some (_, true) => 8 | _ => 0)
                  + (match x.selection with | some w => if w.dClamped then 48 else 16 | none => 0)),
                match x.selection with | some w => b w.zone | none => 0xFF]
            ++ (match x.lens with | some (p, _) => le 2 p | none => [0, 0])
            ++ (match x.selection with
                | some w => le 4 w.c ++ leInt 2 w.p ++ le 2 w.q ++ leInt 2 w.d ++ leInt 4 w.t ++ leInt 2 w.tPred ++ [b w.flag.code]
                | none => List.replicate 17 0)
            ++ [flag x.locked, b x.validCount, b x.negEdges, b x.posEdges, 0, 0, 0])
        ∧ (∀ (serial shot : Nat) (c : Content) (chunks : Nat), (Notice.itemAborted serial shot c chunks).entry =
            ([4, 11, 0] : List Byte) ++ le 4 serial ++ le 4 shot ++ [b c.code] ++ le 2 chunks)
        ∧ (∀ serial length, (Notice.itemsReady serial length).entry = ([5, 5, 0] : List Byte) ++ le 4 serial ++ [b length])
        ∧ (∀ lost, (Notice.overrun lost).entry = ([6, 2, 0] : List Byte) ++ le 2 lost)
        ∧ (∀ (shot number : Nat) (o : JobOrigin) (x : Scale) (tone clip quads : Nat) (hist : List Nat), hist.length = 64 →
            (Notice.proofDone shot number o x tone clip quads hist).entry = [(7 : Byte)] ++ le 2 273 ++ le 4 shot ++ le 2 number
              ++ [b o.code, b x.code, b tone] ++ le 4 clip ++ le 4 quads ++ hist.flatMap (le 4))
        ∧ (∀ frame free records skips, (Notice.shortage frame free records skips).entry =
            ([8, 10, 0] : List Byte) ++ le 4 frame ++ le 2 free ++ le 2 records ++ le 2 skips)
        ∧ (∀ shot deleted, (Notice.shotReleased shot deleted).entry = ([9, 5, 0] : List Byte) ++ le 4 shot ++ [flag deleted])
        ∧ (∀ (shot frame : Nat) (m : Mode) (k : CaptureKind) (x : Bool), (Notice.shotStored shot frame m k x).entry =
            ([10, 11, 0] : List Byte) ++ le 4 shot ++ le 4 frame ++ [b m.code, b k.code, flag x])
        ∧ (∀ (i : SlotId) (x y : SlotState) (queue extents : Nat), (Notice.slotState i x y queue extents).entry =
            ([11, 6, 0] : List Byte) ++ [b i.code, b x.code, b y.code] ++ le 2 queue ++ [b extents])
        ∧ ∀ (x y : Thermal) (time : Nat) (die stack : Sensor), (Notice.thermalState x y time die stack).entry =
            ([12, 14, 0] : List Byte) ++ [b x.code, b y.code] ++ le 4 time ++ sensor die ++ sensor stack

/-! ## Laws that every step keeps

Each holds after the reset line and is kept from any state that has it, whatever command comes, so that it holds in every state
the part can reach. -/

/-- The laws below hold right after reset. -/
def Obligations.LawsAtReset : Prop :=
  noticeLaw State.reset ∧ Memory.wf State.reset.dram = true ∧ catalogLaw State.reset ∧ linkLaw State.reset
    ∧ sendLaw State.reset ∧ captureLaw State.reset ∧ focusLaw State.reset ∧ developLaw State.reset ∧ slotLaw State.reset
    ∧ booksLaw State.reset

/-- R190, R102: a notice queue keeps to its capacity, an OVERRUN stands last, the lens queue holds a FOCUS_RESULT at most. -/
def Obligations.NoticeQueuesKeepTheirLaw : Prop := ∀ s t : State, step s = .next t → noticeLaw s → noticeLaw t

/-- R1, R6: the DRAM keeps the one form in which equal contents are equal data. The form is the model's (log 5). -/
def Obligations.DramStaysCanonical : Prop :=
  ∀ s t : State, step s = .next t → Memory.wf s.dram = true → Memory.wf t.dram = true

/-- R40, R41, R68: the catalog stays in shot order, below the next shot number, within 256 records. -/
def Obligations.CatalogKeepsItsOrder : Prop := ∀ s t : State, step s = .next t → catalogLaw s → catalogLaw t

/-- R174, R156, R166, R177: the link error count stays in 0..threshold, and auto-send is SUSPENDED while it equals it; the send
queue keeps its bounds, its one item a shot and content, its distinct serials and its one SENDING item. -/
def Obligations.TetherKeepsItsLaws : Prop :=
  ∀ s t : State, step s = .next t → (linkLaw s → linkLaw t) ∧ (sendLaw s → sendLaw t)

/-- The capture engine's state and its pending SHOOT (R25), frames without a mode (R21), bursts and their settings (R28, R29), the
shortage flag (R34), pre-capture and its settings (R30), the ring within its depth of at most 24 and empty while DISARMED (R35,
R36), and the thermal limits on both (R38, R182) stay as they should, in a catalog in its order. -/
def Obligations.CaptureKeepsItsLaw : Prop :=
  ∀ s t : State, step s = .next t → catalogLaw s → captureLaw s → captureLaw t

/-- The focus block's zones (R70), places for packets (R74), lens ranges (R72), parameters (R88, R89), history of at most four
(R92), no-selection run (R93), previous prediction (R95) and lock counts (R96, R97) stay in their bounds, and a lens state and a
watch stand only while the lens-present line is high (R100, R104). -/
def Obligations.FocusKeepsItsLaw : Prop := ∀ s t : State, step s = .next t → focusLaw s → focusLaw t

/-- The develop engine keeps at most one job a shot, one current job, one SUSPENDED job a class, and none RUNNING under HOT (R110,
R111, R116, R123, R131); the partial histogram of a job has 64 bins that sum to the pixels of its stripes, and the partial clip count
is at most their quads (R128). Each slot keeps its pool and its fragments disjoint (R141, R142, R143), within their bounds (R132), and
its state agrees with its item, its line and what it has in flight (R133, R144, R147). -/
def Obligations.EnginesKeepTheirLaws : Prop :=
  ∀ s t : State, step s = .next t → (developLaw s → developLaw t) ∧ (slotLaw s → slotLaw t)

/-- The books agree after every step. Slabs are conserved and none stands twice (R13). The pins of a record are its send items and
its hold (R53), and every send item names a record that has its content (R177). A raw stays while a job, a card item, an open
requirement or a send item needs it (R54, R68). A requirement is QUEUED or WRITING exactly with its item, at most one a shot and
256 a queue (R139). A done proof's histogram has 64 bins that sum to its pixels, and its clip count is at most its mode's quads (R128). The proof of a
STORED record is PENDING exactly while its shot has a job (R45, R130); of a DELETING record
nothing is said, because the release of its proof sets NONE while the job still runs (log 31). -/
def Obligations.BooksKeepTheirLaws : Prop := ∀ s t : State, step s = .next t → booksLaw s → booksLaw t
end

