-- ==== Sys2Proof/Laws/State.lean ====
section
/-! SUPPORT. One lemma per field per block update: what an update changes and what it leaves. -/

namespace Sys2Proof.Machine

/-! ### updFsc -/

@[simp] theorem State.updFsc_pending (s : State) (f : Fsc → Fsc) : (s.updFsc f).pending = s.pending := rfl
@[simp] theorem State.updFsc_fsc (s : State) (f : Fsc → Fsc) : (s.updFsc f).fsc = f s.fsc := rfl
@[simp] theorem State.updFsc_dram (s : State) (f : Fsc → Fsc) : (s.updFsc f).dram = s.dram := rfl
@[simp] theorem State.updFsc_siu (s : State) (f : Fsc → Fsc) : (s.updFsc f).siu = s.siu := rfl
@[simp] theorem State.updFsc_cat (s : State) (f : Fsc → Fsc) : (s.updFsc f).cat = s.cat := rfl
@[simp] theorem State.updFsc_fe (s : State) (f : Fsc → Fsc) : (s.updFsc f).fe = s.fe := rfl
@[simp] theorem State.updFsc_dve (s : State) (f : Fsc → Fsc) : (s.updFsc f).dve = s.dve := rfl
@[simp] theorem State.updFsc_crw (s : State) (f : Fsc → Fsc) : (s.updFsc f).crw = s.crw := rfl
@[simp] theorem State.updFsc_ttc (s : State) (f : Fsc → Fsc) : (s.updFsc f).ttc = s.ttc := rfl
@[simp] theorem State.updFsc_thm (s : State) (f : Fsc → Fsc) : (s.updFsc f).thm = s.thm := rfl
@[simp] theorem State.updFsc_ptc (s : State) (f : Fsc → Fsc) : (s.updFsc f).ptc = s.ptc := rfl

/-! ### updDram -/

@[simp] theorem State.updDram_pending (s : State) (f : Memory → Memory) : (s.updDram f).pending = s.pending := rfl
@[simp] theorem State.updDram_fsc (s : State) (f : Memory → Memory) : (s.updDram f).fsc = s.fsc := rfl
@[simp] theorem State.updDram_dram (s : State) (f : Memory → Memory) : (s.updDram f).dram = f s.dram := rfl
@[simp] theorem State.updDram_siu (s : State) (f : Memory → Memory) : (s.updDram f).siu = s.siu := rfl
@[simp] theorem State.updDram_cat (s : State) (f : Memory → Memory) : (s.updDram f).cat = s.cat := rfl
@[simp] theorem State.updDram_fe (s : State) (f : Memory → Memory) : (s.updDram f).fe = s.fe := rfl
@[simp] theorem State.updDram_dve (s : State) (f : Memory → Memory) : (s.updDram f).dve = s.dve := rfl
@[simp] theorem State.updDram_crw (s : State) (f : Memory → Memory) : (s.updDram f).crw = s.crw := rfl
@[simp] theorem State.updDram_ttc (s : State) (f : Memory → Memory) : (s.updDram f).ttc = s.ttc := rfl
@[simp] theorem State.updDram_thm (s : State) (f : Memory → Memory) : (s.updDram f).thm = s.thm := rfl
@[simp] theorem State.updDram_ptc (s : State) (f : Memory → Memory) : (s.updDram f).ptc = s.ptc := rfl

/-! ### updSiu -/

@[simp] theorem State.updSiu_pending (s : State) (f : Siu → Siu) : (s.updSiu f).pending = s.pending := rfl
@[simp] theorem State.updSiu_fsc (s : State) (f : Siu → Siu) : (s.updSiu f).fsc = s.fsc := rfl
@[simp] theorem State.updSiu_dram (s : State) (f : Siu → Siu) : (s.updSiu f).dram = s.dram := rfl
@[simp] theorem State.updSiu_siu (s : State) (f : Siu → Siu) : (s.updSiu f).siu = f s.siu := rfl
@[simp] theorem State.updSiu_cat (s : State) (f : Siu → Siu) : (s.updSiu f).cat = s.cat := rfl
@[simp] theorem State.updSiu_fe (s : State) (f : Siu → Siu) : (s.updSiu f).fe = s.fe := rfl
@[simp] theorem State.updSiu_dve (s : State) (f : Siu → Siu) : (s.updSiu f).dve = s.dve := rfl
@[simp] theorem State.updSiu_crw (s : State) (f : Siu → Siu) : (s.updSiu f).crw = s.crw := rfl
@[simp] theorem State.updSiu_ttc (s : State) (f : Siu → Siu) : (s.updSiu f).ttc = s.ttc := rfl
@[simp] theorem State.updSiu_thm (s : State) (f : Siu → Siu) : (s.updSiu f).thm = s.thm := rfl
@[simp] theorem State.updSiu_ptc (s : State) (f : Siu → Siu) : (s.updSiu f).ptc = s.ptc := rfl

/-! ### updCat -/

@[simp] theorem State.updCat_pending (s : State) (f : Cat → Cat) : (s.updCat f).pending = s.pending := rfl
@[simp] theorem State.updCat_fsc (s : State) (f : Cat → Cat) : (s.updCat f).fsc = s.fsc := rfl
@[simp] theorem State.updCat_dram (s : State) (f : Cat → Cat) : (s.updCat f).dram = s.dram := rfl
@[simp] theorem State.updCat_siu (s : State) (f : Cat → Cat) : (s.updCat f).siu = s.siu := rfl
@[simp] theorem State.updCat_cat (s : State) (f : Cat → Cat) : (s.updCat f).cat = f s.cat := rfl
@[simp] theorem State.updCat_fe (s : State) (f : Cat → Cat) : (s.updCat f).fe = s.fe := rfl
@[simp] theorem State.updCat_dve (s : State) (f : Cat → Cat) : (s.updCat f).dve = s.dve := rfl
@[simp] theorem State.updCat_crw (s : State) (f : Cat → Cat) : (s.updCat f).crw = s.crw := rfl
@[simp] theorem State.updCat_ttc (s : State) (f : Cat → Cat) : (s.updCat f).ttc = s.ttc := rfl
@[simp] theorem State.updCat_thm (s : State) (f : Cat → Cat) : (s.updCat f).thm = s.thm := rfl
@[simp] theorem State.updCat_ptc (s : State) (f : Cat → Cat) : (s.updCat f).ptc = s.ptc := rfl

/-! ### updFe -/

@[simp] theorem State.updFe_pending (s : State) (f : Fe → Fe) : (s.updFe f).pending = s.pending := rfl
@[simp] theorem State.updFe_fsc (s : State) (f : Fe → Fe) : (s.updFe f).fsc = s.fsc := rfl
@[simp] theorem State.updFe_dram (s : State) (f : Fe → Fe) : (s.updFe f).dram = s.dram := rfl
@[simp] theorem State.updFe_siu (s : State) (f : Fe → Fe) : (s.updFe f).siu = s.siu := rfl
@[simp] theorem State.updFe_cat (s : State) (f : Fe → Fe) : (s.updFe f).cat = s.cat := rfl
@[simp] theorem State.updFe_fe (s : State) (f : Fe → Fe) : (s.updFe f).fe = f s.fe := rfl
@[simp] theorem State.updFe_dve (s : State) (f : Fe → Fe) : (s.updFe f).dve = s.dve := rfl
@[simp] theorem State.updFe_crw (s : State) (f : Fe → Fe) : (s.updFe f).crw = s.crw := rfl
@[simp] theorem State.updFe_ttc (s : State) (f : Fe → Fe) : (s.updFe f).ttc = s.ttc := rfl
@[simp] theorem State.updFe_thm (s : State) (f : Fe → Fe) : (s.updFe f).thm = s.thm := rfl
@[simp] theorem State.updFe_ptc (s : State) (f : Fe → Fe) : (s.updFe f).ptc = s.ptc := rfl

/-! ### updDve -/

@[simp] theorem State.updDve_pending (s : State) (f : Dve → Dve) : (s.updDve f).pending = s.pending := rfl
@[simp] theorem State.updDve_fsc (s : State) (f : Dve → Dve) : (s.updDve f).fsc = s.fsc := rfl
@[simp] theorem State.updDve_dram (s : State) (f : Dve → Dve) : (s.updDve f).dram = s.dram := rfl
@[simp] theorem State.updDve_siu (s : State) (f : Dve → Dve) : (s.updDve f).siu = s.siu := rfl
@[simp] theorem State.updDve_cat (s : State) (f : Dve → Dve) : (s.updDve f).cat = s.cat := rfl
@[simp] theorem State.updDve_fe (s : State) (f : Dve → Dve) : (s.updDve f).fe = s.fe := rfl
@[simp] theorem State.updDve_dve (s : State) (f : Dve → Dve) : (s.updDve f).dve = f s.dve := rfl
@[simp] theorem State.updDve_crw (s : State) (f : Dve → Dve) : (s.updDve f).crw = s.crw := rfl
@[simp] theorem State.updDve_ttc (s : State) (f : Dve → Dve) : (s.updDve f).ttc = s.ttc := rfl
@[simp] theorem State.updDve_thm (s : State) (f : Dve → Dve) : (s.updDve f).thm = s.thm := rfl
@[simp] theorem State.updDve_ptc (s : State) (f : Dve → Dve) : (s.updDve f).ptc = s.ptc := rfl

/-! ### updCrw -/

@[simp] theorem State.updCrw_pending (s : State) (f : Crw → Crw) : (s.updCrw f).pending = s.pending := rfl
@[simp] theorem State.updCrw_fsc (s : State) (f : Crw → Crw) : (s.updCrw f).fsc = s.fsc := rfl
@[simp] theorem State.updCrw_dram (s : State) (f : Crw → Crw) : (s.updCrw f).dram = s.dram := rfl
@[simp] theorem State.updCrw_siu (s : State) (f : Crw → Crw) : (s.updCrw f).siu = s.siu := rfl
@[simp] theorem State.updCrw_cat (s : State) (f : Crw → Crw) : (s.updCrw f).cat = s.cat := rfl
@[simp] theorem State.updCrw_fe (s : State) (f : Crw → Crw) : (s.updCrw f).fe = s.fe := rfl
@[simp] theorem State.updCrw_dve (s : State) (f : Crw → Crw) : (s.updCrw f).dve = s.dve := rfl
@[simp] theorem State.updCrw_crw (s : State) (f : Crw → Crw) : (s.updCrw f).crw = f s.crw := rfl
@[simp] theorem State.updCrw_ttc (s : State) (f : Crw → Crw) : (s.updCrw f).ttc = s.ttc := rfl
@[simp] theorem State.updCrw_thm (s : State) (f : Crw → Crw) : (s.updCrw f).thm = s.thm := rfl
@[simp] theorem State.updCrw_ptc (s : State) (f : Crw → Crw) : (s.updCrw f).ptc = s.ptc := rfl

/-! ### updTtc -/

@[simp] theorem State.updTtc_pending (s : State) (f : Ttc → Ttc) : (s.updTtc f).pending = s.pending := rfl
@[simp] theorem State.updTtc_fsc (s : State) (f : Ttc → Ttc) : (s.updTtc f).fsc = s.fsc := rfl
@[simp] theorem State.updTtc_dram (s : State) (f : Ttc → Ttc) : (s.updTtc f).dram = s.dram := rfl
@[simp] theorem State.updTtc_siu (s : State) (f : Ttc → Ttc) : (s.updTtc f).siu = s.siu := rfl
@[simp] theorem State.updTtc_cat (s : State) (f : Ttc → Ttc) : (s.updTtc f).cat = s.cat := rfl
@[simp] theorem State.updTtc_fe (s : State) (f : Ttc → Ttc) : (s.updTtc f).fe = s.fe := rfl
@[simp] theorem State.updTtc_dve (s : State) (f : Ttc → Ttc) : (s.updTtc f).dve = s.dve := rfl
@[simp] theorem State.updTtc_crw (s : State) (f : Ttc → Ttc) : (s.updTtc f).crw = s.crw := rfl
@[simp] theorem State.updTtc_ttc (s : State) (f : Ttc → Ttc) : (s.updTtc f).ttc = f s.ttc := rfl
@[simp] theorem State.updTtc_thm (s : State) (f : Ttc → Ttc) : (s.updTtc f).thm = s.thm := rfl
@[simp] theorem State.updTtc_ptc (s : State) (f : Ttc → Ttc) : (s.updTtc f).ptc = s.ptc := rfl

/-! ### updThm -/

@[simp] theorem State.updThm_pending (s : State) (f : Thm → Thm) : (s.updThm f).pending = s.pending := rfl
@[simp] theorem State.updThm_fsc (s : State) (f : Thm → Thm) : (s.updThm f).fsc = s.fsc := rfl
@[simp] theorem State.updThm_dram (s : State) (f : Thm → Thm) : (s.updThm f).dram = s.dram := rfl
@[simp] theorem State.updThm_siu (s : State) (f : Thm → Thm) : (s.updThm f).siu = s.siu := rfl
@[simp] theorem State.updThm_cat (s : State) (f : Thm → Thm) : (s.updThm f).cat = s.cat := rfl
@[simp] theorem State.updThm_fe (s : State) (f : Thm → Thm) : (s.updThm f).fe = s.fe := rfl
@[simp] theorem State.updThm_dve (s : State) (f : Thm → Thm) : (s.updThm f).dve = s.dve := rfl
@[simp] theorem State.updThm_crw (s : State) (f : Thm → Thm) : (s.updThm f).crw = s.crw := rfl
@[simp] theorem State.updThm_ttc (s : State) (f : Thm → Thm) : (s.updThm f).ttc = s.ttc := rfl
@[simp] theorem State.updThm_thm (s : State) (f : Thm → Thm) : (s.updThm f).thm = f s.thm := rfl
@[simp] theorem State.updThm_ptc (s : State) (f : Thm → Thm) : (s.updThm f).ptc = s.ptc := rfl

/-! ### updPtc -/

@[simp] theorem State.updPtc_pending (s : State) (f : Ptc → Ptc) : (s.updPtc f).pending = s.pending := rfl
@[simp] theorem State.updPtc_fsc (s : State) (f : Ptc → Ptc) : (s.updPtc f).fsc = s.fsc := rfl
@[simp] theorem State.updPtc_dram (s : State) (f : Ptc → Ptc) : (s.updPtc f).dram = s.dram := rfl
@[simp] theorem State.updPtc_siu (s : State) (f : Ptc → Ptc) : (s.updPtc f).siu = s.siu := rfl
@[simp] theorem State.updPtc_cat (s : State) (f : Ptc → Ptc) : (s.updPtc f).cat = s.cat := rfl
@[simp] theorem State.updPtc_fe (s : State) (f : Ptc → Ptc) : (s.updPtc f).fe = s.fe := rfl
@[simp] theorem State.updPtc_dve (s : State) (f : Ptc → Ptc) : (s.updPtc f).dve = s.dve := rfl
@[simp] theorem State.updPtc_crw (s : State) (f : Ptc → Ptc) : (s.updPtc f).crw = s.crw := rfl
@[simp] theorem State.updPtc_ttc (s : State) (f : Ptc → Ptc) : (s.updPtc f).ttc = s.ttc := rfl
@[simp] theorem State.updPtc_thm (s : State) (f : Ptc → Ptc) : (s.updPtc f).thm = s.thm := rfl
@[simp] theorem State.updPtc_ptc (s : State) (f : Ptc → Ptc) : (s.updPtc f).ptc = f s.ptc := rfl

/-! ### Slots -/

@[simp] theorem State.updSlot_slot (s : State) (i : SlotId) (f : Slot → Slot) : (s.updSlot i f).slot i = f (s.slot i) := by
  cases i <;> rfl

theorem State.updSlot_slot_ne (s : State) {i j : SlotId} (f : Slot → Slot) (h : i ≠ j) : (s.updSlot i f).slot j = s.slot j := by
  cases i <;> cases j <;> first | exact absurd rfl h | rfl

@[simp] theorem State.updSlot_pending (s : State) (i : SlotId) (f : Slot → Slot) : (s.updSlot i f).pending = s.pending := rfl
@[simp] theorem State.updSlot_fsc (s : State) (i : SlotId) (f : Slot → Slot) : (s.updSlot i f).fsc = s.fsc := rfl
@[simp] theorem State.updSlot_dram (s : State) (i : SlotId) (f : Slot → Slot) : (s.updSlot i f).dram = s.dram := rfl
@[simp] theorem State.updSlot_siu (s : State) (i : SlotId) (f : Slot → Slot) : (s.updSlot i f).siu = s.siu := rfl
@[simp] theorem State.updSlot_cat (s : State) (i : SlotId) (f : Slot → Slot) : (s.updSlot i f).cat = s.cat := rfl
@[simp] theorem State.updSlot_fe (s : State) (i : SlotId) (f : Slot → Slot) : (s.updSlot i f).fe = s.fe := rfl
@[simp] theorem State.updSlot_dve (s : State) (i : SlotId) (f : Slot → Slot) : (s.updSlot i f).dve = s.dve := rfl
@[simp] theorem State.updSlot_ttc (s : State) (i : SlotId) (f : Slot → Slot) : (s.updSlot i f).ttc = s.ttc := rfl
@[simp] theorem State.updSlot_thm (s : State) (i : SlotId) (f : Slot → Slot) : (s.updSlot i f).thm = s.thm := rfl
@[simp] theorem State.updSlot_ptc (s : State) (i : SlotId) (f : Slot → Slot) : (s.updSlot i f).ptc = s.ptc := rfl

/-! ### Records, items, jobs -/

@[simp] theorem State.updRecord_pending (s : State) (n : Nat) (f : Record → Record) : (s.updRecord n f).pending = s.pending := rfl
@[simp] theorem State.updRecord_fsc (s : State) (n : Nat) (f : Record → Record) : (s.updRecord n f).fsc = s.fsc := rfl
@[simp] theorem State.updRecord_dram (s : State) (n : Nat) (f : Record → Record) : (s.updRecord n f).dram = s.dram := rfl
@[simp] theorem State.updRecord_siu (s : State) (n : Nat) (f : Record → Record) : (s.updRecord n f).siu = s.siu := rfl
@[simp] theorem State.updRecord_fe (s : State) (n : Nat) (f : Record → Record) : (s.updRecord n f).fe = s.fe := rfl
@[simp] theorem State.updRecord_dve (s : State) (n : Nat) (f : Record → Record) : (s.updRecord n f).dve = s.dve := rfl
@[simp] theorem State.updRecord_crw (s : State) (n : Nat) (f : Record → Record) : (s.updRecord n f).crw = s.crw := rfl
@[simp] theorem State.updRecord_ttc (s : State) (n : Nat) (f : Record → Record) : (s.updRecord n f).ttc = s.ttc := rfl
@[simp] theorem State.updRecord_thm (s : State) (n : Nat) (f : Record → Record) : (s.updRecord n f).thm = s.thm := rfl
@[simp] theorem State.updRecord_ptc (s : State) (n : Nat) (f : Record → Record) : (s.updRecord n f).ptc = s.ptc := rfl

@[simp] theorem State.dropRecord_pending (s : State) (n : Nat) : (s.dropRecord n).pending = s.pending := rfl
@[simp] theorem State.dropRecord_fsc (s : State) (n : Nat) : (s.dropRecord n).fsc = s.fsc := rfl
@[simp] theorem State.dropRecord_dram (s : State) (n : Nat) : (s.dropRecord n).dram = s.dram := rfl
@[simp] theorem State.dropRecord_siu (s : State) (n : Nat) : (s.dropRecord n).siu = s.siu := rfl
@[simp] theorem State.dropRecord_fe (s : State) (n : Nat) : (s.dropRecord n).fe = s.fe := rfl
@[simp] theorem State.dropRecord_dve (s : State) (n : Nat) : (s.dropRecord n).dve = s.dve := rfl
@[simp] theorem State.dropRecord_crw (s : State) (n : Nat) : (s.dropRecord n).crw = s.crw := rfl
@[simp] theorem State.dropRecord_ttc (s : State) (n : Nat) : (s.dropRecord n).ttc = s.ttc := rfl
@[simp] theorem State.dropRecord_thm (s : State) (n : Nat) : (s.dropRecord n).thm = s.thm := rfl
@[simp] theorem State.dropRecord_ptc (s : State) (n : Nat) : (s.dropRecord n).ptc = s.ptc := rfl

@[simp] theorem State.setReq_pending (s : State) (n : Nat) (i : SlotId) (q : Requirement) : (s.setReq n i q).pending = s.pending := rfl
@[simp] theorem State.setReq_fsc (s : State) (n : Nat) (i : SlotId) (q : Requirement) : (s.setReq n i q).fsc = s.fsc := rfl
@[simp] theorem State.setReq_dram (s : State) (n : Nat) (i : SlotId) (q : Requirement) : (s.setReq n i q).dram = s.dram := rfl
@[simp] theorem State.setReq_siu (s : State) (n : Nat) (i : SlotId) (q : Requirement) : (s.setReq n i q).siu = s.siu := rfl
@[simp] theorem State.setReq_fe (s : State) (n : Nat) (i : SlotId) (q : Requirement) : (s.setReq n i q).fe = s.fe := rfl
@[simp] theorem State.setReq_dve (s : State) (n : Nat) (i : SlotId) (q : Requirement) : (s.setReq n i q).dve = s.dve := rfl
@[simp] theorem State.setReq_crw (s : State) (n : Nat) (i : SlotId) (q : Requirement) : (s.setReq n i q).crw = s.crw := rfl
@[simp] theorem State.setReq_ttc (s : State) (n : Nat) (i : SlotId) (q : Requirement) : (s.setReq n i q).ttc = s.ttc := rfl
@[simp] theorem State.setReq_thm (s : State) (n : Nat) (i : SlotId) (q : Requirement) : (s.setReq n i q).thm = s.thm := rfl
@[simp] theorem State.setReq_ptc (s : State) (n : Nat) (i : SlotId) (q : Requirement) : (s.setReq n i q).ptc = s.ptc := rfl

@[simp] theorem State.setMark_pending (s : State) (n : Nat) (c : Content) (m : TetherMark) : (s.setMark n c m).pending = s.pending := rfl
@[simp] theorem State.setMark_fsc (s : State) (n : Nat) (c : Content) (m : TetherMark) : (s.setMark n c m).fsc = s.fsc := rfl
@[simp] theorem State.setMark_dram (s : State) (n : Nat) (c : Content) (m : TetherMark) : (s.setMark n c m).dram = s.dram := rfl
@[simp] theorem State.setMark_siu (s : State) (n : Nat) (c : Content) (m : TetherMark) : (s.setMark n c m).siu = s.siu := rfl
@[simp] theorem State.setMark_fe (s : State) (n : Nat) (c : Content) (m : TetherMark) : (s.setMark n c m).fe = s.fe := rfl
@[simp] theorem State.setMark_dve (s : State) (n : Nat) (c : Content) (m : TetherMark) : (s.setMark n c m).dve = s.dve := rfl
@[simp] theorem State.setMark_crw (s : State) (n : Nat) (c : Content) (m : TetherMark) : (s.setMark n c m).crw = s.crw := rfl
@[simp] theorem State.setMark_ttc (s : State) (n : Nat) (c : Content) (m : TetherMark) : (s.setMark n c m).ttc = s.ttc := rfl
@[simp] theorem State.setMark_thm (s : State) (n : Nat) (c : Content) (m : TetherMark) : (s.setMark n c m).thm = s.thm := rfl
@[simp] theorem State.setMark_ptc (s : State) (n : Nat) (c : Content) (m : TetherMark) : (s.setMark n c m).ptc = s.ptc := rfl

@[simp] theorem State.pin_pending (s : State) (n : Nat) (c : Content) : (s.pin n c).pending = s.pending := rfl
@[simp] theorem State.pin_fsc (s : State) (n : Nat) (c : Content) : (s.pin n c).fsc = s.fsc := rfl
@[simp] theorem State.pin_dram (s : State) (n : Nat) (c : Content) : (s.pin n c).dram = s.dram := rfl
@[simp] theorem State.pin_siu (s : State) (n : Nat) (c : Content) : (s.pin n c).siu = s.siu := rfl
@[simp] theorem State.pin_fe (s : State) (n : Nat) (c : Content) : (s.pin n c).fe = s.fe := rfl
@[simp] theorem State.pin_dve (s : State) (n : Nat) (c : Content) : (s.pin n c).dve = s.dve := rfl
@[simp] theorem State.pin_crw (s : State) (n : Nat) (c : Content) : (s.pin n c).crw = s.crw := rfl
@[simp] theorem State.pin_ttc (s : State) (n : Nat) (c : Content) : (s.pin n c).ttc = s.ttc := rfl
@[simp] theorem State.pin_thm (s : State) (n : Nat) (c : Content) : (s.pin n c).thm = s.thm := rfl
@[simp] theorem State.pin_ptc (s : State) (n : Nat) (c : Content) : (s.pin n c).ptc = s.ptc := rfl

@[simp] theorem State.unpin_pending (s : State) (n : Nat) (c : Content) : (s.unpin n c).pending = s.pending := rfl
@[simp] theorem State.unpin_fsc (s : State) (n : Nat) (c : Content) : (s.unpin n c).fsc = s.fsc := rfl
@[simp] theorem State.unpin_dram (s : State) (n : Nat) (c : Content) : (s.unpin n c).dram = s.dram := rfl
@[simp] theorem State.unpin_siu (s : State) (n : Nat) (c : Content) : (s.unpin n c).siu = s.siu := rfl
@[simp] theorem State.unpin_fe (s : State) (n : Nat) (c : Content) : (s.unpin n c).fe = s.fe := rfl
@[simp] theorem State.unpin_dve (s : State) (n : Nat) (c : Content) : (s.unpin n c).dve = s.dve := rfl
@[simp] theorem State.unpin_crw (s : State) (n : Nat) (c : Content) : (s.unpin n c).crw = s.crw := rfl
@[simp] theorem State.unpin_ttc (s : State) (n : Nat) (c : Content) : (s.unpin n c).ttc = s.ttc := rfl
@[simp] theorem State.unpin_thm (s : State) (n : Nat) (c : Content) : (s.unpin n c).thm = s.thm := rfl
@[simp] theorem State.unpin_ptc (s : State) (n : Nat) (c : Content) : (s.unpin n c).ptc = s.ptc := rfl

@[simp] theorem State.updItem_pending (s : State) (n : Nat) (f : SendItem → SendItem) : (s.updItem n f).pending = s.pending := rfl
@[simp] theorem State.updItem_fsc (s : State) (n : Nat) (f : SendItem → SendItem) : (s.updItem n f).fsc = s.fsc := rfl
@[simp] theorem State.updItem_dram (s : State) (n : Nat) (f : SendItem → SendItem) : (s.updItem n f).dram = s.dram := rfl
@[simp] theorem State.updItem_siu (s : State) (n : Nat) (f : SendItem → SendItem) : (s.updItem n f).siu = s.siu := rfl
@[simp] theorem State.updItem_cat (s : State) (n : Nat) (f : SendItem → SendItem) : (s.updItem n f).cat = s.cat := rfl
@[simp] theorem State.updItem_fe (s : State) (n : Nat) (f : SendItem → SendItem) : (s.updItem n f).fe = s.fe := rfl
@[simp] theorem State.updItem_dve (s : State) (n : Nat) (f : SendItem → SendItem) : (s.updItem n f).dve = s.dve := rfl
@[simp] theorem State.updItem_crw (s : State) (n : Nat) (f : SendItem → SendItem) : (s.updItem n f).crw = s.crw := rfl
@[simp] theorem State.updItem_thm (s : State) (n : Nat) (f : SendItem → SendItem) : (s.updItem n f).thm = s.thm := rfl
@[simp] theorem State.updItem_ptc (s : State) (n : Nat) (f : SendItem → SendItem) : (s.updItem n f).ptc = s.ptc := rfl

@[simp] theorem State.dropItem_pending (s : State) (n : Nat) : (s.dropItem n).pending = s.pending := rfl
@[simp] theorem State.dropItem_fsc (s : State) (n : Nat) : (s.dropItem n).fsc = s.fsc := rfl
@[simp] theorem State.dropItem_dram (s : State) (n : Nat) : (s.dropItem n).dram = s.dram := rfl
@[simp] theorem State.dropItem_siu (s : State) (n : Nat) : (s.dropItem n).siu = s.siu := rfl
@[simp] theorem State.dropItem_cat (s : State) (n : Nat) : (s.dropItem n).cat = s.cat := rfl
@[simp] theorem State.dropItem_fe (s : State) (n : Nat) : (s.dropItem n).fe = s.fe := rfl
@[simp] theorem State.dropItem_dve (s : State) (n : Nat) : (s.dropItem n).dve = s.dve := rfl
@[simp] theorem State.dropItem_crw (s : State) (n : Nat) : (s.dropItem n).crw = s.crw := rfl
@[simp] theorem State.dropItem_thm (s : State) (n : Nat) : (s.dropItem n).thm = s.thm := rfl
@[simp] theorem State.dropItem_ptc (s : State) (n : Nat) : (s.dropItem n).ptc = s.ptc := rfl

@[simp] theorem State.updJob_pending (s : State) (n : Nat) (f : Job → Job) : (s.updJob n f).pending = s.pending := rfl
@[simp] theorem State.updJob_fsc (s : State) (n : Nat) (f : Job → Job) : (s.updJob n f).fsc = s.fsc := rfl
@[simp] theorem State.updJob_dram (s : State) (n : Nat) (f : Job → Job) : (s.updJob n f).dram = s.dram := rfl
@[simp] theorem State.updJob_siu (s : State) (n : Nat) (f : Job → Job) : (s.updJob n f).siu = s.siu := rfl
@[simp] theorem State.updJob_cat (s : State) (n : Nat) (f : Job → Job) : (s.updJob n f).cat = s.cat := rfl
@[simp] theorem State.updJob_fe (s : State) (n : Nat) (f : Job → Job) : (s.updJob n f).fe = s.fe := rfl
@[simp] theorem State.updJob_crw (s : State) (n : Nat) (f : Job → Job) : (s.updJob n f).crw = s.crw := rfl
@[simp] theorem State.updJob_ttc (s : State) (n : Nat) (f : Job → Job) : (s.updJob n f).ttc = s.ttc := rfl
@[simp] theorem State.updJob_thm (s : State) (n : Nat) (f : Job → Job) : (s.updJob n f).thm = s.thm := rfl
@[simp] theorem State.updJob_ptc (s : State) (n : Nat) (f : Job → Job) : (s.updJob n f).ptc = s.ptc := rfl

@[simp] theorem State.dropJob_pending (s : State) (n : Nat) : (s.dropJob n).pending = s.pending := rfl
@[simp] theorem State.dropJob_fsc (s : State) (n : Nat) : (s.dropJob n).fsc = s.fsc := rfl
@[simp] theorem State.dropJob_dram (s : State) (n : Nat) : (s.dropJob n).dram = s.dram := rfl
@[simp] theorem State.dropJob_siu (s : State) (n : Nat) : (s.dropJob n).siu = s.siu := rfl
@[simp] theorem State.dropJob_cat (s : State) (n : Nat) : (s.dropJob n).cat = s.cat := rfl
@[simp] theorem State.dropJob_fe (s : State) (n : Nat) : (s.dropJob n).fe = s.fe := rfl
@[simp] theorem State.dropJob_crw (s : State) (n : Nat) : (s.dropJob n).crw = s.crw := rfl
@[simp] theorem State.dropJob_ttc (s : State) (n : Nat) : (s.dropJob n).ttc = s.ttc := rfl
@[simp] theorem State.dropJob_thm (s : State) (n : Nat) : (s.dropJob n).thm = s.thm := rfl
@[simp] theorem State.dropJob_ptc (s : State) (n : Nat) : (s.dropJob n).ptc = s.ptc := rfl

@[simp] theorem State.send_pending (s : State) (p : Port) (m : OutMsg) : (s.send p m).pending = s.pending := rfl
@[simp] theorem State.send_fsc (s : State) (p : Port) (m : OutMsg) : (s.send p m).fsc = s.fsc := rfl
@[simp] theorem State.send_dram (s : State) (p : Port) (m : OutMsg) : (s.send p m).dram = s.dram := rfl
@[simp] theorem State.send_siu (s : State) (p : Port) (m : OutMsg) : (s.send p m).siu = s.siu := rfl
@[simp] theorem State.send_cat (s : State) (p : Port) (m : OutMsg) : (s.send p m).cat = s.cat := rfl
@[simp] theorem State.send_fe (s : State) (p : Port) (m : OutMsg) : (s.send p m).fe = s.fe := rfl
@[simp] theorem State.send_dve (s : State) (p : Port) (m : OutMsg) : (s.send p m).dve = s.dve := rfl
@[simp] theorem State.send_crw (s : State) (p : Port) (m : OutMsg) : (s.send p m).crw = s.crw := rfl
@[simp] theorem State.send_ttc (s : State) (p : Port) (m : OutMsg) : (s.send p m).ttc = s.ttc := rfl
@[simp] theorem State.send_thm (s : State) (p : Port) (m : OutMsg) : (s.send p m).thm = s.thm := rfl

@[simp] theorem State.respond_pending (s : State) (r : Request) (p : Port) (tag : Byte) (x : Result) (b : List Byte) (d : Bool) : (s.respond r p tag x b d).pending = s.pending := rfl
@[simp] theorem State.respond_fsc (s : State) (r : Request) (p : Port) (tag : Byte) (x : Result) (b : List Byte) (d : Bool) : (s.respond r p tag x b d).fsc = s.fsc := rfl
@[simp] theorem State.respond_dram (s : State) (r : Request) (p : Port) (tag : Byte) (x : Result) (b : List Byte) (d : Bool) : (s.respond r p tag x b d).dram = s.dram := rfl
@[simp] theorem State.respond_siu (s : State) (r : Request) (p : Port) (tag : Byte) (x : Result) (b : List Byte) (d : Bool) : (s.respond r p tag x b d).siu = s.siu := rfl
@[simp] theorem State.respond_cat (s : State) (r : Request) (p : Port) (tag : Byte) (x : Result) (b : List Byte) (d : Bool) : (s.respond r p tag x b d).cat = s.cat := rfl
@[simp] theorem State.respond_fe (s : State) (r : Request) (p : Port) (tag : Byte) (x : Result) (b : List Byte) (d : Bool) : (s.respond r p tag x b d).fe = s.fe := rfl
@[simp] theorem State.respond_dve (s : State) (r : Request) (p : Port) (tag : Byte) (x : Result) (b : List Byte) (d : Bool) : (s.respond r p tag x b d).dve = s.dve := rfl
@[simp] theorem State.respond_crw (s : State) (r : Request) (p : Port) (tag : Byte) (x : Result) (b : List Byte) (d : Bool) : (s.respond r p tag x b d).crw = s.crw := rfl
@[simp] theorem State.respond_ttc (s : State) (r : Request) (p : Port) (tag : Byte) (x : Result) (b : List Byte) (d : Bool) : (s.respond r p tag x b d).ttc = s.ttc := rfl
@[simp] theorem State.respond_thm (s : State) (r : Request) (p : Port) (tag : Byte) (x : Result) (b : List Byte) (d : Bool) : (s.respond r p tag x b d).thm = s.thm := rfl

@[simp] theorem State.answer_pending (s : State) (r : Request) (h : Header) (b : List Byte) : (s.answer r h b).pending = s.pending := rfl
@[simp] theorem State.answer_fsc (s : State) (r : Request) (h : Header) (b : List Byte) : (s.answer r h b).fsc = s.fsc := rfl
@[simp] theorem State.answer_dram (s : State) (r : Request) (h : Header) (b : List Byte) : (s.answer r h b).dram = s.dram := rfl
@[simp] theorem State.answer_siu (s : State) (r : Request) (h : Header) (b : List Byte) : (s.answer r h b).siu = s.siu := rfl
@[simp] theorem State.answer_cat (s : State) (r : Request) (h : Header) (b : List Byte) : (s.answer r h b).cat = s.cat := rfl
@[simp] theorem State.answer_fe (s : State) (r : Request) (h : Header) (b : List Byte) : (s.answer r h b).fe = s.fe := rfl
@[simp] theorem State.answer_dve (s : State) (r : Request) (h : Header) (b : List Byte) : (s.answer r h b).dve = s.dve := rfl
@[simp] theorem State.answer_crw (s : State) (r : Request) (h : Header) (b : List Byte) : (s.answer r h b).crw = s.crw := rfl
@[simp] theorem State.answer_ttc (s : State) (r : Request) (h : Header) (b : List Byte) : (s.answer r h b).ttc = s.ttc := rfl
@[simp] theorem State.answer_thm (s : State) (r : Request) (h : Header) (b : List Byte) : (s.answer r h b).thm = s.thm := rfl

@[simp] theorem State.refuse_pending (s : State) (r : Request) (h : Header) (x : Result) : (s.refuse r h x).pending = s.pending := rfl
@[simp] theorem State.refuse_fsc (s : State) (r : Request) (h : Header) (x : Result) : (s.refuse r h x).fsc = s.fsc := rfl
@[simp] theorem State.refuse_dram (s : State) (r : Request) (h : Header) (x : Result) : (s.refuse r h x).dram = s.dram := rfl
@[simp] theorem State.refuse_siu (s : State) (r : Request) (h : Header) (x : Result) : (s.refuse r h x).siu = s.siu := rfl
@[simp] theorem State.refuse_cat (s : State) (r : Request) (h : Header) (x : Result) : (s.refuse r h x).cat = s.cat := rfl
@[simp] theorem State.refuse_fe (s : State) (r : Request) (h : Header) (x : Result) : (s.refuse r h x).fe = s.fe := rfl
@[simp] theorem State.refuse_dve (s : State) (r : Request) (h : Header) (x : Result) : (s.refuse r h x).dve = s.dve := rfl
@[simp] theorem State.refuse_crw (s : State) (r : Request) (h : Header) (x : Result) : (s.refuse r h x).crw = s.crw := rfl
@[simp] theorem State.refuse_ttc (s : State) (r : Request) (h : Header) (x : Result) : (s.refuse r h x).ttc = s.ttc := rfl
@[simp] theorem State.refuse_thm (s : State) (r : Request) (h : Header) (x : Result) : (s.refuse r h x).thm = s.thm := rfl

@[simp] theorem State.offer_pending (s : State) (p : Port) (n : Notice) : (s.offer p n).pending = s.pending := rfl
@[simp] theorem State.offer_fsc (s : State) (p : Port) (n : Notice) : (s.offer p n).fsc = s.fsc := rfl
@[simp] theorem State.offer_dram (s : State) (p : Port) (n : Notice) : (s.offer p n).dram = s.dram := rfl
@[simp] theorem State.offer_siu (s : State) (p : Port) (n : Notice) : (s.offer p n).siu = s.siu := rfl
@[simp] theorem State.offer_cat (s : State) (p : Port) (n : Notice) : (s.offer p n).cat = s.cat := rfl
@[simp] theorem State.offer_fe (s : State) (p : Port) (n : Notice) : (s.offer p n).fe = s.fe := rfl
@[simp] theorem State.offer_dve (s : State) (p : Port) (n : Notice) : (s.offer p n).dve = s.dve := rfl
@[simp] theorem State.offer_crw (s : State) (p : Port) (n : Notice) : (s.offer p n).crw = s.crw := rfl
@[simp] theorem State.offer_ttc (s : State) (p : Port) (n : Notice) : (s.offer p n).ttc = s.ttc := rfl
@[simp] theorem State.offer_thm (s : State) (p : Port) (n : Notice) : (s.offer p n).thm = s.thm := rfl

@[simp] theorem State.takeSlabs_pending (s : State) (k : Nat) : (s.takeSlabs k).pending = s.pending := rfl
@[simp] theorem State.takeSlabs_dram (s : State) (k : Nat) : (s.takeSlabs k).dram = s.dram := rfl
@[simp] theorem State.takeSlabs_siu (s : State) (k : Nat) : (s.takeSlabs k).siu = s.siu := rfl
@[simp] theorem State.takeSlabs_cat (s : State) (k : Nat) : (s.takeSlabs k).cat = s.cat := rfl
@[simp] theorem State.takeSlabs_fe (s : State) (k : Nat) : (s.takeSlabs k).fe = s.fe := rfl
@[simp] theorem State.takeSlabs_dve (s : State) (k : Nat) : (s.takeSlabs k).dve = s.dve := rfl
@[simp] theorem State.takeSlabs_crw (s : State) (k : Nat) : (s.takeSlabs k).crw = s.crw := rfl
@[simp] theorem State.takeSlabs_ttc (s : State) (k : Nat) : (s.takeSlabs k).ttc = s.ttc := rfl
@[simp] theorem State.takeSlabs_thm (s : State) (k : Nat) : (s.takeSlabs k).thm = s.thm := rfl
@[simp] theorem State.takeSlabs_ptc (s : State) (k : Nat) : (s.takeSlabs k).ptc = s.ptc := rfl

end Sys2Proof.Machine
end

