-- ==== Sys2Proof/Laws/Cascade.lean ====
section
/-! SUPPORT. What the operations that follow one change into another can do: releases and their tests, jobs, send items, card items,
rule evaluations. Each of them is a chain of the small changes listed in `Prim`; whatever every small change keeps,
they keep. -/

namespace Sys2Proof.Machine

/-- Only the list, the waiting releases and the accesses of the frame store change. -/
def Fsc.listsOnly (f : Fsc → Fsc) : Prop :=
  ∀ x, (f x).configured = x.configured ∧ (f x).slabCount = x.slabCount ∧ (f x).mode = x.mode ∧ (f x).reserve = x.reserve

/-- Only the jobs, the next job number and the applied thermal state change. -/
def Dve.jobsOnly (f : Dve → Dve) : Prop :=
  ∀ x, (f x).settings = x.settings ∧ (f x).auto = x.auto ∧ (f x).tones = x.tones

/-- One small change. -/
inductive Prim : State → State → Prop
  | fsc (s : State) (f : Fsc → Fsc) (h : Fsc.listsOnly f) : Prim s (s.updFsc f)
  | record (s : State) (n : Nat) (f : Record → Record) : Prim s (s.updRecord n f)
  | dropRecord (s : State) (n : Nat) : Prim s (s.dropRecord n)
  | dve (s : State) (f : Dve → Dve) (h : Dve.jobsOnly f) : Prim s (s.updDve f)
  | slot (s : State) (i : SlotId) (f : Slot → Slot) (h : ∀ x, (f x).detect = x.detect) : Prim s (s.updSlot i f)
  | dropItem (s : State) (n : Nat) : Prim s (s.dropItem n)
  | item (s : State) (n : Nat) (f : SendItem → SendItem)
      (h : ∀ i, (f i).shot = i.shot ∧ (f i).content = i.content ∧ ((f i).state = .sending → i.state = .sending)) :
      Prim s (s.updItem n f)
  | rename (s : State) (i : SendItem) (st : ItemState) (hi : i ∈ s.ttc.queue) (hn : s.itemFor i.shot .proof = none)
      (h : st ≠ .sending) : Prim s (s.updItem i.serial fun x => { x with content := .proof, state := st })
  | join (s : State) (i : SendItem) (h : i.state ≠ .sending) (hs : i.serial = s.newSerial)
      (hn : s.itemFor i.shot i.content = none) (hl : s.ttc.queue.length < Config.maxSendItems) :
      Prim s (s.updTtc fun t => { t with queue := t.queue ++ [i], nextSerial := nextSerialAfter i.serial })
  | back (s : State) (i : SendItem) (h : i.state ≠ .sending)
      (ho : ∃ x ∈ s.ttc.queue, x.serial = i.serial ∧ x.shot = i.shot ∧ x.content = i.content) :
      Prim s ((s.dropItem i.serial).updTtc fun t => { t with queue := i :: t.queue })
  | drops (s : State) : Prim s (s.updTtc fun t => { t with drops := sat16 t.drops })
  | offer (s : State) (p : Port) (n : Notice) (h : p ≠ .lens) (hn : n.isOverrun = false) : Prim s (s.offer p n)
  | send (s : State) (p : Port) (m : OutMsg) (h : p ≠ .lens) : Prim s (s.send p m)
  | cutFrame (s : State) (f : OutMsg → Bool) : Prim s (s.updPtc fun p => { p with tetherOut := p.tetherOut.filter f })
  | read (s : State) (r : Option ReadStream) : Prim s (s.updPtc fun p => { p with read := r })

/-- A chain of small changes. -/
inductive Cascade : State → State → Prop
  | refl (s : State) : Cascade s s
  | tail {s t u : State} (h : Cascade s t) (p : Prim t u) : Cascade s u

theorem Cascade.one {s t : State} (p : Prim s t) : Cascade s t := .tail (.refl s) p

theorem Cascade.trans {s t u : State} (h : Cascade s t) (k : Cascade t u) : Cascade s u := by
  induction k with
  | refl => exact h
  | tail _ p ih => exact .tail ih p

/-- What every small change keeps, a cascade keeps. -/
theorem Cascade.keeps {P : State → Prop} (hp : ∀ s t, Prim s t → P s → P t) {s t : State} (h : Cascade s t) (hs : P s) :
    P t := by
  induction h with
  | refl => exact hs
  | tail _ p ih => exact hp _ _ p ih

/-- A small change leaves these parts of the state alone. -/
theorem Prim.frame {s t : State} (h : Prim s t) :
    t.pending = s.pending ∧ t.dram = s.dram ∧ t.siu = s.siu ∧ t.fe = s.fe ∧ t.thm = s.thm := by
  cases h <;> exact ⟨rfl, rfl, rfl, rfl, rfl⟩

/-- A cascade leaves the waiting commands, the DRAM, the SIU, the FE and the THM alone. -/
theorem Cascade.frame {s t : State} (h : Cascade s t) :
    t.pending = s.pending ∧ t.dram = s.dram ∧ t.siu = s.siu ∧ t.fe = s.fe ∧ t.thm = s.thm := by
  induction h with
  | refl => exact ⟨rfl, rfl, rfl, rfl, rfl⟩
  | tail _ p ih =>
    obtain ⟨a, b, c, d, e⟩ := p.frame
    obtain ⟨a', b', c', d', e'⟩ := ih
    exact ⟨a.trans a', b.trans b', c.trans c', d.trans d', e.trans e'⟩

/-- A cascade leaves the store's configuration alone. -/
theorem Cascade.store {s t : State} (h : Cascade s t) :
    t.fsc.configured = s.fsc.configured ∧ t.fsc.slabCount = s.fsc.slabCount ∧ t.fsc.mode = s.fsc.mode
      ∧ t.fsc.reserve = s.fsc.reserve := by
  induction h with
  | refl => exact ⟨rfl, rfl, rfl, rfl⟩
  | @tail t u _ p ih =>
    cases p with
    | fsc f h =>
      obtain ⟨a, b, c, d⟩ := h t.fsc
      obtain ⟨a', b', c', d'⟩ := ih
      exact ⟨a.trans a', b.trans b', c.trans c', d.trans d'⟩
    | _ => exact ih

/-- A cascade leaves the session, the rules, the limits and the link error count alone. -/
theorem Cascade.session {s t : State} (h : Cascade s t) :
    t.ttc.attached = s.ttc.attached ∧ t.ttc.silence = s.ttc.silence ∧ t.ttc.rules = s.ttc.rules
      ∧ t.ttc.errors = s.ttc.errors ∧ t.ttc.threshold = s.ttc.threshold ∧ t.ttc.armed = s.ttc.armed
      ∧ t.ttc.policy = s.ttc.policy ∧ t.ttc.silenceLimit = s.ttc.silenceLimit := by
  induction h with
  | refl => simp
  | tail _ p ih => cases p <;> exact ih

/-- A cascade leaves the time base, the enables, the lens port and the next shot number alone. -/
theorem Cascade.ports {s t : State} (h : Cascade s t) :
    t.ptc.timeBase = s.ptc.timeBase ∧ t.ptc.enables = s.ptc.enables ∧ t.ptc.lensQueue = s.ptc.lensQueue
      ∧ t.ptc.lensOut = s.ptc.lensOut ∧ t.cat.nextShot = s.cat.nextShot ∧ t.cat.clipLevel = s.cat.clipLevel
      ∧ t.cat.pressureYield = s.cat.pressureYield := by
  induction h with
  | refl => simp
  | tail _ p ih =>
    cases p with
    | offer p n h hn => cases p <;> first | exact ih | exact absurd rfl h
    | send p n h => cases p <;> first | exact ih | exact absurd rfl h
    | _ => exact ih

/-! ## Short ways to say a small change -/

theorem Cascade.fsc (s : State) {f : Fsc → Fsc} (h : Fsc.listsOnly f) : Cascade s (s.updFsc f) := .one (.fsc s f h)
theorem Cascade.record (s : State) (n : Nat) (f : Record → Record) : Cascade s (s.updRecord n f) := .one (.record s n f)
theorem Cascade.dve (s : State) {f : Dve → Dve} (h : Dve.jobsOnly f) : Cascade s (s.updDve f) := .one (.dve s f h)
theorem Cascade.updJob (s : State) (n : Nat) (f : Job → Job) : Cascade s (s.updJob n f) :=
  .one (.dve s _ fun _ => ⟨rfl, rfl, rfl⟩)
theorem Cascade.dropJob (s : State) (n : Nat) : Cascade s (s.dropJob n) := .one (.dve s _ fun _ => ⟨rfl, rfl, rfl⟩)
theorem Cascade.offerBody (s : State) (n : Notice) (h : n.isOverrun = false) : Cascade s (s.offer .body n) :=
  .one (.offer s _ n (by decide) h)
theorem Cascade.offerTether (s : State) (n : Notice) (h : n.isOverrun = false) : Cascade s (s.offer .tether n) :=
  .one (.offer s _ n (by decide) h)
theorem Cascade.send (s : State) {p : Port} (m : OutMsg) (h : p ≠ .lens) : Cascade s (s.send p m) := .one (.send s p m h)

theorem Cascade.respond (s : State) (r : Request) {p : Port} (tag : Byte) (x : Result) (b : List Byte) (d : Bool) (h : p ≠ .lens) :
    Cascade s (s.respond r p tag x b d) := .one (.send s p _ h)

theorem Cascade.offerClass (s : State) (e : Classes → Bool) (n : Notice) (h : n.isOverrun = false) : Cascade s (s.offerClass e n) := by
  unfold State.offerClass
  split
  · exact .offerBody s n h
  · exact .refl s

theorem Cascade.setReq (s : State) (n : Nat) (i : SlotId) (q : Requirement) : Cascade s (s.setReq n i q) := .record s n _
theorem Cascade.setMark (s : State) (n : Nat) (c : Content) (m : TetherMark) : Cascade s (s.setMark n c m) := .record s n _
theorem Cascade.pin (s : State) (n : Nat) (c : Content) : Cascade s (s.pin n c) := .record s n _
theorem Cascade.unpin (s : State) (n : Nat) (c : Content) : Cascade s (s.unpin n c) := .record s n _
theorem Cascade.dropItem (s : State) (n : Nat) : Cascade s (s.dropItem n) := .one (.dropItem s n)

theorem Cascade.item (s : State) (n : Nat) {f : SendItem → SendItem}
    (h : ∀ i, (f i).shot = i.shot ∧ (f i).content = i.content ∧ ((f i).state = .sending → i.state = .sending)) :
    Cascade s (s.updItem n f) := .one (.item s n f h)

theorem Cascade.slot (s : State) (i : SlotId) {f : Slot → Slot} (h : ∀ x, (f x).detect = x.detect) :
    Cascade s (s.updSlot i f) := .one (.slot s i f h)

/-! ## The engine's pick and the claims (R7 to R11, R117 to R120) -/

theorem claimDevelop_cascade {k : Nat} {s t : State} {c : List Nat} (h : claimDevelop k s = some (c, t)) : Cascade s t := by
  unfold claimDevelop at h
  split at h
  · cases h; exact .fsc s fun _ => ⟨rfl, rfl, rfl, rfl⟩
  · cases h

/-- What a granted DEVELOP claim does: the first k slabs leave the head, and at least the reserve stays (R8). -/
theorem claimDevelop_some {k : Nat} {s t : State} {c : List Nat} (h : claimDevelop k s = some (c, t)) :
    s.fsc.configured = true ∧ s.fsc.reserve + k ≤ s.fsc.freeList.length ∧ c = s.fsc.freeList.take k
      ∧ t = s.updFsc fun f => { f with freeList := f.freeList.drop k } := by
  unfold claimDevelop at h
  split at h
  case isTrue hc => cases h; simp only [Bool.and_eq_true, decide_eq_true_eq] at hc; exact ⟨hc.1, hc.2, rfl, rfl⟩
  case isFalse => cases h

/-- What a granted CAPTURE claim does (R7). -/
theorem claimCapture_some {k : Nat} {s t : State} {c : List Nat} (h : claimCapture k s = some (c, t)) :
    s.fsc.configured = true ∧ k ≤ s.fsc.freeList.length ∧ c = s.fsc.freeList.take k
      ∧ t = s.updFsc fun f => { f with freeList := f.freeList.drop k } := by
  unfold claimCapture at h
  split at h
  case isTrue hc => cases h; simp only [Bool.and_eq_true, decide_eq_true_eq] at hc; exact ⟨hc.1, hc.2, rfl, rfl⟩
  case isFalse => cases h

theorem claimFor_cascade (j : Job) (s : State) : Cascade s (claimFor j s) := by
  unfold claimFor
  split
  case _ chain t h => exact (claimDevelop_cascade h).trans (.updJob _ _ _)
  case _ => exact .updJob _ _ _

theorem pick_cascade (s : State) : Cascade s (pick s) := by
  unfold pick
  split
  · split
    · exact .updJob _ _ _
    · exact claimFor_cascade _ _
  · exact .refl s

theorem requeueWaiting_cascade (c : Job → Bool) (s : State) : Cascade s (requeueWaiting c s) := by
  unfold requeueWaiting
  split
  · split
    · exact .updJob _ _ _
    · exact .refl s
  · exact .refl s

theorem urgentAppears_cascade (s : State) : Cascade s (urgentAppears s) := requeueWaiting_cascade _ s

theorem announceSlabs_cascade (s : State) : Cascade s (announceSlabs s) := by
  unfold announceSlabs
  split
  · split
    · exact claimFor_cascade _ _
    · exact .refl s
  · exact .refl s

theorem applyThermal_cascade (t : Thermal) (s : State) : Cascade s (applyThermal t s) := by
  refine .trans (.trans ?_ (requeueWaiting_cascade _ _)) (pick_cascade _)
  exact .dve s fun _ => ⟨rfl, rfl, rfl⟩

theorem handThermalToDve_cascade (t : Thermal) (s : State) : Cascade s (handThermalToDve t s) := by
  unfold handThermalToDve
  split
  · exact .dve s fun _ => ⟨rfl, rfl, rfl⟩
  · exact applyThermal_cascade t s

/-! ## Release (R10, R54 to R57) -/

theorem carryOutRelease_cascade (c : List Nat) (s : State) : Cascade s (carryOutRelease c s) := by
  refine .trans ?_ (announceSlabs_cascade _)
  exact .fsc s fun _ => ⟨rfl, rfl, rfl, rfl⟩

theorem releaseChain_cascade (c : List Nat) (s : State) : Cascade s (releaseChain c s) := by
  unfold releaseChain
  split
  · exact .fsc s fun _ => ⟨rfl, rfl, rfl, rfl⟩
  · exact carryOutRelease_cascade c s

theorem settleReleases_cascade (cs : List (List Nat)) (s : State) : Cascade s (settleReleases cs s) := by
  induction cs generalizing s with
  | nil => exact .refl s
  | cons c cs ih =>
    refine Cascade.trans ?_ (ih _)
    split
    · exact .refl s
    · refine .trans ?_ (carryOutRelease_cascade c _)
      exact .fsc s fun _ => ⟨rfl, rfl, rfl, rfl⟩

theorem beginAccess_cascade (u : AccessUser) (c : List Nat) (s : State) : Cascade s (beginAccess u c s) :=
  .fsc s fun _ => ⟨rfl, rfl, rfl, rfl⟩

theorem endAccess_cascade (u : AccessUser) (c : List Nat) (s : State) : Cascade s (endAccess u c s) := by
  refine .trans ?_ (settleReleases_cascade _ _)
  exact .fsc s fun _ => ⟨rfl, rfl, rfl, rfl⟩

theorem releaseRaw_cascade (n : Nat) (s : State) : Cascade s (releaseRaw n s) := by
  unfold releaseRaw
  split
  · split
    · split
      · exact (Cascade.record s n _).trans (releaseChain_cascade _ _)
      · exact .refl s
    · exact .refl s
  · exact .refl s

theorem releaseProof_cascade (n : Nat) (s : State) : Cascade s (releaseProof n s) := by
  unfold releaseProof
  split
  · split
    · split
      · exact (Cascade.record s n _).trans (releaseChain_cascade _ _)
      · exact .refl s
    · exact .refl s
  · exact .refl s

theorem freeRecord_cascade (n : Nat) (s : State) : Cascade s (freeRecord n s) := by
  unfold freeRecord
  split
  · split
    · dsimp only
      split
      · exact ((Cascade.offerBody s _ (by rfl)).trans (.one (.dropRecord _ n))).trans (.respond _ _ _ _ _ _ (by decide))
      · exact (Cascade.offerBody s _ (by rfl)).trans (.one (.dropRecord _ n))
    · exact .refl s
  · exact .refl s

theorem testRelease_cascade (n : Nat) (s : State) : Cascade s (testRelease n s) :=
  ((releaseRaw_cascade n s).trans (releaseProof_cascade n _)).trans (freeRecord_cascade n _)

theorem unpinAndTest_cascade (n : Nat) (c : Content) (s : State) : Cascade s (unpinAndTest n c s) :=
  (Cascade.unpin s n c).trans (testRelease_cascade n _)

theorem cutRead_cascade (c : ReadStream → Bool) (s : State) : Cascade s (cutRead c s) := by
  unfold cutRead
  split
  · split
    · exact .one (.read s _)
    · exact .refl s
  · exact .refl s

theorem sendReadFrame_cascade (x : ReadStream) (s : State) : Cascade s (sendReadFrame x s) :=
  ((beginAccess_cascade _ _ s).trans (.one (.read _ _))).trans (.send (p := .body) _ _ (by decide))

theorem endRead_cascade (n : Nat) (s : State) : Cascade s (endRead n s) :=
  (Cascade.one (.read s none)).trans (testRelease_cascade n _)

end Sys2Proof.Machine
end

