-- ==== Sys2Proof/Laws/CascadeSend.lean ====
section
/-! SUPPORT. The operations of the send queue, the job list and the card slots are cascades. -/

namespace Sys2Proof.Machine

/-! ## Queries that small changes keep -/

/-- Changing items without their shot and content keeps which shot and content have one. -/
theorem updItem_itemFor_none {s : State} {n m : Nat} {c : Content} {f : SendItem → SendItem}
    (h : ∀ i, (f i).shot = i.shot ∧ (f i).content = i.content) (hn : s.itemFor m c = none) :
    (s.updItem n f).itemFor m c = none := by
  simp only [State.itemFor, State.updItem, State.updTtc, List.find?_eq_none, List.mem_map] at *
  rintro x ⟨y, hy, rfl⟩
  have := hn y hy
  obtain ⟨h1, h2⟩ := h y
  split <;> simp_all

theorem becomeReady_cascade (n : Nat) (s : State) : Cascade s (becomeReady n s) := by
  unfold becomeReady
  have h : Cascade s (s.updItem n fun i => { i with state := .ready }) := .item s n fun i => ⟨rfl, rfl, fun h => by simp at h⟩
  dsimp only
  split
  · exact h
  · exact h.trans (.offerTether _ _ (by rfl))

theorem leaveQueue_cascade (i : SendItem) (m : TetherMark) (s : State) : Cascade s (leaveQueue i m s) :=
  ((Cascade.dropItem s _).trans (.setMark _ _ _ _)).trans (.unpin _ _ _)

theorem leaveAndTest_cascade (i : SendItem) (m : TetherMark) (s : State) : Cascade s (leaveAndTest i m s) :=
  (leaveQueue_cascade i m s).trans (testRelease_cascade _ _)

theorem ttcJobCreated_cascade (n : Nat) (s : State) : Cascade s (ttcJobCreated n s) := by
  unfold ttcJobCreated
  split
  · split
    · exact .item s _ fun i => ⟨rfl, rfl, fun h => by simp at h⟩
    · exact .refl s
  · exact .refl s

theorem ttcJobCompleted_cascade (n c : Nat) (m : Mode) (s : State) : Cascade s (ttcJobCompleted n c m s) := by
  unfold ttcJobCompleted
  split
  · split
    · split
      · exact becomeReady_cascade _ _
      · exact leaveAndTest_cascade _ _ _
    · exact .refl s
  · exact .refl s

/-! ## Jobs -/

theorem createJob_cascade (n : Nat) (m : Mode) (p : DevelopParams) (c : Priority) (o : JobOrigin) (s : State) :
    Cascade s (createJob n m p c o s) := by
  unfold createJob
  dsimp only
  refine .trans ?_ (pick_cascade _)
  have h : ∀ u, Cascade s u → Cascade s (if (c == .urgent) = true then urgentAppears u else u) := by
    intro u hu
    split
    · exact hu.trans (urgentAppears_cascade _)
    · exact hu
  apply h
  refine .trans ?_ (ttcJobCreated_cascade _ _)
  refine .trans ?_ (.record _ _ _)
  exact .dve s fun _ => ⟨rfl, rfl, rfl⟩

theorem afterMerge_cascade (b : Bool) (s : State) : Cascade s (afterMerge b s) := by
  unfold afterMerge
  refine .trans ?_ (pick_cascade _)
  split
  · exact urgentAppears_cascade _
  · exact .refl s

theorem mergeInternal_cascade (j : Job) (c : Priority) (s : State) : Cascade s (mergeInternal j c s) := by
  unfold mergeInternal
  split
  · exact (Cascade.updJob s _ _).trans (afterMerge_cascade _ _)
  · exact .refl s

theorem mergeDevelop_cascade (j : Job) (p : DevelopParams) (c : Priority) (o : JobOrigin) (s : State) :
    Cascade s (mergeDevelop j p c o s) := (Cascade.updJob s _ _).trans (afterMerge_cascade _ _)

theorem internalRequest_cascade (n : Nat) (p : DevelopParams) (c : Priority) (o : JobOrigin) (s : State) :
    Cascade s (internalRequest n p c o s).2 := by
  unfold internalRequest
  split
  · exact .refl s
  · split
    · exact .refl s
    · split
      · exact mergeInternal_cascade _ _ _
      · split
        · exact .refl s
        · split
          · exact .refl s
          · exact createJob_cascade _ _ _ _ _ _

/-- A job operation of the DVE's own list leaves the TTC alone. -/
theorem claimFor_ttc (j : Job) (s : State) : (claimFor j s).ttc = s.ttc := by
  unfold claimFor
  split
  case _ c t h => obtain ⟨-, -, -, rfl⟩ := claimDevelop_some h; rfl
  case _ => rfl

theorem pick_ttc (s : State) : (pick s).ttc = s.ttc := by
  unfold pick
  split
  · split
    · rfl
    · exact claimFor_ttc _ _
  · rfl

theorem requeueWaiting_ttc (c : Job → Bool) (s : State) : (requeueWaiting c s).ttc = s.ttc := by
  unfold requeueWaiting
  split
  · split <;> rfl
  · rfl

theorem afterMerge_ttc (b : Bool) (s : State) : (afterMerge b s).ttc = s.ttc := by
  unfold afterMerge
  rw [pick_ttc]
  split
  · exact requeueWaiting_ttc _ _
  · rfl

theorem ttcJobCreated_ttc (n : Nat) {s t : State} (h : s.ttc = t.ttc) : (ttcJobCreated n s).ttc = (ttcJobCreated n t).ttc := by
  unfold ttcJobCreated
  have h' : s.itemFor n .proof = t.itemFor n .proof := by simp [State.itemFor, h]
  rw [h']
  split
  · split
    · simp [State.updItem, h]
    · exact h
  · exact h

/-- What a job's creation does to the items: it turns a READY PROOF item of the shot back to WAITING_PROOF (R169). -/
theorem createJob_ttc (n : Nat) (m : Mode) (p : DevelopParams) (c : Priority) (o : JobOrigin) (s : State) :
    (createJob n m p c o s).ttc = (ttcJobCreated n s).ttc := by
  unfold createJob
  dsimp only
  rw [pick_ttc]
  split
  · rw [urgentAppears, requeueWaiting_ttc]
    exact ttcJobCreated_ttc n rfl
  · exact ttcJobCreated_ttc n rfl

theorem ttcJobCreated_queue (n : Nat) (s : State) :
    (∀ m k, s.itemFor m k = none → (ttcJobCreated n s).itemFor m k = none)
      ∧ (ttcJobCreated n s).ttc.queue.length = s.ttc.queue.length := by
  unfold ttcJobCreated
  split
  · split
    · refine ⟨fun m k hm => updItem_itemFor_none ?_ hm, ?_⟩
      · exact fun i => ⟨rfl, rfl⟩
      · simp [State.updItem, State.updTtc]
    · exact ⟨fun _ _ h => h, rfl⟩
  · exact ⟨fun _ _ h => h, rfl⟩

/-- An internal request leaves alone which shot and content have no item, and how many items there are. -/
theorem internalRequest_queue (n : Nat) (p : DevelopParams) (c : Priority) (o : JobOrigin) (s : State) :
    (∀ m k, s.itemFor m k = none → (internalRequest n p c o s).2.itemFor m k = none)
      ∧ (internalRequest n p c o s).2.ttc.queue.length = s.ttc.queue.length := by
  have hitem : ∀ {a b : State}, a.ttc = b.ttc → ∀ m k, a.itemFor m k = b.itemFor m k := by
    intro a b h m k
    simp [State.itemFor, h]
  unfold internalRequest
  split
  · exact ⟨fun _ _ h => h, rfl⟩
  · split
    · exact ⟨fun _ _ h => h, rfl⟩
    · split
      · have h : ∀ j, (mergeInternal j c s).ttc = s.ttc := by
          intro j
          unfold mergeInternal
          split
          · rw [afterMerge_ttc]; rfl
          · rfl
        exact ⟨fun m k hm => by rw [hitem (h _)]; exact hm, by rw [h]⟩
      · split
        · exact ⟨fun _ _ h => h, rfl⟩
        · split
          · exact ⟨fun _ _ h => h, rfl⟩
          · rename_i r _ _ _ _ _ _
            have h := createJob_ttc n r.mode p c o s
            have ht := ttcJobCreated_queue n s
            exact ⟨fun m k hm => by rw [hitem h]; exact ht.1 m k hm, by rw [h, ht.2]⟩

theorem endCancelled_cascade (j : Job) (s : State) : Cascade s (endCancelled j s) := by
  unfold endCancelled
  dsimp only
  refine .trans (.trans ?_ (testRelease_cascade _ _)) (pick_cascade _)
  have h := (Cascade.dropJob s j.shot).trans (.record (s.dropJob j.shot) j.shot fun r =>
    { r with proofState := if r.proof.isSome then .done else .none })
  split
  · exact h.trans (releaseChain_cascade _ _)
  · exact h

theorem cancelJob_cascade (n : Nat) (s : State) : Cascade s (cancelJob n s) := by
  unfold cancelJob
  split
  · split
    · exact .updJob _ _ _
    · exact endCancelled_cascade _ _
  · exact .refl s

theorem completeJob_cascade (j : Job) (p : Progress) (s : State) : Cascade s (completeJob j p s) := by
  unfold completeJob
  dsimp only
  refine .trans (.trans (.trans (.trans ?_ (testRelease_cascade _ _)) (.offerBody _ _ (by rfl))) (ttcJobCompleted_cascade _ _ _ _))
    (pick_cascade _)
  split
  · refine .trans (.trans ?_ (cutRead_cascade _ _)) (releaseChain_cascade _ _)
    exact (Cascade.dropJob s _).trans (.record _ _ _)
  · exact (Cascade.dropJob s _).trans (.record _ _ _)

/-! ## Enqueueing and rules -/

theorem joinQueue_cascade (n : Nat) (c : Content) (p : Priority) (o : Option Nat) (m : Nat) (sc : Scale) (s : State)
    (hn : s.itemFor n c = none) (hl : s.ttc.queue.length < Config.maxSendItems) :
    Cascade s (joinQueue n c p o m sc s) := by
  unfold joinQueue
  dsimp only
  have h : ∀ i : SendItem, i.state ≠ .sending → i.serial = s.newSerial → i.shot = n → i.content = c →
      Cascade s (((s.pin n c).updTtc fun t =>
        { t with queue := t.queue ++ [i], nextSerial := nextSerialAfter i.serial }).setMark n c .queued) := by
    intro i h1 h2 h3 h4
    refine .trans (.trans (.pin s n c) (.one (.join _ i h1 h2 ?_ hl))) (.setMark _ _ _ _)
    rw [h3, h4]
    exact hn
  split
  · exact (h _ (by simp) rfl rfl rfl).trans (becomeReady_cascade _ _)
  · split
    · exact (h _ (by simp) rfl rfl rfl).trans (becomeReady_cascade _ _)
    · exact h _ (by simp) rfl rfl rfl
  · exact h _ (by simp) rfl rfl rfl

theorem enqueueItem_cascade (n : Nat) (c : Content) (p : Priority) (o : Option Nat) (m : Nat) (sc : Scale) (s : State)
    (hn : s.itemFor n c = none) : Cascade s (enqueueItem n c p o m sc s).2 := by
  unfold enqueueItem
  split
  · exact .refl s
  · rename_i r _
    split
    · exact .refl s
    · split
      · exact .refl s
      · rename_i hl
        have hl : s.ttc.queue.length < Config.maxSendItems := by omega
        split
        · have h1 := internalRequest_cascade n { r.snapshot with scale := sc } p (if o.isSome then .rule else .tether) s
          have h2 := internalRequest_queue n { r.snapshot with scale := sc } p (if o.isSome then .rule else .tether) s
          split
          · rename_i heq
            rw [heq] at h1 h2
            exact h1.trans (joinQueue_cascade _ _ _ _ _ _ _ (h2.1 _ _ hn) (by rw [h2.2]; exact hl))
          · rename_i heq
            rw [heq] at h1 h2
            exact h1.trans (joinQueue_cascade _ _ _ _ _ _ _ (h2.1 _ _ hn) (by rw [h2.2]; exact hl))
          · rename_i heq
            rw [heq] at h1
            exact h1
        · exact joinQueue_cascade _ _ _ _ _ _ _ hn hl

theorem raiseItem_cascade (i : SendItem) (c : Priority) (s : State) : Cascade s (raiseItem i c s) := by
  unfold raiseItem
  have h : Cascade s (s.updItem i.serial fun x => { x with cls := i.cls.higher c }) := .item s _ fun x => ⟨rfl, rfl, id⟩
  dsimp only
  split
  · split
    · exact h.trans (internalRequest_cascade _ _ _ _ _)
    · exact h
  · exact h

theorem actOnMatch_cascade (k : Nat) (u : SendRule) (n : Nat) (s : State) : Cascade s (actOnMatch k u n s) := by
  unfold actOnMatch
  split
  · exact raiseItem_cascade _ _ _
  · rename_i hn
    split
    · exact .refl s
    · split
      · exact .refl s
      · have h := enqueueItem_cascade n u.content u.cls (some k) u.maxClip u.scale s hn
        split <;> (rename_i heq; rw [heq] at h)
        · exact h
        · exact (h.trans (.setMark _ _ _ _)).trans (.one (.drops _))
        · exact h.trans (.setMark _ _ _ _)
        · exact h

theorem applyRules_cascade (n k : Nat) (us : List SendRule) (s : State) : Cascade s (applyRules n k us s) := by
  induction us generalizing k s with
  | nil => exact .refl s
  | cons u us ih =>
    refine Cascade.trans ?_ (ih _ _)
    split
    · split
      · exact actOnMatch_cascade _ _ _ _
      · exact .refl s
    · exact .refl s

theorem evaluateRules_cascade (n : Nat) (s : State) : Cascade s (evaluateRules n s) := by
  unfold evaluateRules
  split
  · exact applyRules_cascade _ _ _ _
  · exact .refl s

/-! ## Cuts -/

theorem answerCancel_cascade (i : SendItem) (s : State) : Cascade s (answerCancel i s) := by
  unfold answerCancel
  split
  · exact .respond s .cancelItem _ _ _ _ (by decide)
  · exact .refl s

theorem endDeleted_cascade (i : SendItem) (s : State) : Cascade s (endDeleted i s) := by
  unfold endDeleted
  refine .trans (.trans (.trans (leaveQueue_cascade _ _ _) (.offerTether _ _ (by rfl))) (answerCancel_cascade _ _)) (testRelease_cascade _ _)

theorem endCanceled_cascade (i : SendItem) (s : State) : Cascade s (endCanceled i s) := by
  unfold endCanceled
  exact .trans (.trans (leaveQueue_cascade _ _ _) (answerCancel_cascade _ _)) (testRelease_cascade _ _)

theorem returnToHead_cascade (i : SendItem) (s : State)
    (h : ∃ x ∈ s.ttc.queue, x.serial = i.serial ∧ x.shot = i.shot ∧ x.content = i.content) : Cascade s (returnToHead i s) := by
  unfold returnToHead
  refine .trans ?_ (becomeReady_cascade _ _)
  exact .one (.back s { i with state := .waitingProof, transfer := none, cut := .clear, cancelTag := none } (by simp) h)

theorem abandonFrame_cascade (i : SendItem) (s : State) : Cascade s (abandonFrame i s) := by
  unfold abandonFrame
  split
  · split
    · exact .refl s
    · exact (Cascade.one (.cutFrame s _)).trans (endAccess_cascade _ _ _)
  · exact .refl s

theorem announceSlabs_ttc (s : State) : (announceSlabs s).ttc = s.ttc := by
  unfold announceSlabs
  split
  · split
    · exact claimFor_ttc _ _
    · rfl
  · rfl

theorem settleReleases_ttc (cs : List (List Nat)) (s : State) : (settleReleases cs s).ttc = s.ttc := by
  induction cs generalizing s with
  | nil => rfl
  | cons c cs ih =>
    refine (ih _).trans ?_
    split
    · rfl
    · exact announceSlabs_ttc _

theorem endAccess_ttc (u : AccessUser) (c : List Nat) (s : State) : (endAccess u c s).ttc = s.ttc := settleReleases_ttc _ _

theorem abandonFrame_ttc (i : SendItem) (s : State) : (abandonFrame i s).ttc = s.ttc := by
  unfold abandonFrame
  split
  · split
    · rfl
    · exact endAccess_ttc _ _ _
  · rfl

theorem settleSending_cascade (k : Bool) (s : State) : Cascade s (settleSending k s) := by
  unfold settleSending
  split
  · exact .refl s
  · rename_i i hi
    have h := abandonFrame_cascade i s
    dsimp only
    split
    · exact h.trans (endDeleted_cascade _ _)
    · exact h.trans (endCanceled_cascade _ _)
    · split
      · refine h.trans (returnToHead_cascade _ _ ?_)
        rw [abandonFrame_ttc]
        exact ⟨i, List.mem_of_find?_eq_some hi, rfl, rfl, rfl⟩
      · exact h

theorem dropItems_cascade (is : List SendItem) (s : State) : Cascade s (dropItems is s) := by
  induction is generalizing s with
  | nil => exact .refl s
  | cons i is ih => exact (leaveAndTest_cascade _ _ _).trans (ih _)

theorem deleteItems_cascade (is : List SendItem) (s : State) : Cascade s (deleteItems is s) := by
  induction is generalizing s with
  | nil => exact .refl s
  | cons i is ih =>
    refine Cascade.trans ?_ (ih _)
    split
    · exact leaveQueue_cascade _ _ _
    · exact leaveQueue_cascade _ _ _
    · split
      · split
        · exact endDeleted_cascade _ _
        · exact .item s _ fun x => ⟨rfl, rfl, id⟩
      · exact endDeleted_cascade _ _

/-! ## Relief -/

theorem renameToProof_cascade (i : SendItem) (st : ItemState) (s : State) (hi : i ∈ s.ttc.queue)
    (hn : s.itemFor i.shot .proof = none) (h : st ≠ .sending) : Cascade s (renameToProof i st s) :=
  ((Cascade.one (.rename s i st hi hn h)).trans (.pin _ _ _)).trans (.setMark _ _ _ _)

theorem downgrade_cascade (i : SendItem) (s : State) (hi : i ∈ s.ttc.queue) : Cascade s (downgrade i s) := by
  unfold downgrade
  dsimp only
  refine .trans ?_ (testRelease_cascade _ _)
  refine .trans (.trans (.unpin s i.shot .raw) (.setMark _ i.shot .raw .dropped)) ?_
  split
  · exact .dropItem _ _
  · split
    · exact .dropItem _ _
    · rename_i hn
      have hn : s.itemFor i.shot .proof = none := by simpa using hn
      have h : ∀ st, st ≠ .sending → Cascade ((s.unpin i.shot .raw).setMark i.shot .raw .dropped)
          (renameToProof i st ((s.unpin i.shot .raw).setMark i.shot .raw .dropped)) :=
        fun st hst => renameToProof_cascade _ _ _ hi hn hst
      split
      · exact h _ (by simp)
      · exact h _ (by simp)
      · rename_i r _ _ _ _
        have h' := (h .waitingProof (by simp)).trans
          (internalRequest_cascade i.shot { r.snapshot with scale := .quarter } .normal .relief _)
        split <;> (rename_i heq; rw [heq] at h')
        · exact h'
        · exact h'
        · exact ((h'.trans (.dropItem _ _)).trans (.unpin _ _ _)).trans (.setMark _ _ _ _)

theorem relieve_cascade (k n : Nat) (s : State) : Cascade s (relieve k n s) := by
  induction n generalizing s with
  | zero => exact .refl s
  | succ n ih =>
    unfold relieve
    split
    · exact .refl s
    · split
      · rename_i i hi
        exact (downgrade_cascade _ _ (List.mem_of_find?_eq_some hi)).trans (ih _)
      · exact .refl s

end Sys2Proof.Machine
end

