-- ==== Sys2Proof/Laws/CascadeCard.lean ====
section
/-! SUPPORT. The operations of the card slots and of the catalog that follow a change are cascades. -/

namespace Sys2Proof.Machine

theorem moveSlot_cascade (i : SlotId) (n : SlotState) (s : State) : Cascade s (moveSlot i n s) := by
  unfold moveSlot
  have h : Cascade s (s.updSlot i fun x => { x with state := n }) := .slot s i fun _ => rfl
  dsimp only
  split
  · exact h
  · exact h.trans (.offerClass _ _ _ (by rfl))

theorem takeBlock_cascade (i : SlotId) (b : BlockRequest) (s : State) : Cascade s (takeBlock i b s) := .slot s i fun _ => rfl

theorem takeChunk_cascade (i : SlotId) (w : WritingItem) (s : State) : Cascade s (takeChunk i w s) := by
  unfold takeChunk
  exact (beginAccess_cascade _ _ s).trans (.slot _ i fun _ => rfl)

theorem arbitrate_cascade (i : SlotId) (s : State) : Cascade s (arbitrate i s) := by
  unfold arbitrate
  dsimp only
  split
  · exact .refl s
  · split
    · split
      · exact takeChunk_cascade _ _ _
      · exact takeBlock_cascade _ _ _
    · exact takeBlock_cascade _ _ _
    · split
      · exact takeChunk_cascade _ _ _
      · exact .refl s
    · exact .refl s

theorem tryHead_cascade (i : SlotId) (s : State) : Cascade s (tryHead i s) := by
  unfold tryHead
  dsimp only
  split
  · split
    · split
      · exact moveSlot_cascade _ _ _
      · exact .refl s
    · split
      · refine .trans (.trans (.trans ?_ (.setReq _ _ _ _)) (moveSlot_cascade _ _ _)) (arbitrate_cascade _ _)
        exact .slot s i fun _ => rfl
      · exact moveSlot_cascade _ _ _
  · exact .refl s

theorem tryIdle_cascade (i : SlotId) (s : State) : Cascade s (tryIdle i s) := by
  unfold tryIdle
  split
  · exact tryHead_cascade _ _
  · exact .refl s

theorem queueItem_cascade (i : SlotId) (x : CardItem) (s : State) : Cascade s (queueItem i x s) := by
  unfold queueItem
  refine .trans ?_ (.setReq _ _ _ _)
  exact .slot s i fun _ => rfl

theorem queueAndTry_cascade (i : SlotId) (x : CardItem) (s : State) : Cascade s (tryIdle i (queueItem i x s)) :=
  (queueItem_cascade _ _ _).trans (tryIdle_cascade _ _)

theorem enqueueCard_cascade (r : Record) (s : State) : Cascade s (enqueueCard r s) := by
  unfold enqueueCard
  dsimp only
  split
  · split <;> exact queueAndTry_cascade _ _ _
  · split <;> split
    · exact (queueAndTry_cascade _ _ _).trans (queueAndTry_cascade _ _ _)
    · exact queueAndTry_cascade _ _ _
    · exact queueAndTry_cascade _ _ _
    · exact .refl s

theorem migrateItem_cascade (x : CardItem) (s : State) : Cascade s (migrateItem x s) := by
  unfold migrateItem
  split
  · exact .refl s
  · dsimp only
    refine .trans ?_ (testRelease_cascade _ _)
    split
    · exact (Cascade.setReq _ _ _ _).trans (queueItem_cascade _ _ _)
    · exact .setReq _ _ _ _

theorem migrateItems_cascade (xs : List CardItem) (s : State) : Cascade s (migrateItems xs s) := by
  induction xs generalizing s with
  | nil => exact .refl s
  | cons x xs ih => exact (migrateItem_cascade _ _).trans (ih _)

theorem migrateFrom_cascade (i : SlotId) (xs : List CardItem) (s : State) : Cascade s (migrateFrom i xs s) := by
  unfold migrateFrom
  split
  · dsimp only
    refine .trans (.trans ?_ (migrateItems_cascade _ _)) (tryIdle_cascade _ _)
    exact .slot s .a fun _ => rfl
  · exact .refl s

theorem endItem_cascade (i : SlotId) (w : WritingItem) (st : ItemStatus) (s : State) : Cascade s (endItem i w st s) := by
  unfold endItem
  dsimp only
  refine .trans (.trans (.trans ?_ (.offerBody _ _ (by rfl))) (.setReq _ _ _ _)) (testRelease_cascade _ _)
  exact .slot s i fun _ => rfl

theorem slotAfterItem_cascade (i : SlotId) (s : State) : Cascade s (slotAfterItem i s) := by
  unfold slotAfterItem
  split
  · exact (moveSlot_cascade _ _ _).trans (migrateFrom_cascade _ _ _)
  · exact (moveSlot_cascade _ _ _).trans (tryHead_cascade _ _)

theorem finishItem_cascade (i : SlotId) (w : WritingItem) (st : ItemStatus) (s : State) : Cascade s (finishItem i w st s) :=
  ((endItem_cascade _ _ _ _).trans (slotAfterItem_cascade _ _)).trans (arbitrate_cascade _ _)

theorem failBlocks_cascade (bs : List BlockRequest) (s : State) : Cascade s (failBlocks bs s) := by
  induction bs generalizing s with
  | nil => exact .refl s
  | cons b bs ih => exact (Cascade.respond (p := .body) _ _ _ _ _ _ (by decide)).trans (ih _)

theorem faultSlot_cascade (i : SlotId) (n : SlotState) (s : State) : Cascade s (faultSlot i n s) := by
  unfold faultSlot
  dsimp only
  refine .trans (.trans ?_ (moveSlot_cascade _ _ _)) (migrateFrom_cascade _ _ _)
  refine .trans (.trans ?_ (failBlocks_cascade _ _)) (.slot _ i fun _ => rfl)
  have h : Cascade s (s.updSlot i fun y => { y with op := none }) := .slot s i fun _ => rfl
  split
  · exact h.trans (endItem_cascade _ _ _ _)
  · exact h

theorem removeQueued_cascade (i : SlotId) (n : Nat) (s : State) : Cascade s (removeQueued i n s) := by
  unfold removeQueued
  have h : Cascade s (s.updSlot i fun x => { x with queue := x.queue.filter fun y => y.shot != n }) := .slot s i fun _ => rfl
  have k : ∀ b : Bool, Cascade s (if b = true then
      tryHead i (s.updSlot i fun x => { x with queue := x.queue.filter fun y => y.shot != n })
      else s.updSlot i fun x => { x with queue := x.queue.filter fun y => y.shot != n }) := by
    intro b
    split
    · exact h.trans (tryHead_cascade _ _)
    · exact h
  exact k _

theorem waiveDeleted_cascade (i : SlotId) (n : Nat) (s : State) : Cascade s (waiveDeleted i n s) := by
  unfold waiveDeleted
  split
  · split
    · exact (Cascade.setReq _ _ _ _).trans (removeQueued_cascade _ _ _)
    · exact .setReq _ _ _ _
    · exact .refl s
  · exact .refl s

theorem abortWriting_cascade (i : SlotId) (n : Nat) (s : State) : Cascade s (abortWriting i n s) := by
  unfold abortWriting
  split
  · split
    · split
      · exact .slot s i fun _ => rfl
      · exact finishItem_cascade _ _ _ _
    · exact .refl s
  · exact .refl s

/-! ## The catalog -/

theorem storeRecord_cascade (n : Nat) (s : State) : Cascade s (storeRecord n s) := by
  unfold storeRecord
  split
  · exact .refl s
  · dsimp only
    refine .trans (.trans ?_ (.offerBody _ _ (by rfl))) (testRelease_cascade _ _)
    have h : ∀ r : Record, Cascade s (evaluateRules n (enqueueCard r (s.updRecord n fun x => { x with state := .stored }))) :=
      fun r => ((Cascade.record s n _).trans (enqueueCard_cascade _ _)).trans (evaluateRules_cascade _ _)
    split
    · exact (h _).trans (internalRequest_cascade _ _ _ _ _)
    · exact h _

theorem removeRecord_cascade (n : Nat) (s : State) : Cascade s (removeRecord n s) := by
  unfold removeRecord
  split
  · exact .refl s
  · split
    · exact ((Cascade.record s n _).trans (releaseChain_cascade _ _)).trans (.one (.dropRecord _ n))
    · exact .one (.dropRecord s n)

theorem discardMember_cascade (n : Nat) (s : State) : Cascade s (discardMember n s) := by
  unfold discardMember
  split
  · exact .refl s
  · split
    · exact removeRecord_cascade _ _
    · exact .record _ _ _

theorem promoteMember_cascade (n : Nat) (s : State) : Cascade s (promoteMember n s) := by
  unfold promoteMember
  split
  · exact .refl s
  · split
    · exact storeRecord_cascade _ _
    · exact .record _ _ _

theorem discardMembers_cascade (ns : List Nat) (s : State) : Cascade s (discardMembers ns s) := by
  induction ns generalizing s with
  | nil => exact .refl s
  | cons n ns ih => exact (discardMember_cascade _ _).trans (ih _)

theorem promoteMembers_cascade (ns : List Nat) (s : State) : Cascade s (promoteMembers ns s) := by
  induction ns generalizing s with
  | nil => exact .refl s
  | cons n ns ih => exact (promoteMember_cascade _ _).trans (ih _)

theorem promoteRing_cascade (s : State) : Cascade s (promoteRing s) := by
  unfold promoteRing
  split
  · exact promoteMembers_cascade _ _
  · exact .refl s

theorem reportRaw_cascade (e : EndedFrame) (s : State) : Cascade s (reportRaw e s) := by
  unfold reportRaw
  dsimp only
  split
  · exact .refl s
  · have h : Cascade s (s.updRecord e.capture.shot fun x => { x with bl := some e.bl, truncated := e.truncated }) :=
      .record _ _ _
    split
    · exact h
    · split
      · exact h.trans (storeRecord_cascade _ _)
      · exact h.trans (storeRecord_cascade _ _)
      · exact h.trans (removeRecord_cascade _ _)
      · exact h.trans (.record _ _ _)

theorem fillFocus_cascade (f : FocusSummary) (s : State) : Cascade s (fillFocus f s) := by
  unfold fillFocus
  split
  · exact .record _ _ _
  · exact .refl s

theorem beginDeleting_cascade (n : Nat) (tag : Byte) (s : State) : Cascade s (beginDeleting n tag s) := by
  unfold beginDeleting
  dsimp only
  refine .trans ?_ (testRelease_cascade _ _)
  refine .trans ?_ (cutRead_cascade _ _)
  refine .trans ?_ (cancelJob_cascade _ _)
  refine .trans ?_ (abortWriting_cascade _ _ _)
  refine .trans ?_ (abortWriting_cascade _ _ _)
  refine .trans ?_ (waiveDeleted_cascade _ _ _)
  refine .trans ?_ (waiveDeleted_cascade _ _ _)
  refine .trans ?_ (deleteItems_cascade _ _)
  refine .trans ?_ (deleteItems_cascade _ _)
  exact .record s n _

/-! ## Recovery and backfill -/

theorem retryAll_cascade (xs : List (Nat × SlotId)) (s : State) : Cascade s (retryAll xs s).2 := by
  induction xs generalizing s with
  | nil => exact .refl s
  | cons x xs ih =>
    obtain ⟨n, i⟩ := x
    unfold retryAll
    split
    · split
      · exact (queueItem_cascade _ _ _).trans (ih _)
      · exact ih _
    · exact ih _

theorem waiveAll_cascade (xs : List (Nat × SlotId)) (s : State) : Cascade s (waiveAll xs s).2 := by
  induction xs generalizing s with
  | nil => exact .refl s
  | cons x xs ih =>
    obtain ⟨n, i⟩ := x
    unfold waiveAll
    split
    · split
      · refine Cascade.trans ?_ (ih _)
        refine .trans (.trans ?_ (.setReq _ _ _ _)) (testRelease_cascade _ _)
        exact .slot s i fun _ => rfl
      · exact ih _
    · exact ih _

theorem tryNewHead_cascade (i : SlotId) (o : Option CardItem) (s : State) : Cascade s (tryNewHead i o s) := by
  unfold tryNewHead
  split
  · exact tryHead_cascade _ _
  · exact .refl s

theorem evaluateAll_cascade (ns : List Nat) (s : State) : Cascade s (evaluateAll ns s) := by
  induction ns generalizing s with
  | nil => exact .refl s
  | cons n ns ih => exact (evaluateRules_cascade _ _).trans (ih _)

/-- Pressure relief with the repeated test leaves everything but the frame store's lists to the cascade (R32). -/
theorem testSpace_cascade (m : Mode) (s : State) : Cascade s (testSpace m s).2 := by
  have claim : ∀ {u v : State} {c : List Nat}, spaceAndSlabs m u = some (c, v) → Cascade u v := by
    intro u v c h
    unfold spaceAndSlabs at h
    split at h
    · obtain ⟨-, -, -, rfl⟩ := claimCapture_some h
      exact .fsc u fun _ => ⟨rfl, rfl, rfl, rfl⟩
    · cases h
  unfold testSpace
  split
  · rename_i h; exact claim h
  · dsimp only
    split
    · rename_i h; exact (relieve_cascade _ _ _).trans (claim h)
    · exact relieve_cascade _ _ _

theorem testCandidate_cascade (b l : Bool) (m : Mode) (s : State) : Cascade s (testCandidate b l m s).2 := by
  unfold testCandidate
  split
  · exact .refl s
  · exact testSpace_cascade _ _

end Sys2Proof.Machine
end

