-- ==== Sys2Proof/Laws/Memory.lean ====
section
/-! SUPPORT. The DRAM: a read after a write, what a write leaves alone, and the canonical form that every write keeps (R1, R6). -/

namespace Sys2Proof.Machine

theorem Memory.read_write_same (m : Memory) (a : Nat) (b : Byte) : (Memory.write m a b).read a = b := by
  induction m with
  | nil => simp [Memory.write, Memory.read]
  | cons c m ih =>
    unfold Memory.write
    split
    · simp [Memory.read]
    · split
      · simp [Memory.read]
      · rename_i h1 h2
        have : (c.1 == a) = false := by simp; omega
        simpa [Memory.read, List.find?_cons, this] using ih

theorem Memory.read_write_other (m : Memory) (a x : Nat) (b : Byte) (h : x ≠ a) : (Memory.write m a b).read x = m.read x := by
  induction m with
  | nil => simp [Memory.write, Memory.read, h.symm]
  | cons c m ih =>
    unfold Memory.write
    split
    · have : (a == x) = false := by simp [h.symm]
      simp [Memory.read, List.find?_cons, this]
    · split
      · rename_i h1 h2
        have h3 : (a == x) = false := by simp [h.symm]
        have h4 : (c.1 == x) = false := by simp; omega
        simp [Memory.read, h3, h4]
      · simp only [Memory.read, List.find?_cons]
        cases hc : c.1 == x
        · simpa [Memory.read] using ih
        · rfl

theorem Memory.wf_cons {c : Host.Cell} {m : Memory} :
    Memory.wf (c :: m) = true ↔ (∀ d, m.head? = some d → c.1 < d.1) ∧ Memory.wf m = true := by
  cases m with
  | nil => simp [Memory.wf]
  | cons d m => simp [Memory.wf]

theorem Memory.write_head (m : Memory) (a : Nat) (b : Byte) (d : Host.Cell) (h : (Memory.write m a b).head? = some d) :
    d.1 = a ∨ m.head? = some d := by
  cases m with
  | nil => simp [Memory.write] at h; left; rw [← h]
  | cons c m =>
    unfold Memory.write at h
    split at h
    · simp at h; left; rw [← h]
    · split at h
      · simp at h; left; rw [← h]
      · simp at h; right; simp [h]

/-- A write keeps the canonical form. -/
theorem Memory.wf_write (m : Memory) (a : Nat) (b : Byte) (h : m.wf = true) : (Memory.write m a b).wf = true := by
  induction m with
  | nil => simp [Memory.write, Memory.wf]
  | cons c m ih =>
    have hc := Memory.wf_cons.mp h
    unfold Memory.write
    split
    · rename_i h1
      exact Memory.wf_cons.mpr ⟨fun d hd => by simp at hd; rw [← hd]; exact h1, h⟩
    · split
      · rename_i h1 h2
        refine Memory.wf_cons.mpr ⟨fun d hd => ?_, hc.2⟩
        rw [show a = c.1 from h2]
        exact hc.1 d hd
      · rename_i h1 h2
        refine Memory.wf_cons.mpr ⟨fun d hd => ?_, ih hc.2⟩
        rcases Memory.write_head m a b d hd with h | h
        · omega
        · exact hc.1 d h

theorem writeRun_wf (chain : List Nat) (o : Nat) (bs : List Byte) (m : Memory) (h : m.wf = true) :
    (writeRun chain o bs m).wf = true := by
  induction bs generalizing o m with
  | nil => exact h
  | cons b bs ih =>
    unfold writeRun
    apply ih
    split
    · exact Memory.wf_write _ _ _ h
    · exact h

/-- A write access keeps the canonical form. -/
theorem writeChain_wf (m : Memory) (chain : List Nat) (o : Nat) (bs : List Byte) (h : m.wf = true) :
    (writeChain m chain o bs).wf = true := by
  unfold writeChain
  split
  · exact writeRun_wf _ _ _ _ h
  · exact h

theorem writeRun_other (chain : List Nat) (o : Nat) (bs : List Byte) (m : Memory) (x : Nat)
    (h : ∀ k, k < bs.length → chainAddr chain (o + k) ≠ some x) : (writeRun chain o bs m).read x = m.read x := by
  induction bs generalizing o m with
  | nil => rfl
  | cons b bs ih =>
    unfold writeRun
    rw [ih]
    · split
      · rename_i a ha
        refine Memory.read_write_other _ _ _ _ fun hx => h 0 (by simp) ?_
        rw [Nat.add_zero, ha, hx]
      · rfl
    · intro k hk
      have := h (k + 1) (by simp; omega)
      rwa [Nat.add_assoc, Nat.add_comm 1 k]

/-- A write access leaves every byte outside its range as it was. -/
theorem writeChain_other (m : Memory) (chain : List Nat) (o : Nat) (bs : List Byte) (x : Nat)
    (h : ∀ k, k < bs.length → chainAddr chain (o + k) ≠ some x) : (writeChain m chain o bs).read x = m.read x := by
  unfold writeChain
  split
  · exact writeRun_other _ _ _ _ _ h
  · rfl

/-- Two offsets of a chain of different slabs lie at different addresses. -/
theorem chainAddr_inj {chain : List Nat} (hd : chain.Nodup) {i j a : Nat} (hi : chainAddr chain i = some a)
    (hj : chainAddr chain j = some a) : i = j := by
  simp only [chainAddr, Option.map_eq_some_iff, Config.slabBytes] at hi hj
  obtain ⟨x, hx, hxa⟩ := hi
  obtain ⟨y, hy, hya⟩ := hj
  have hxy : x = y := by omega
  subst hxy
  have hlt := (List.getElem?_eq_some_iff.mp hx).1
  have hpos : i / 4194304 = j / 4194304 := by
    apply (List.getElem?_inj hlt hd).mp
    rw [hx, hy]
  omega

/-- A byte inside a written run reads as it was written. -/
theorem writeRun_read {chain : List Nat} (hd : chain.Nodup) (o : Nat) (bs : List Byte) (m : Memory) (k : Nat) (b : Byte) (a : Nat)
    (hb : bs[k]? = some b) (ha : chainAddr chain (o + k) = some a) : (writeRun chain o bs m).read a = b := by
  induction bs generalizing o m k with
  | nil => simp at hb
  | cons c bs ih =>
    unfold writeRun
    cases k with
    | zero =>
      simp only [List.getElem?_cons_zero, Option.some.injEq] at hb
      simp only [Nat.add_zero] at ha
      rw [writeRun_other]
      · rw [ha, hb]; exact Memory.read_write_same _ _ _
      · intro k _ hk
        have := chainAddr_inj hd ha hk
        omega
    | succ k =>
      simp only [List.getElem?_cons_succ] at hb
      exact ih (o + 1) _ k hb (by rw [show o + 1 + k = o + (k + 1) by omega]; exact ha)

end Sys2Proof.Machine
end

