-- ==== Sys2Proof/Laws/Acts.lean ====
section
/-! SUPPORT. What a command can do to the state, whichever it is: every command is a chain of the changes listed in `Act`, and `exec_acts`
says so once. An invariant that each of these keeps is kept by every step. -/

namespace Sys2Proof.Machine

/-- The FE after the tracking, prediction and lock of a ready event, its publication set (R90 to R98). -/
def Fe.published (f : Fe) (r : FrameResult) : Fe :=
  let x := f.followSubject r
  let g := x.2.lockStep (x.1.map Selection.d)
  { g with latest := some { summary := summarize r x.1 g.locked,
                            map := r.zones.map fun z => { state := z.state, p := z.p, q := z.q } } }

/-- The change that latches a frame for its computation (R75 steps 2 and 3). -/
def Fe.latch (f : Fe) (number : Nat) (truncated : Bool) : Fe :=
  { f with inFlight := some { frame := number, truncated := truncated, packets := f.collect, zones := f.zones,
                              lens := f.lens, far := f.params.far, near := f.params.near },
           collectFrame := none, collect := List.replicate Config.zones none }

/-- One change of a command, with what is known where it is made. -/
inductive Act : State → State → Prop
  | prim {s t : State} (h : Prim s t) : Act s t
  | send (s : State) (p : Port) (m : OutMsg) : Act s (s.send p m)
  | silence (s : State) (h : s.ttc.attached = true ∨ ∃ i ∈ s.ttc.queue, i.state = .sending) : Act s (startSilence s)
  | configure (s : State) (n : Nat) (m : Mode) (hn : n = 1024 ∨ n = 2048) (h : s.holdsAnything = false) :
      Act s (s.updFsc fun f => { f with configured := true, slabCount := n, mode := some m, freeList := List.range n })
  | reserve (s : State) (v : Nat) : Act s (s.updFsc fun f => { f with reserve := v })
  | shoot (s : State) (p : PendingShoot) (hc : s.fsc.configured = true) (he : s.siu.engine = .idle) :
      Act s (s.setEngine .singlePending (some p))
  | shootBlocked (s : State) (p : PendingShoot) (he : s.siu.engine = .singlePending) :
      Act s (s.setEngine .singlePending (some p))
  | shootEnds (s : State) (h : s.siu.shoot.isSome = true) : Act s (s.setEngine .idle none)
  | burstBegin (s : State) (b : Burst) (hc : s.fsc.configured = true) (he : s.siu.engine = .idle) (ht : s.siu.thermal ≠ .hot)
      (hd : 1 ≤ b.divisor ∧ b.divisor ≤ 16) (hm : b.maximum ≤ 999) (hs : b.shortage = false) :
      Act s (s.updSiu fun u => { u with engine := .burst, burst := b })
  | burstEnd (s : State) (he : s.siu.engine = .burst) : Act s (endBurst s)
  | burstCount (s : State) (b : Burst) (hd : b.divisor = s.siu.burst.divisor) (hm : b.maximum = s.siu.burst.maximum)
      (hs : b.shortage = true → s.siu.burst.shortage = true ∨ s.siu.engine = .burst) :
      Act s (s.updSiu fun u => { u with burst := b })
  | arm (s : State) (p : Precapture) (hc : s.fsc.configured = true) (ht : s.siu.thermal = .normal) (hp : p.depth ≤ 24)
      (hd : 1 ≤ p.divisor ∧ p.divisor ≤ 16) : Act s (s.updSiu fun u => { u with pre := p })
  | disarm (s : State) : Act s (s.updSiu fun u => { u with pre := { u.pre with armed := false } })
  | preCount (s : State) (p : Precapture) (ha : p.armed = s.siu.pre.armed) (hp : p.depth = s.siu.pre.depth)
      (hd : p.divisor = s.siu.pre.divisor) : Act s (s.updSiu fun u => { u with pre := p })
  | newFrame (s : State) (f : Frame) (hc : f.capture = none) :
      Act s (s.updSiu fun u => { u with frameCounter := f.number, frame := some f })
  | frameStep (s : State) (f g : Frame) (h : s.siu.frame = some f) (hn : g.number = f.number) (hm : g.mode = f.mode)
      (hc : g.capture = f.capture) : Act s (s.setFrame (some g))
  | noFrame (s : State) : Act s (s.setFrame none)
  | taken (s : State) (k : CaptureKind) (f : Frame) (m : Mode) (c : List Nat) (hf : s.siu.frame = some f)
      (hm : f.mode = some m) (hs : s.catalogSpace = true) : Act s (takeFrame k f m c s)
  | siuCounts (s : State) (n : Nat) (b : Option Nat) (e : List EndedFrame) :
      Act s (s.updSiu fun u => { u with syncFaults := n, lastBl := b, ended := e })
  | waitLimit (s : State) (v : Nat) (h : v ≤ 5000) : Act s (s.updSiu fun u => { u with waitLimit := v })
  | dram (s : State) (f : Memory → Memory) (h : ∀ m, Memory.wf m = true → Memory.wf (f m) = true) : Act s (s.updDram f)
  | catParams (s : State) (y : Bool) (v : Nat) : Act s (s.updCat fun c => { c with pressureYield := y, clipLevel := v })
  | feStart (s : State) (n : Nat) : Act s (feFrameStart n s)
  | fePacket (s : State) (z : Nat) (p : AfPacket) (h : p.left.length = 64 ∧ p.right.length = 64) :
      Act s (s.updFe fun f => { f with collect := f.collect.set z (some p) })
  | feLatch (s : State) (n : Nat) (b : Bool) : Act s (s.updFe fun f => f.latch n b)
  | feReady (s : State) (l : Latched) (r : FrameResult) (n : Nat) (h : s.fe.inFlight = some l) (hr : r.lens = l.lens) :
      Act s (s.updFe fun f => ({ f with inFlight := none, overruns := n } : Fe).published r)
  | watchOff (s : State) : Act s (s.updFe fun f => { f with watch := .none })
  | watch (s : State) (w : Watch) (h : s.fe.lensPresent = true) : Act s (s.updFe fun f => { f with watch := w })
  | offerLens (s : State) (n : Notice) (h : n.isFocusResult = true) : Act s (s.offer .lens n)
  | zones (s : State) (zs : List Zone) (hl : zs.length = 48)
      (hz : ∀ z ∈ zs, z.contrastFloor ≤ 262143 ∧ z.confidenceFloor ≤ 4095) :
      Act s (s.updFe fun f => { f.clearTracking with zones := zs })
  | focusParams (s : State) (p : FocusParams) (hl : p.far ≤ 16383 ∧ p.near ≤ 16383)
      (he : p.eIn ≤ p.eOut ∧ p.eOut ≤ 32767) (hm : 1 ≤ p.m ∧ p.m ≤ 15) (hn : 1 ≤ p.n ∧ p.n ≤ 15) (hd : p.lead ≤ 8)
      (ht : 1 ≤ p.trackLoss ∧ p.trackLoss ≤ 15) : Act s (s.updFe fun f => { f.clearTracking with params := p })
  | lensState (s : State) (l : Lens) (hl : l.inRange) (h : s.fe.lensPresent = true) :
      Act s (s.updFe fun f => { f with lens := some l })
  | lensDown (s : State) : Act s (s.updFe Fe.detach)
  | lensUp (s : State) : Act s (s.updFe fun f => { f with lensPresent := true })
  | lensQueue (s : State) (f : List Notice → List Notice) (h : ∀ q, (f q).Sublist q) :
      Act s (s.updPtc fun p => { p with lensQueue := f p.lensQueue, lensOut := [] })
  | settings (s : State) (p : DevelopParams) (a : Bool) : Act s (s.updDve fun d => { d with settings := p, auto := a })
  | tones (s : State) (f : List (List Byte) → List (List Byte)) : Act s (s.updDve fun d => { d with tones := f d.tones })
  | policy (s : State) (a b o : Bool) (v : Nat) :
      Act s (s.updCrw fun c => { c with contentA := a, contentB := b, overflow := o, stallLimit := v })
  | detect (s : State) (i : SlotId) (b : Bool) : Act s (s.updSlot i fun x => { x with detect := b })
  | attach (s : State) :
      Act s (s.updTtc fun t => { t with attached := true, silence := some (t.silenceLimit * 1000) })
  | detach (s : State) (h : s.ttc.attached = true) : Act s (detachSession s)
  | rules (s : State) (f : List SendRule → List SendRule) : Act s (s.updTtc fun t => { t with rules := f t.rules })
  | sending (s : State) (i : SendItem) (t : Transfer) (hi : i ∈ s.ttc.queue) (hn : s.sendingItem = none)
      (ha : s.ttc.attached = true) :
      Act s (s.updItem i.serial fun x => { x with state := .sending, transfer := some t, cut := .clear })
  | errorsDown (s : State) : Act s (s.updTtc fun t => { t with errors := t.errors - 1 })
  | failed (s : State) (h : Header) (i : SendItem) (hs : s.sendingItem = some i) : Act s (itemFailed h i s)
  | rearm (s : State) : Act s (s.updTtc fun t => { t with errors := 0, armed := true })
  | sessionParams (s : State) (p : DetachPolicy) (v : Nat) : Act s (s.updTtc fun t => { t with policy := p, silenceLimit := v })
  | threshold (s : State) (v : Nat) (h : 1 ≤ v ∧ v ≤ 31) : Act s (takeThreshold v s)
  | fetch (s : State) (p : Port) (q : List Notice) (h : q <:+ s.ptc.queue p) : Act s (s.updPtc fun x => x.setQueue p q)
  | enables (s : State) (e : Classes) : Act s (s.updPtc fun p => { p with enables := e })
  | bodyOut (s : State) (f : List OutMsg → List OutMsg) : Act s (s.updPtc fun p => { p with bodyOut := f p.bodyOut })
  | tetherOut (s : State) (f : List OutMsg → List OutMsg) : Act s (s.updPtc fun p => { p with tetherOut := f p.tetherOut })
  | tetherClear (s : State) : Act s (s.updPtc fun p => { p with tetherQueue := [], tetherOut := [] })
  | thermal (s : State) (d k : Reading) : Act s (sampleTaken d k s)
  | tick (s : State) : Act s (tick s)
  | reset (s : State) : Act s (resetPart s)

/-- A chain of such changes. -/
inductive Acts : State → State → Prop
  | refl (s : State) : Acts s s
  | tail {s t u : State} (h : Acts s t) (a : Act t u) : Acts s u

theorem Acts.one {s t : State} (a : Act s t) : Acts s t := .tail (.refl s) a

theorem Acts.trans {s t u : State} (h : Acts s t) (k : Acts t u) : Acts s u := by
  induction k with
  | refl => exact h
  | tail _ a ih => exact .tail ih a

theorem Cascade.acts {s t : State} (h : Cascade s t) : Acts s t := by
  induction h with
  | refl => exact .refl _
  | tail _ p ih => exact .tail ih (.prim p)

/-- What every change keeps, a chain of them keeps. -/
theorem Acts.keeps {P : State → Prop} (hp : ∀ s t, Act s t → P s → P t) {s t : State} (h : Acts s t) (hs : P s) : P t := by
  induction h with
  | refl => exact hs
  | tail _ a ih => exact hp _ _ a ih

/-! ## The gate -/

theorem Acts.send (s : State) (p : Port) (m : OutMsg) : Acts s (s.send p m) := .one (.send s p m)
theorem Acts.answer (s : State) (r : Request) (h : Header) (b : List Byte) : Acts s (s.answer r h b) := .send s _ _
theorem Acts.refuse (s : State) (r : Request) (h : Header) (x : Result) : Acts s (s.refuse r h x) := .send s _ _
theorem Acts.respond (s : State) (r : Request) (p : Port) (t : Byte) (x : Result) (b : List Byte) (d : Bool) :
    Acts s (s.respond r p t x b d) := .send s _ _

/-- A request does what the gate does and, if it gets through, what its owner does; on the tether port the owner of most
requests is reached in an ATTACHED session alone (R158). -/
theorem takeRequest_session {r : Request} {h : Header} {fits : Bool} {owner : State → State} (s : State)
    (ho : ∀ x, granted r h.port = true → (h.port = .tether → sessionFree r = false → x.ttc.attached = true) →
      Acts x (owner x)) : Acts s (takeRequest r h fits owner s) := by
  unfold takeRequest
  split
  · exact .refuse _ _ _ _
  case isFalse hg =>
    have hg : granted r h.port = true := by simpa using hg
    split
    · exact .refuse _ _ _ _
    · unfold throughSession
      split
      · split
        case isTrue ha => exact (Acts.one (.silence s (.inl ha))).trans (ho _ hg fun _ _ => ha)
        · split
          case isTrue hf => exact ho _ hg fun _ hn => by rw [hf] at hn; cases hn
          · exact .refuse _ _ _ _
      case isFalse hp => exact ho _ hg fun hp' => absurd hp' hp

theorem takeRequest_acts {r : Request} {h : Header} {fits : Bool} {owner : State → State} (s : State)
    (ho : ∀ x, Acts x (owner x)) : Acts s (takeRequest r h fits owner s) :=
  takeRequest_session s fun x _ _ => ho x

end Sys2Proof.Machine
end

