-- ==== Sys2Proof/Laws/ActsCapture.lean ====
section
/-! SUPPORT. The commands of the frame store, the sensor link and the capture engine as chains of changes. -/

namespace Sys2Proof.Machine

theorem clampNat_le (lo hi v : Nat) (h : lo ≤ hi) : clampNat lo hi v ≤ hi := by
  unfold clampNat; split <;> [skip; split] <;> omega

theorem le_clampNat (lo hi v : Nat) (h : lo ≤ hi) : lo ≤ clampNat lo hi v := by
  unfold clampNat; split <;> [skip; split] <;> omega

theorem ownConfigureStore_acts (h : Header) (n : Half) (m : Byte) (s : State) : Acts s (ownConfigureStore h n m s) := by
  unfold ownConfigureStore
  split
  case _ n' m' hn hm =>
    have hn' : n' = 1024 ∨ n' = 2048 := by
      unfold readSlabCount at hn
      split at hn
      · left; simpa using hn.symm
      · split at hn
        · right; simpa using hn.symm
        · cases hn
    split
    · exact .refuse _ _ _ _
    case isFalse hh => exact (Acts.one (.configure s _ _ hn' (by simpa using hh))).trans (.answer _ _ _ _)
  · exact .refuse _ _ _ _

/-! ## Frames -/

theorem writeRow_wf (f : Frame) (m : Mode) (r : Nat) (xs : List Sample) (d : Memory) (h : d.wf = true) :
    (writeRow f m r xs d).wf = true := by
  unfold writeRow
  split
  · exact writeChain_wf _ _ _ _ h
  · exact h

theorem fillRows_wf (f : Frame) (m : Mode) (n r : Nat) (d : Memory) (h : d.wf = true) : (fillRows f m n r d).wf = true := by
  induction n generalizing r d with
  | zero => exact h
  | succ n ih => exact ih _ _ (writeRow_wf _ _ _ _ _ h)

theorem fillLines_wf (f : Frame) (m : Mode) (lo hi : Nat) (d : Memory) (h : d.wf = true) : (fillLines f m lo hi d).wf = true :=
  fillRows_wf _ _ _ _ _ h

/-- What a line leaves of a frame: its number, mode and capture (R17). -/
def Frame.same (f g : Frame) : Prop := g.number = f.number ∧ g.mode = f.mode ∧ g.capture = f.capture

theorem Frame.closeOb_same (f : Frame) (m : Mode) : f.same (f.closeOb m) := by
  unfold Frame.closeOb
  split <;> exact ⟨rfl, rfl, rfl⟩

theorem Frame.same.trans {f g k : Frame} (h : f.same g) (j : g.same k) : f.same k :=
  ⟨j.1.trans h.1, j.2.1.trans h.2.1, j.2.2.trans h.2.2⟩

theorem takeLine_same (f : Frame) (m : Mode) (i : Nat) (xs : List Sample) (d : Memory) :
    f.same (takeLine f m i xs d).1 ∧ (d.wf = true → (takeLine f m i xs d).2.wf = true) := by
  unfold takeLine
  dsimp only
  have hf : f.same (if m.width < xs.length then { f with framingFault := true } else f) := by
    split <;> exact ⟨rfl, rfl, rfl⟩
  generalize (if m.width < xs.length then { f with framingFault := true } else f) = g at hf
  split
  · exact ⟨hf.trans ⟨rfl, rfl, rfl⟩, id⟩
  · exact ⟨hf.trans ((g.closeOb_same m).trans ⟨rfl, rfl, rfl⟩), fun h => writeRow_wf _ _ _ _ _ h⟩

theorem placeLine_same (f : Frame) (m : Mode) (i : Nat) (xs : List Sample) (d : Memory) :
    f.same (placeLine f m i xs d).1 ∧ (d.wf = true → (placeLine f m i xs d).2.wf = true) := by
  unfold placeLine
  split
  · exact takeLine_same f m i xs d
  · split
    · exact ⟨⟨rfl, rfl, rfl⟩, id⟩
    · split
      · dsimp only
        generalize hg : (if obLines ≤ i then ({ f with framingFault := true } : Frame).closeOb m
          else { f with framingFault := true }) = g
        have hs : f.same g := by
          subst hg
          split
          · exact Frame.same.trans ⟨rfl, rfl, rfl⟩ (Frame.closeOb_same _ m)
          · exact ⟨rfl, rfl, rfl⟩
        have ht := takeLine_same g m i xs (fillLines g m g.nextLine i d)
        exact ⟨hs.trans ht.1, fun h => ht.2 (fillLines_wf _ _ _ _ _ h)⟩
      · dsimp only
        constructor
        · split
          · exact Frame.same.trans ⟨rfl, rfl, rfl⟩ (Frame.closeOb_same _ m)
          · exact ⟨rfl, rfl, rfl⟩
        · exact id

theorem lineArrives_acts (i : Nat) (xs : List Sample) (s : State) : Acts s (lineArrives i xs s) := by
  unfold lineArrives
  split
  · exact .one (.siuCounts s _ s.siu.lastBl s.siu.ended)
  case _ f hf =>
    split
    · exact .refl s
    case _ m hm =>
      -- the DRAM that the line leaves is computed from the one it found
      obtain ⟨h1, h2⟩ := placeLine_same f m i xs s.dram
      refine (Acts.one (.frameStep s f _ hf h1.1 h1.2.1 h1.2.2)).tail ?_
      have e : ((s.setFrame (some (placeLine f m i xs s.dram).1)).updDram fun _ => (placeLine f m i xs s.dram).2)
          = ((s.setFrame (some (placeLine f m i xs s.dram).1)).updDram fun d =>
              if d = s.dram then (placeLine f m i xs s.dram).2 else d) := by
        simp [State.updDram, State.setFrame, State.updSiu]
      dsimp only
      rw [e]
      refine .dram _ _ fun d hd => ?_
      split
      case isTrue he => exact h2 (he ▸ hd)
      case isFalse => exact hd

/-- The end of a computation, by the next frame end or by its own event (R75, R90). -/
theorem readyEvent_acts (s : State) (l : Latched) (r : FrameResult) (n : Nat) (h : s.fe.inFlight = some l) (hr : r.lens = l.lens) :
    Acts s (readyEvent r (s.updFe fun f => { f with inFlight := none, overruns := n })) := by
  have h1 : Acts s (s.updFe fun f => ({ f with inFlight := none, overruns := n } : Fe).published r) := .one (.feReady s l r n h hr)
  have key : ∀ (x : State) (w : FocusSummary), Acts x (offerWatch (.focusResult w) x) := by
    intro x w
    unfold offerWatch
    split
    · exact .refl x
    · exact (Acts.one (.offerLens x _ rfl)).tail (.watchOff _)
    · exact .one (.offerLens x _ rfl)
  exact (h1.trans (fillFocus_cascade _ _).acts).trans (key _ _)

theorem feFrameEnd_acts (n : Nat) (b : Bool) (s : State) : Acts s (feFrameEnd n b s) := by
  unfold feFrameEnd
  dsimp only
  refine Acts.tail ?_ (.feLatch _ n b)
  split
  case _ l h => exact readyEvent_acts s l _ _ h (by rfl)
  · exact .refl s

theorem focusReady_acts (s : State) : Acts s (focusReady s) := by
  unfold focusReady
  split
  case _ l h => exact readyEvent_acts s l (computeResult l) s.fe.overruns h rfl
  · exact .refl s

theorem endFrame_acts (f : Frame) (b : Bool) (s : State) : Acts s (endFrame f b s) := by
  unfold endFrame
  split
  · exact (feFrameEnd_acts _ _ s).tail (.noFrame _)
  case _ m hm =>
    refine Acts.tail (Acts.trans ?_ (feFrameEnd_acts _ _ _)) (.noFrame _)
    refine (Acts.one (.dram s (fillLines (f.closeOb m) m (f.closeOb m).nextLine m.lines) fun d hd =>
      fillLines_wf _ _ _ _ d hd)).tail ?_
    exact .siuCounts _ _ _ _

theorem frameEnds_acts (s : State) : Acts s (frameEnds s) := by
  unfold frameEnds
  split
  · exact endFrame_acts _ _ s
  · exact .one (.siuCounts s _ s.siu.lastBl s.siu.ended)

theorem rawCompletes_acts (s : State) : Acts s (rawCompletes s) := by
  unfold rawCompletes
  split
  · exact .refl s
  case _ es _ =>
    refine (Acts.one (.siuCounts s s.siu.syncFaults s.siu.lastBl es)).trans ?_
    exact ((settleReleases_cascade _ _).trans (reportRaw_cascade _ _)).acts

/-! ## SHOOT, bursts, pre-capture -/

theorem failShoot_acts (p : PendingShoot) (s : State) (h : s.siu.shoot.isSome = true) : Acts s (failShoot p s) :=
  (Acts.one (.shootEnds s h)).trans (.respond _ _ _ _ _ _ _)

theorem ownShoot_acts (h : Header) (b : Byte) (s : State) : Acts s (ownShoot h b s) := by
  unfold ownShoot
  split
  · exact .refuse _ _ _ _
  · split
    · exact .refuse _ _ _ _
    case isFalse hc =>
      split
      · exact .refuse _ _ _ _
      case isFalse he =>
        have c := promoteRing_cascade s
        refine c.acts.tail (.shoot _ _ ?_ ?_)
        · rw [c.store.1]; simpa using hc
        · rw [c.frame.2.2.1]; simpa using he

theorem waitExpires_acts (s : State) : Acts s (waitExpires s) := by
  unfold waitExpires
  split
  case _ p h =>
    split
    · exact failShoot_acts p s (by simp [h])
    · exact .refl s
  · exact .refl s

theorem ownBurstBegin_acts (h : Header) (d m : Nat) (b : Byte) (s : State) : Acts s (ownBurstBegin h d m b s) := by
  unfold ownBurstBegin
  split
  · exact .refuse _ _ _ _
  · split
    · exact .refuse _ _ _ _
    case isFalse hc =>
      split
      · exact .refuse _ _ _ _
      case isFalse he =>
        split
        · exact .refuse _ _ _ _
        case isFalse ht =>
          have c := promoteRing_cascade s
          refine (c.acts.tail (.burstBegin _ _ ?_ ?_ ?_ ⟨?_, ?_⟩ ?_ rfl)).trans (.answer _ _ _ _)
          · rw [c.store.1]; simpa using hc
          · rw [c.frame.2.2.1]; simpa using he
          · rw [c.frame.2.2.1]; simpa using ht
          · exact le_clampNat 1 16 _ (by decide)
          · exact clampNat_le 1 16 _ (by decide)
          · exact clampNat_le 0 999 _ (by decide)

theorem ownBurstEnd_acts (h : Header) (s : State) : Acts s (ownBurstEnd h s) := by
  unfold ownBurstEnd
  split
  case isTrue he => exact (Acts.one (.burstEnd s (by simpa using he))).trans (.answer _ _ _ _)
  · exact .answer _ _ _ _

theorem disarmRing_acts (s : State) : Acts s (disarmRing s) :=
  (Acts.one (.disarm s)).trans (discardMembers_cascade _ _).acts

theorem ownPrecapture_acts (h : Header) (a : Byte) (d v : Nat) (s : State) : Acts s (ownPrecapture h a d v s) := by
  unfold ownPrecapture
  split
  · exact .refuse _ _ _ _
  · exact (disarmRing_acts s).trans (.answer _ _ _ _)
  · split
    · exact .refuse _ _ _ _
    case isFalse hc =>
      split
      · exact .refuse _ _ _ _
      case isFalse ht =>
        refine Acts.trans (Acts.trans ?_ (discardMembers_cascade _ _).acts) (.answer _ _ _ _)
        exact .one (.arm s _ (by simpa using hc) (by simpa using ht) (clampNat_le 0 24 _ (by decide))
          ⟨le_clampNat 1 16 _ (by decide), clampNat_le 1 16 _ (by decide)⟩)

/-! ## The decision at a frame start -/

/-- A granted space test leaves the catalog alone and was made with catalog space (R32). -/
theorem spaceAndSlabs_some {m : Mode} {s t : State} {c : List Nat} (h : spaceAndSlabs m s = some (c, t)) :
    s.catalogSpace = true ∧ s.fsc.configured = true ∧ m.rawSlabs ≤ s.fsc.freeList.length
      ∧ c = s.fsc.freeList.take m.rawSlabs ∧ t = s.updFsc fun f => { f with freeList := f.freeList.drop m.rawSlabs } := by
  unfold spaceAndSlabs at h
  split at h
  case isTrue hs => exact ⟨hs, claimCapture_some h⟩
  case isFalse => cases h

theorem testSpace_taken {m : Mode} {s t : State} {c : List Nat} (h : testSpace m s = (.taken c, t)) :
    t.catalogSpace = true := by
  have key : ∀ {x : State} {y : List Nat × State}, spaceAndSlabs m x = some y → y.2.catalogSpace = true := by
    intro x y hy
    obtain ⟨a, -, -, -, e⟩ := spaceAndSlabs_some (c := y.1) (t := y.2) hy
    rw [e]; exact a
  unfold testSpace at h
  split at h
  case _ x hx => cases h; exact key hx
  · dsimp only at h
    split at h
    case _ x hx => cases h; exact key hx
    · cases h

theorem testCandidate_taken {b l : Bool} {m : Mode} {s t : State} {c : List Nat} (h : testCandidate b l m s = (.taken c, t)) :
    t.catalogSpace = true := by
  unfold testCandidate at h
  split at h
  · cases h
  · exact testSpace_taken h

theorem countBurstShot_acts (s : State) (he : s.siu.engine = .burst) : Acts s (countBurstShot s) := by
  unfold countBurstShot
  dsimp only
  have h1 : Acts s (s.updSiu fun u => { u with burst := { u.burst with taken := sat16 u.burst.taken } }) :=
    .one (.burstCount s _ rfl rfl .inl)
  split
  · exact h1.tail (.burstEnd _ he)
  · exact h1

theorem skipBurstFrame_acts (f : Frame) (b : Blocking) (s : State) (he : s.siu.engine = .burst) :
    Acts s (skipBurstFrame f b s) := by
  unfold skipBurstFrame
  dsimp only
  have h1 : Acts s (s.updSiu fun u => { u with burst := { u.burst with skips := sat16 u.burst.skips } }) :=
    .one (.burstCount s _ rfl rfl .inl)
  split
  · exact Acts.trans (h1.tail (.burstCount _ { s.siu.burst with skips := sat16 s.siu.burst.skips, shortage := true } rfl rfl fun _ => .inr he))
      (Cascade.offerClass _ _ _ (by rfl)).acts
  · exact h1

theorem decideShoot_acts (l : Bool) (p : PendingShoot) (f : Frame) (m : Mode) (s : State) (hf : s.siu.frame = some f) (hm : f.mode = some m)
    (he : s.siu.engine = .singlePending) (hp : s.siu.shoot = some p) : Acts s (decideShoot l p f m s) := by
  have hc := testCandidate_cascade p.focus l m s
  unfold decideShoot
  split
  case _ c t ht =>
    rw [ht] at hc
    dsimp only at hc
    refine Acts.trans (Acts.tail (hc.acts.tail (.taken _ _ f m c ?_ hm (testCandidate_taken ht))) (.shootEnds _ ?_)) (.respond _ _ _ _ _ _ _)
    · rw [hc.frame.2.2.1]; exact hf
    · show (t.siu.shoot).isSome = true
      rw [hc.frame.2.2.1, hp]; rfl
  case _ r t ht =>
    rw [ht] at hc
    dsimp only at hc
    dsimp only
    split
    · exact hc.acts.trans (failShoot_acts _ _ (by rw [hc.frame.2.2.1, hp]; rfl))
    · exact hc.acts.tail (.shootBlocked _ _ (by rw [hc.frame.2.2.1]; exact he))

theorem decideBurst_acts (l : Bool) (f : Frame) (m : Mode) (s : State) (hf : s.siu.frame = some f) (hm : f.mode = some m)
    (he : s.siu.engine = .burst) : Acts s (decideBurst l f m s) := by
  unfold decideBurst
  dsimp only
  have h1 : Acts s (s.updSiu fun u => { u with burst := { u.burst with
      frames := if u.burst.fresh then u.burst.frames else wrap32 u.burst.frames, fresh := false } }) :=
    .one (.burstCount s _ rfl rfl .inl)
  have hf1 : (s.updSiu fun u => { u with burst := { u.burst with
      frames := if u.burst.fresh then u.burst.frames else wrap32 u.burst.frames, fresh := false } }).siu.frame = some f := hf
  have he1 : (s.updSiu fun u => { u with burst := { u.burst with
      frames := if u.burst.fresh then u.burst.frames else wrap32 u.burst.frames, fresh := false } }).siu.engine = .burst := he
  revert h1 hf1 he1
  generalize (s.updSiu fun u => { u with burst := { u.burst with
      frames := if u.burst.fresh then u.burst.frames else wrap32 u.burst.frames, fresh := false } }) = s1
  intro h1 hf1 he1
  split
  · have hc := testCandidate_cascade s1.siu.burst.focus l m s1
    split
    case _ c t ht =>
      rw [ht] at hc
      dsimp only at hc
      have hsiu := hc.frame.2.2.1
      refine (h1.trans (hc.acts.tail (.taken _ _ f m c (by rw [hsiu]; exact hf1) hm (testCandidate_taken ht)))).trans
        (countBurstShot_acts _ ?_)
      show t.siu.engine = _
      rw [hsiu]; exact he1
    case _ r t ht =>
      rw [ht] at hc
      dsimp only at hc
      exact (h1.trans hc.acts).trans (skipBurstFrame_acts _ _ _ (by rw [hc.frame.2.2.1]; exact he1))
  · exact h1

/-- The claim of a pre-capture candidate, after room was made in the ring (R36). -/
theorem claimPre_acts (f : Frame) (m : Mode) (s s2 : State) (h2 : Cascade s s2) (hf : s.siu.frame = some f)
    (hm : f.mode = some m) :
    Acts s (match spaceAndSlabs m s2 with
      | some (chain, s2) => takeFrame .pre f m chain s2
      | none => s2) := by
  split
  case _ c t ht =>
    obtain ⟨a, -, -, -, e⟩ := spaceAndSlabs_some ht
    have h3 : Cascade s2 t := by
      rw [e]
      exact .fsc s2 (f := fun f => { f with freeList := f.freeList.drop m.rawSlabs }) fun _ => ⟨rfl, rfl, rfl, rfl⟩
    refine (h2.trans h3).acts.tail (.taken _ _ f m c ?_ hm ?_)
    · rw [(h2.trans h3).frame.2.2.1]; exact hf
    · rw [e]; exact a
  · exact h2.acts

theorem decidePre_acts (f : Frame) (m : Mode) (s : State) (hf : s.siu.frame = some f) (hm : f.mode = some m) :
    Acts s (decidePre f m s) := by
  unfold decidePre
  dsimp only
  have h1 : Acts s (s.updSiu fun u =>
      { u with pre := { u.pre with frames := if u.pre.fresh then u.pre.frames else wrap32 u.pre.frames, fresh := false } }) :=
    .one (.preCount s _ rfl rfl rfl)
  have hf1 : (s.updSiu fun u =>
      { u with pre := { u.pre with frames := if u.pre.fresh then u.pre.frames else wrap32 u.pre.frames, fresh := false } }).siu.frame
      = some f := hf
  revert h1 hf1
  generalize (s.updSiu fun u =>
      { u with pre := { u.pre with frames := if u.pre.fresh then u.pre.frames else wrap32 u.pre.frames, fresh := false } }) = s1
  intro h1 hf1
  split
  · refine h1.trans (claimPre_acts f m s1 _ ?_ hf1 hm)
    split
    · split
      · exact discardMember_cascade _ _
      · exact .refl _
    · exact .refl _
  · exact h1

theorem decideCapture_acts (l : Bool) (f : Frame) (s : State) (hf : s.siu.frame = some f) : Acts s (decideCapture l f s) := by
  unfold decideCapture
  split
  · exact .refl s
  case _ m hm =>
    split
    case _ p he hp => exact decideShoot_acts _ _ _ _ _ hf hm he hp
    · exact .refl s
    case _ he => exact decideBurst_acts _ _ _ _ hf hm he
    · split
      · exact decidePre_acts _ _ _ hf hm
      · exact .refl s

/-- The opening of a new frame and its decision (R16). -/
theorem openFrame_acts (l : Bool) (s : State) :
    Acts s (decideCapture l ⟨wrap32 s.siu.frameCounter, s.fsc.mode, 0, 0, none, false, none⟩
      (feFrameStart (wrap32 s.siu.frameCounter) (s.updSiu fun u =>
        { u with frameCounter := wrap32 s.siu.frameCounter,
                 frame := some ⟨wrap32 s.siu.frameCounter, s.fsc.mode, 0, 0, none, false, none⟩ }))) := by
  generalize hf : (Frame.mk (wrap32 s.siu.frameCounter) s.fsc.mode 0 0 none false none) = f
  have hn : wrap32 s.siu.frameCounter = f.number := by rw [← hf]
  have hc : f.capture = none := by rw [← hf]
  rw [hn]
  exact Acts.trans (.tail (.one (.newFrame s f hc)) (.feStart _ f.number)) (decideCapture_acts _ _ _ rfl)

theorem frameStarts_acts (s : State) : Acts s (frameStarts s) := by
  unfold frameStarts
  dsimp only
  refine Acts.trans ?_ (openFrame_acts _ _)
  split
  · exact endFrame_acts _ _ s
  · exact .refl s

end Sys2Proof.Machine
end

