-- ==== Sys2Proof/Laws/ActsRest.lean ====
section
/-! SUPPORT. The commands of the catalog, the FE, the DVE, the card writer, the TTC, the THM and the PTC as chains of changes, and all
commands together: `exec_acts`. -/

namespace Sys2Proof.Machine

/-! ## Catalog -/

theorem ownDelete_acts (h : Header) (n : Nat) (s : State) : Acts s (ownDelete h n s) := by
  unfold ownDelete
  split
  · exact .refuse _ _ _ _
  · split
    · exact .refuse _ _ _ _
    · exact .refuse _ _ _ _
    · split
      · exact .refuse _ _ _ _
      · exact (discardMember_cascade _ _).acts.trans (.answer _ _ _ _)
    · split
      · exact .refuse _ _ _ _
      · exact (beginDeleting_cascade _ _ _).acts

theorem ownSetTags_acts (h : Header) (n : Nat) (a b : BitVec 16) (r : Byte) (s : State) : Acts s (ownSetTags h n a b r s) := by
  unfold ownSetTags
  split
  · exact .refuse _ _ _ _
  · split
    · exact .refuse _ _ _ _
    · dsimp only
      have key : ∀ x : State, Acts x (x.answer .setTags h []) := fun x => .answer _ _ _ _
      split
      · exact ((Cascade.record s n _).acts.trans (key _)).trans (evaluateRules_cascade _ _).acts
      · exact (Cascade.record s n _).acts.trans (key _)

theorem ownProtect_acts (h : Header) (n : Nat) (a : Byte) (s : State) : Acts s (ownProtect h n a s) := by
  unfold ownProtect
  split
  · exact .refuse _ _ _ _
  · split
    · exact .refuse _ _ _ _
    · split
      · exact .refuse _ _ _ _
      · exact (Cascade.record s n _).acts.trans (.answer _ _ _ _)

theorem ownHold_acts (h : Header) (n : Nat) (s : State) : Acts s (ownHold h n s) := by
  unfold ownHold
  split
  · exact .refuse _ _ _ _
  · split
    · exact .refuse _ _ _ _
    · split
      · exact .answer _ _ _ _
      · exact (((Cascade.record s n _).trans (.pin _ _ _)).trans (.pin _ _ _)).acts.trans (.answer _ _ _ _)

theorem ownUnhold_acts (h : Header) (n : Nat) (s : State) : Acts s (ownUnhold h n s) := by
  unfold ownUnhold
  split
  · exact .refuse _ _ _ _
  · split
    · exact (((((Cascade.record s n _).trans (.unpin _ _ _)).trans (.unpin _ _ _)).trans (cutRead_cascade _ _)).acts.trans
        (.answer _ _ _ _)).trans (testRelease_cascade _ _).acts
    · exact .answer _ _ _ _

theorem ownShotInfo_acts (h : Header) (n : Nat) (s : State) : Acts s (ownShotInfo h n s) := by
  unfold ownShotInfo
  split
  · exact .refuse _ _ _ _
  · exact .answer _ _ _ _

theorem ownRead_acts (q : Request) (c : Content) (h : Header) (n : Nat) (s : State) : Acts s (ownRead q c h n s) := by
  unfold ownRead
  split
  · exact .refuse _ _ _ _
  · split
    · exact .refuse _ _ _ _
    · split
      · exact .refuse _ _ _ _
      · split
        · exact .refuse _ _ _ _
        · exact (Acts.respond _ _ _ _ _ _ _).trans (sendReadFrame_cascade _ _).acts

theorem readFrameDone_acts (s : State) : Acts s (readFrameDone s) := by
  unfold readFrameDone
  split
  · exact .refl s
  case _ x hx =>
    dsimp only
    have h1 : Acts s (endAccess .readStream x.chain
        (s.updPtc fun p => { p with bodyOut := dropThrough (isFrame x.tag x.next) p.bodyOut })) :=
      (Acts.one (.bodyOut s (dropThrough (isFrame x.tag x.next)))).trans (endAccess_cascade _ _ _).acts
    split
    · exact (h1.trans (.send _ _ _)).trans (endRead_cascade _ _).acts
    · split
      · exact h1.trans (endRead_cascade _ _).acts
      · exact h1.trans (sendReadFrame_cascade _ _).acts

/-! ## Focus engine -/

theorem readZone_range {o : ZoneOps} {z : Zone} (h : readZone o = some z) :
    z.contrastFloor ≤ 262143 ∧ z.confidenceFloor ≤ 4095 := by
  unfold readZone at h
  cases hf : readFlag o.active with
  | none => rw [hf] at h; cases h
  | some b =>
    rw [hf] at h
    cases h
    exact ⟨clampNat_le 0 262143 _ (by decide), clampNat_le 0 4095 _ (by decide)⟩

theorem mapM_readZone_range {os : List ZoneOps} {zs : List Zone} (h : os.mapM readZone = some zs) :
    ∀ z ∈ zs, z.contrastFloor ≤ 262143 ∧ z.confidenceFloor ≤ 4095 := by
  induction os generalizing zs with
  | nil => cases h; simp
  | cons o os ih =>
    simp only [List.mapM_cons, bind, Option.bind_eq_some_iff, pure, Option.some.injEq] at h
    obtain ⟨z, hz, ys, hy, rfl⟩ := h
    intro x hx
    rcases List.mem_cons.1 hx with rfl | hx
    · exact readZone_range hz
    · exact ih hy x hx

theorem ownSetZones_acts (h : Header) (os : List ZoneOps) (s : State) : Acts s (ownSetZones h os s) := by
  unfold ownSetZones
  split
  case _ zs hz =>
    split
    case isTrue hl => exact (Acts.one (.zones s zs hl (mapM_readZone_range hz))).trans (.answer _ _ _ _)
    · exact .refuse _ _ _ _
  · exact .refuse _ _ _ _

theorem ownSetFocus_acts (h : Header) (o : FocusOps) (s : State) : Acts s (ownSetFocus h o s) := by
  unfold ownSetFocus
  split
  case _ p hp =>
    refine Acts.trans (.one ?_) (.answer _ _ _ _)
    unfold readFocus at hp
    split at hp
    · cases hp
      have e1 := clampNat_le 0 32767 o.eIn.toNat (by decide)
      have e2 := clampNat_le 0 32767 o.eOut.toNat (by decide)
      exact .focusParams s _ ⟨clampNat_le 0 16383 _ (by decide), clampNat_le 0 16383 _ (by decide)⟩
        ⟨Nat.le_max_left _ _, Nat.max_le.2 ⟨e1, e2⟩⟩
        ⟨le_clampNat 1 15 _ (by decide), clampNat_le 1 15 _ (by decide)⟩
        ⟨le_clampNat 1 15 _ (by decide), clampNat_le 1 15 _ (by decide)⟩ (clampNat_le 0 8 _ (by decide))
        ⟨le_clampNat 1 15 _ (by decide), clampNat_le 1 15 _ (by decide)⟩
    · cases hp
  · exact .refuse _ _ _ _

theorem readLens_range (o : LensOps) (b : Bool) : (readLens o b).inRange := by
  have h1 := clampNat_le 0 16383 o.position.toNat (by decide)
  have h2 := clampNat_le 0 16383 o.travelMin.toNat (by decide)
  have h3 := clampNat_le 0 16383 o.travelMax.toNat (by decide)
  have h4 := o.kc.isLt
  refine ⟨h1, ?_, ?_, ?_, ?_⟩
  · show 1 ≤ (if o.kc = 0 then 1 else o.kc.toNat)
    split
    · exact Nat.le_refl _
    case isFalse hk =>
      have : o.kc.toNat ≠ 0 := fun e => hk (BitVec.eq_of_toNat_eq e)
      omega
  · show (if o.kc = 0 then 1 else o.kc.toNat) ≤ 65535
    split <;> omega
  · show min _ _ ≤ max _ _
    omega
  · show max _ _ ≤ 16383
    omega

theorem ownLensState_acts (h : Header) (o : LensOps) (s : State) : Acts s (ownLensState h o s) := by
  unfold ownLensState
  split
  · exact .refuse _ _ _ _
  · split
    · exact .refuse _ _ _ _
    case isFalse hp => exact (Acts.one (.lensState s _ (readLens_range o _) (by simpa using hp))).trans (.answer _ _ _ _)

theorem ownWatch_acts (h : Header) (m : Byte) (s : State) : Acts s (ownWatch h m s) := by
  unfold ownWatch
  split
  · exact .refuse _ _ _ _
  · split
    · exact .refuse _ _ _ _
    case isFalse hp => exact (Acts.one (.watch s _ (by simpa using hp))).trans (.answer _ _ _ _)

/-! ## Develop engine -/

theorem ownSetDevelop_acts (h : Header) (o : SettingsOps) (s : State) : Acts s (ownSetDevelop h o s) := by
  unfold ownSetDevelop
  split
  · exact .refuse _ _ _ _
  · exact (Acts.one (.settings s _ _)).trans (.answer _ _ _ _)

theorem ownLoadTone_acts (h : Header) (t f c : Nat) (es : List Byte) (s : State) : Acts s (ownLoadTone h t f c es s) := by
  unfold ownLoadTone
  split
  · exact .refuse _ _ _ _
  · split
    · exact .refuse _ _ _ _
    · split
      · exact .refuse _ _ _ _
      · exact (Acts.one (.tones s fun ts => ts.modify t fun x => loadRun x f es)).trans (.answer _ _ _ _)

theorem ownDevelop_acts (h : Header) (o : DevelopOps) (s : State) : Acts s (ownDevelop h o s) := by
  unfold ownDevelop
  split
  · dsimp only
    split
    · exact .refuse _ _ _ _
    · split
      · exact .refuse _ _ _ _
      · split
        · exact .refuse _ _ _ _
        · split
          · exact .refuse _ _ _ _
          · split
            · exact .refuse _ _ _ _
            · exact (Acts.answer _ _ _ _).trans (mergeDevelop_cascade _ _ _ _ _).acts
        · split
          · exact .refuse _ _ _ _
          · split
            · exact .refuse _ _ _ _
            · exact (Acts.answer _ _ _ _).trans (createJob_cascade _ _ _ _ _ _).acts
  · exact .refuse _ _ _ _

theorem carryStripe_wf (j : Job) (r : Record) (p : Progress) (v : Dve) (d : Memory) (h : d.wf = true) :
    (carryStripe j r p v d).1.wf = true := writeChain_wf _ _ _ _ h

/-- Step 2 of R122: a pending thermal change is applied. -/
theorem applyPending_cascade (s : State) : Cascade s (match s.dve.pendingThermal with
    | some t => applyThermal t (s.updDve fun d => { d with pendingThermal := none })
    | none => s) := by
  split
  · refine Cascade.trans ?_ (applyThermal_cascade _ _)
    exact .dve s fun _ => ⟨rfl, rfl, rfl⟩
  · exact .refl s

/-- Steps 3 to 6 of R122. -/
theorem stripeEnd_cascade (j : Job) (p : Progress) (s : State) :
    Cascade s (if j.cancel then endCancelled { j with progress := some p } s
      else if p.next = j.mode.stripes then completeJob j p s
      else if preempted j s then pick (s.updJob j.shot fun x => { x with state := .suspended })
      else s) := by
  split
  · exact endCancelled_cascade _ _
  · split
    · exact completeJob_cascade _ _ _
    · split
      · exact (Cascade.updJob _ _ _).trans (pick_cascade _)
      · exact .refl _

theorem afterStripe_cascade (j : Job) (p : Progress) (s : State) : Cascade s (afterStripe j p s) :=
  (applyPending_cascade s).trans (stripeEnd_cascade j p _)

theorem stripeDone_acts (s : State) : Acts s (stripeDone s) := by
  unfold stripeDone
  split
  · exact .refl s
  case _ j hj =>
    split
    case _ p r hp hr =>
      dsimp only
      have e : (s.updDram fun _ => (carryStripe j r p s.dve s.dram).1)
          = s.updDram fun d => if d = s.dram then (carryStripe j r p s.dve s.dram).1 else d := by
        simp [State.updDram]
      rw [e]
      refine Acts.trans (.one (.dram s _ fun d hd => ?_)) ((Cascade.updJob _ _ _).trans (afterStripe_cascade _ _ _)).acts
      split
      case isTrue he => exact carryStripe_wf _ _ _ _ _ (he ▸ hd)
      case isFalse => exact hd
    · exact .refl s

/-! ## Card writer -/

theorem ownOpenSlot_acts (h : Header) (b : Byte) (s : State) : Acts s (ownOpenSlot h b s) := by
  unfold ownOpenSlot
  split
  · exact .refuse _ _ _ _
  case _ i hi =>
    split
    · exact .refuse _ _ _ _
    · exact ((Cascade.trans (by exact .slot s i fun _ => rfl) (moveSlot_cascade _ _ _)).acts.trans (.answer _ _ _ _)).trans
        (tryHead_cascade _ _).acts

theorem ownCloseSlot_acts (h : Header) (b : Byte) (s : State) : Acts s (ownCloseSlot h b s) := by
  unfold ownCloseSlot
  split
  · exact .refuse _ _ _ _
  case _ i hi =>
    dsimp only
    split
    · exact .refuse _ _ _ _
    · split
      · exact .refuse _ _ _ _
      · exact (Cascade.trans (by exact .slot s i fun _ => rfl) (moveSlot_cascade _ _ _)).acts.trans (.answer _ _ _ _)

theorem ownSlotFull_acts (h : Header) (b : Byte) (s : State) : Acts s (ownSlotFull h b s) := by
  unfold ownSlotFull
  split
  · exact .refuse _ _ _ _
  case _ i hi =>
    dsimp only
    split
    · exact .refuse _ _ _ _
    · have h1 : Acts s ((s.updSlot i fun y => { y with pool := [] }).answer .slotFull h []) :=
        Acts.trans (Cascade.acts (by exact .slot s i fun _ => rfl)) (.answer _ _ _ _)
      split
      · exact h1.trans (Cascade.acts (by exact .slot _ i fun _ => rfl))
      · split
        · exact h1
        · exact h1.trans ((moveSlot_cascade _ _ _).trans (migrateFrom_cascade _ _ _)).acts

theorem ownGrantExtents_acts (h : Header) (b c : Byte) (os : List ExtentOps) (s : State) : Acts s (ownGrantExtents h b c os s) := by
  unfold ownGrantExtents
  dsimp only
  split
  · exact .refuse _ _ _ _
  case _ i hi =>
    split
    · exact .refuse _ _ _ _
    · split
      · exact .refuse _ _ _ _
      · split
        · exact .refuse _ _ _ _
        · split
          · exact .refuse _ _ _ _
          · split
            · exact .refuse _ _ _ _
            · have h1 : Acts s ((s.updSlot i fun y => { y with pool := y.pool ++ os.map readExtent }).answer .grantExtents h []) :=
                Acts.trans (Cascade.acts (by exact .slot s i fun _ => rfl)) (.answer _ _ _ _)
              split
              · exact h1.trans (tryHead_cascade _ _).acts
              · exact h1

theorem takeBlockRequest_acts (h : Header) (i : SlotId) (b : BlockRequest) (c : Bool) (s : State) :
    Acts s (takeBlockRequest h i b c s) := by
  unfold takeBlockRequest
  split
  · exact .refuse _ _ _ _
  · split
    · exact .refuse _ _ _ _
    · split
      · exact .refuse _ _ _ _
      · exact (Cascade.trans (by exact .slot s i fun _ => rfl) (arbitrate_cascade _ _)).acts

theorem ownBlockRead_acts (h : Header) (b : Byte) (f c : Nat) (s : State) : Acts s (ownBlockRead h b f c s) := by
  unfold ownBlockRead
  split
  · exact .refuse _ _ _ _
  · split
    · exact .refuse _ _ _ _
    · exact takeBlockRequest_acts _ _ _ _ _

theorem ownBlockWrite_acts (h : Header) (b : Byte) (f c : Nat) (x : Option DataFrame) (s : State) :
    Acts s (ownBlockWrite h b f c x s) := by
  unfold ownBlockWrite
  split
  · split
    · exact .refuse _ _ _ _
    · exact takeBlockRequest_acts _ _ _ _ _
  · exact .refuse _ _ _ _

theorem blockDone_acts (i : SlotId) (bs : List Byte) (s : State) : Acts s (blockDone i bs s) := by
  unfold blockDone
  dsimp only
  split
  case _ o b rest ho hb =>
    split
    · exact .refl s
    · split
      · exact .refl s
      · refine Acts.trans (Cascade.acts (Cascade.slot s i (f := fun y => { y with op := none, blocks := rest }) fun _ => rfl)) ?_
        refine Acts.trans ?_ (arbitrate_cascade _ _).acts
        split
        · exact .respond _ _ _ _ _ _ _
        · exact (Acts.respond _ _ _ _ _ _ _).trans (.send _ _ _)
  · exact .refl s

theorem chunkRead_acts (i : SlotId) (s : State) : Acts s (chunkRead i s) := by
  unfold chunkRead
  split
  · exact ((endAccess_cascade _ _ _).trans (by exact .slot _ i fun _ => rfl)).acts
  · split
    · exact (endAccess_cascade _ _ _).acts
    · exact .refl s

/-- What follows a chunk: the end of the item, its abort, or the arbiter (R145, R152). -/
theorem afterCardChunk_cascade (i : SlotId) (w : WritingItem) (s : State) :
    Cascade s (if w.next = w.item.mode.itemChunks then finishItem i w .written s
      else if w.abort then finishItem i w .aborted s else arbitrate i s) := by
  split
  · exact finishItem_cascade _ _ _ _
  · split
    · exact finishItem_cascade _ _ _ _
    · exact arbitrate_cascade _ _

theorem chunkDone_acts (i : SlotId) (s : State) : Acts s (chunkDone i s) := by
  unfold chunkDone
  extract_lets x
  split
  case _ o w ho hw =>
    split
    · exact (Cascade.trans (Cascade.slot s i (f := fun y => { y with
        op := none,
        writing := some { w with next := w.next + 1, written := w.written + chunkLength w.item.mode w.next } }) fun _ => rfl)
        (afterCardChunk_cascade _ _ _)).acts
    · exact .refl s
  · exact .refl s

/-- A card fault that happens only where `b` says so. -/
theorem faultIf_acts (i : SlotId) (b : Bool) (s : State) : Acts s (if b then faultSlot i .fault s else s) := by
  split
  · exact (faultSlot_cascade _ _ _).acts
  · exact .refl s

theorem cardInsert_acts (i : SlotId) (s : State) :
    Acts s (if ((s.updSlot i fun x => { x with detect := true }).slot i).state == .absent
      then moveSlot i .present (s.updSlot i fun x => { x with detect := true })
      else s.updSlot i fun x => { x with detect := true }) := by
  have h1 : Acts s (s.updSlot i fun x => { x with detect := true }) := .one (.detect s i true)
  split
  · exact h1.trans (moveSlot_cascade _ _ _).acts
  · exact h1

theorem cardRemoved_acts (i : SlotId) (s : State) : Acts s (cardRemoved i s) := by
  unfold cardRemoved
  dsimp only
  have h1 : Acts s (s.updSlot i fun x => { x with detect := false }) := .one (.detect s i false)
  split
  · exact h1.trans (faultSlot_cascade _ _ _).acts
  · split
    · exact h1
    · exact h1.trans ((moveSlot_cascade _ _ _).trans (migrateFrom_cascade _ _ _)).acts

theorem ownRetryCard_acts (h : Header) (n : Nat) (b : Byte) (s : State) : Acts s (ownRetryCard h n b s) := by
  unfold ownRetryCard
  split
  · exact .refuse _ _ _ _
  · split
    · exact .refuse _ _ _ _
    · exact ((retryAll_cascade _ s).acts.trans (.answer _ _ _ _)).trans ((tryIdle_cascade _ _).trans (tryIdle_cascade _ _)).acts

theorem ite_acts {c : Prop} [Decidable c] {s t u : State} (h : Acts s t) (k : Acts s u) : Acts s (if c then t else u) := by
  split
  · exact h
  · exact k

theorem ownWaiveCard_acts (h : Header) (n : Nat) (b : Byte) (s : State) : Acts s (ownWaiveCard h n b s) := by
  unfold ownWaiveCard
  split
  · exact .refuse _ _ _ _
  · split
    · exact .refuse _ _ _ _
    · refine ite_acts ?_ ?_
      · exact .refuse _ _ _ _
      · exact ((waiveAll_cascade _ s).acts.trans (.answer _ _ _ _)).trans
          ((tryNewHead_cascade _ _ _).trans (tryNewHead_cascade _ _ _)).acts

/-! ## Tether controller -/

theorem ownOpenSession_acts (h : Header) (s : State) : Acts s (ownOpenSession h s) := by
  unfold ownOpenSession
  dsimp only
  refine Acts.trans ?_ (.answer _ _ _ _)
  have h1 : Acts s (startSilence (s.updTtc fun t => { t with attached := true })) := .one (.attach s)
  split
  · exact h1.trans (settleSending_cascade _ _).acts
  · exact h1

theorem detachIfAttached_acts (s : State) : Acts s (if s.ttc.attached then detachSession s else s) := by
  split
  case isTrue h => exact .one (.detach s h)
  · exact .refl s

theorem silenceExpires_acts (s : State) : Acts s (silenceExpires s) := by
  unfold silenceExpires
  split
  case isTrue h => exact .one (.detach s (by simp only [Bool.and_eq_true] at h; exact h.1))
  · exact .refl s

theorem tetherLinkLost_acts (s : State) : Acts s (tetherLinkLost s) := (detachIfAttached_acts s).tail (.tetherClear _)

theorem ownSetRule_acts (h : Header) (n : Nat) (o : RuleOps) (s : State) : Acts s (ownSetRule h n o s) := by
  unfold ownSetRule
  split
  · split
    · exact .refuse _ _ _ _
    · exact (Acts.one (.rules s fun us => us.set n _)).trans (.answer _ _ _ _)
  · exact .refuse _ _ _ _

theorem ownSendShot_acts (h : Header) (n : Nat) (c p : Byte) (s : State) : Acts s (ownSendShot h n c p s) := by
  unfold ownSendShot
  split
  · split
    · exact .refuse _ _ _ _
    · split
      · exact .refuse _ _ _ _
      · exact (raiseItem_cascade _ _ _).acts.trans (.answer _ _ _ _)
      case _ r _ hi =>
        have h1 := fun q => enqueueItem_cascade n _ q none 1000 r.snapshot.scale s hi
        split
        · exact .refuse _ _ _ _
        · exact .refuse _ _ _ _
        · exact .refuse _ _ _ _
        case _ s' hs =>
          have h2 := h1 ‹Priority›
          rw [hs] at h2
          exact Acts.trans h2.acts (.answer _ _ _ _)
  · exact .refuse _ _ _ _

theorem startChunk_acts (t : Transfer) (s : State) : Acts s (startChunk t s) :=
  (beginAccess_cascade _ _ s).acts.trans (.send _ _ _)

theorem Option.or_mem {α : Type} {p q : α → Bool} {l : List α} {x : α} (h : (l.find? p).or (l.find? q) = some x) : x ∈ l := by
  rcases Option.or_eq_some_iff.1 h with h | ⟨-, h⟩
  · exact List.mem_of_find?_eq_some h
  · exact List.mem_of_find?_eq_some h

theorem ownTakeNext_acts (h : Header) (s : State) (ha : s.ttc.attached = true) : Acts s (ownTakeNext h s) := by
  unfold ownTakeNext
  split
  · exact .refuse _ _ _ _
  case isFalse hn =>
    split
    · exact .refuse _ _ _ _
    case _ i hi =>
      split
      · exact .refuse _ _ _ _
      · split
        · exact .refuse _ _ _ _
        · dsimp only
          refine ((Acts.one (.sending s i _ (Option.or_mem hi) ?_ ha)).trans (.respond _ _ _ _ _ _ _)).trans (startChunk_acts _ _)
          simpa using hn

theorem afterChunk_acts (i : SendItem) (t : Transfer) (s : State) (hi : s.sendingItem = some i) : Acts s (afterChunk i t s) := by
  unfold afterChunk
  dsimp only
  have h1 : Acts s (startSilence (endAccess .tether t.chain
      (s.updPtc fun p => { p with tetherOut := dropThrough (isFrame t.tag t.next) p.tetherOut }))) := by
    refine ((Acts.one (.tetherOut s (dropThrough (isFrame t.tag t.next)))).trans (endAccess_cascade _ _ _).acts).tail
      (.silence _ (.inr ⟨i, ?_, ?_⟩))
    · rw [endAccess_ttc]; exact List.mem_of_find?_eq_some hi
    · have := List.find?_some hi; simpa using this
  refine h1.trans ?_
  refine Acts.trans (Cascade.item _ i.serial (f := fun x => { x with transfer := some { t with next := t.next + 1 } })
    fun x => ⟨rfl, rfl, id⟩).acts ?_
  split
  · exact (Acts.send _ _ _).trans (endDeleted_cascade _ _).acts
  · exact (Acts.send _ _ _).trans (endCanceled_cascade _ _).acts
  · split
    · exact Cascade.acts (by exact .item _ _ fun x => ⟨rfl, rfl, id⟩)
    · exact startChunk_acts _ _

theorem tetherChunkDone_acts (s : State) : Acts s (tetherChunkDone s) := by
  unfold tetherChunkDone
  split
  · exact .refl s
  case _ i hi =>
    split
    · split
      · exact .refl s
      · exact afterChunk_acts _ _ _ hi
    · exact .refl s

theorem itemSent_acts (h : Header) (i : SendItem) (s : State) : Acts s (itemSent h i s) :=
  ((((leaveQueue_cascade i .sent s).acts.tail (.errorsDown _)).trans (.answer _ _ _ _))).trans (testRelease_cascade _ _).acts

theorem ownItemResult_acts (h : Header) (n : Nat) (b : Byte) (s : State) : Acts s (ownItemResult h n b s) := by
  unfold ownItemResult
  split
  · exact .refuse _ _ _ _
  · split
    · exact .refuse _ _ _ _
    case _ i hi =>
      split
      · exact .refuse _ _ _ _
      · split
        · exact .refuse _ _ _ _
        · split
          · exact itemSent_acts _ _ _
          · exact .one (.failed s h i hi)

theorem ownCancelItem_acts (h : Header) (n : Nat) (s : State) : Acts s (ownCancelItem h n s) := by
  unfold ownCancelItem
  split
  · exact .refuse _ _ _ _
  · split
    · exact .refuse _ _ _ _
    · split
      · exact Cascade.acts (by exact .item _ _ fun x => ⟨rfl, rfl, id⟩)
      · exact ((leaveQueue_cascade _ _ _).acts.trans (.answer _ _ _ _)).trans (testRelease_cascade _ _).acts

theorem ownRearmAutosend_acts (h : Header) (b : Byte) (s : State) : Acts s (ownRearmAutosend h b s) := by
  unfold ownRearmAutosend
  split
  · exact .refuse _ _ _ _
  · dsimp only
    have h1 : Acts s ((s.updTtc fun t => { t with errors := 0, armed := true }).answer .rearmAutosend h []) :=
      (Acts.one (.rearm s)).trans (.answer _ _ _ _)
    split
    · exact h1.trans (evaluateAll_cascade _ _).acts
    · exact h1

/-! ## Port controller -/

theorem takeNotices_suffix (n room : Nat) (q : List Notice) : (takeNotices n room q).2 <:+ q := by
  induction q generalizing n room with
  | nil => cases n <;> exact List.suffix_rfl
  | cons x q ih =>
    cases n with
    | zero => exact List.suffix_rfl
    | succ n =>
      unfold takeNotices
      split
      · exact (ih n _).trans (List.suffix_cons x q)
      · exact List.suffix_rfl

theorem ownFetchNotices_acts (h : Header) (m : Nat) (s : State) : Acts s (ownFetchNotices h m s) :=
  (Acts.one (.fetch s h.port _ (takeNotices_suffix _ _ _))).trans (.answer _ _ _ _)

theorem offerAll_cascade (ns : List Notice) (s : State) (h : ∀ n ∈ ns, n.isOverrun = false) : Cascade s (offerAll ns s) := by
  induction ns generalizing s with
  | nil => exact .refl s
  | cons n ns ih =>
    exact (Cascade.offerBody s n (h n (by simp))).trans (ih _ fun x hx => h x (List.mem_cons_of_mem _ hx))

theorem standingNotices_kind (old new : Classes) (s : State) : ∀ n ∈ standingNotices old new s, n.isOverrun = false := by
  intro n hn
  unfold standingNotices at hn
  simp only [List.mem_append] at hn
  rcases hn with ((hn | hn) | hn) | hn
  · split at hn
    · cases List.mem_singleton.1 hn; rfl
    · cases hn
  · split at hn
    · cases List.mem_singleton.1 hn; rfl
    · cases hn
  · split at hn
    · obtain ⟨i, -, rfl⟩ := List.mem_map.1 hn; rfl
    · cases hn
  · split at hn
    · cases List.mem_singleton.1 hn; rfl
    · cases hn

theorem ownNoticeClasses_acts (h : Header) (a b c d : Byte) (s : State) : Acts s (ownNoticeClasses h a b c d s) := by
  unfold ownNoticeClasses
  split
  · exact ((Acts.one (.enables s _)).trans (.answer _ _ _ _)).trans (offerAll_cascade _ _ (standingNotices_kind _ _ _)).acts
  · exact .refuse _ _ _ _

theorem takeReserve_acts (v : Nat) (s : State) : Acts s (takeReserve v s) := by
  unfold takeReserve
  dsimp only
  split
  · exact (Acts.one (.reserve s v)).trans (announceSlabs_cascade _).acts
  · exact .one (.reserve s v)

theorem takeParams_acts (p : Params) (s : State) (hw : p.shotWait ≤ 5000) (ht : 1 ≤ p.threshold ∧ p.threshold ≤ 31) :
    Acts s (takeParams p s) := by
  unfold takeParams
  exact .tail (.tail (.tail (.tail (.tail (takeReserve_acts _ s) (.policy _ _ _ _ _)) (.catParams _ _ _)) (.sessionParams _ _ _))
    (.waitLimit _ _ hw)) (.threshold _ _ ht)

theorem ownSetParams_acts (h : Header) (o : ParamsOps) (s : State) : Acts s (ownSetParams h o s) := by
  unfold ownSetParams
  split
  · exact .refuse _ _ _ _
  case _ p hp =>
    refine Acts.trans (takeParams_acts p s ?_ ?_) (.answer _ _ _ _)
    all_goals
      unfold readParams at hp
      split at hp
      · cases hp
        first
          | exact clampNat_le 0 5000 _ (by decide)
          | exact ⟨le_clampNat 1 31 _ (by decide), clampNat_le 1 31 _ (by decide)⟩
      · cases hp

theorem lastAccessDone_acts (c : List Nat) (s : State) : Acts s (lastAccessDone c s) := by
  unfold lastAccessDone
  split
  · exact (Cascade.trans (by exact .fsc s fun _ => ⟨rfl, rfl, rfl, rfl⟩) (settleReleases_cascade _ _)).acts
  · exact .refl s

/-! ## All commands -/

/-- Every command is a chain of the changes of `Act`. -/
theorem exec_acts {c : Instr} {s t : State} (h : exec c s = .next t) : Acts s t := by
  cases c <;> injection h with h <;> subst h
  case blockRead h a b d => exact takeRequest_acts s fun x => ownBlockRead_acts _ _ _ _ x
  case blockWrite h a b d f => exact takeRequest_acts s fun x => ownBlockWrite_acts _ _ _ _ _ x
  case burstBegin => exact takeRequest_acts s fun x => ownBurstBegin_acts _ _ _ _ x
  case burstEnd => exact takeRequest_acts s fun x => ownBurstEnd_acts _ x
  case cancelItem => exact takeRequest_acts s fun x => ownCancelItem_acts _ _ x
  case closeSession => exact takeRequest_acts s fun x => (detachIfAttached_acts x).trans (.answer _ _ _ _)
  case closeSlot => exact takeRequest_acts s fun x => ownCloseSlot_acts _ _ x
  case configureStore => exact takeRequest_acts s fun x => ownConfigureStore_acts _ _ _ x
  case delete => exact takeRequest_acts s fun x => ownDelete_acts _ _ x
  case develop => exact takeRequest_acts s fun x => ownDevelop_acts _ _ x
  case fetchNotices => exact takeRequest_acts s fun x => ownFetchNotices_acts _ _ x
  case getStatus => exact takeRequest_acts s fun x => .answer _ _ _ _
  case getZoneMap => exact takeRequest_acts s fun x => .answer _ _ _ _
  case grantExtents => exact takeRequest_acts s fun x => ownGrantExtents_acts _ _ _ _ x
  case hold => exact takeRequest_acts s fun x => ownHold_acts _ _ x
  case identify => exact takeRequest_acts s fun x => .answer _ _ _ _
  case itemResult => exact takeRequest_acts s fun x => ownItemResult_acts _ _ _ x
  case lensState => exact takeRequest_acts s fun x => ownLensState_acts _ _ x
  case listShots => exact takeRequest_acts s fun x => .answer _ _ _ _
  case loadTone => exact takeRequest_acts s fun x => ownLoadTone_acts _ _ _ _ _ x
  case noticeClasses => exact takeRequest_acts s fun x => ownNoticeClasses_acts _ _ _ _ _ x
  case openSession => exact takeRequest_acts s fun x => ownOpenSession_acts _ x
  case openSlot => exact takeRequest_acts s fun x => ownOpenSlot_acts _ _ x
  case precapture => exact takeRequest_acts s fun x => ownPrecapture_acts _ _ _ _ x
  case protect => exact takeRequest_acts s fun x => ownProtect_acts _ _ _ x
  case readProof => exact takeRequest_acts s fun x => ownRead_acts _ _ _ _ x
  case readRaw => exact takeRequest_acts s fun x => ownRead_acts _ _ _ _ x
  case rearmAutosend => exact takeRequest_acts s fun x => ownRearmAutosend_acts _ _ x
  case retryCard => exact takeRequest_acts s fun x => ownRetryCard_acts _ _ _ x
  case sendShot => exact takeRequest_acts s fun x => ownSendShot_acts _ _ _ _ x
  case setDevelop => exact takeRequest_acts s fun x => ownSetDevelop_acts _ _ x
  case setFocus => exact takeRequest_acts s fun x => ownSetFocus_acts _ _ x
  case setParams => exact takeRequest_acts s fun x => ownSetParams_acts _ _ x
  case setRule => exact takeRequest_acts s fun x => ownSetRule_acts _ _ _ x
  case setTags => exact takeRequest_acts s fun x => ownSetTags_acts _ _ _ _ _ x
  case setZones => exact takeRequest_acts s fun x => ownSetZones_acts _ _ x
  case shoot => exact takeRequest_acts s fun x => ownShoot_acts _ _ x
  case shotInfo => exact takeRequest_acts s fun x => ownShotInfo_acts _ _ x
  case slotFull => exact takeRequest_acts s fun x => ownSlotFull_acts _ _ x
  case takeNext h =>
    refine takeRequest_session s fun x hg ha => ownTakeNext_acts _ x (ha ?_ rfl)
    revert hg
    cases h.port <;> decide
  case unhold => exact takeRequest_acts s fun x => ownUnhold_acts _ _ x
  case unwatch => exact takeRequest_acts s fun x => (Acts.one (.watchOff x)).trans (.answer _ _ _ _)
  case waiveCard => exact takeRequest_acts s fun x => ownWaiveCard_acts _ _ _ x
  case watch => exact takeRequest_acts s fun x => ownWatch_acts _ _ x
  case unknownKindMessage => exact .send _ _ _
  case strayDataFrame => exact .refl _
  case frameStart => exact frameStarts_acts s
  case line => exact lineArrives_acts _ _ s
  case frameEnd => exact frameEnds_acts s
  case afPacket z l r =>
    split
    · unfold fePacket
      split
      case isTrue hl => exact .one (.fePacket s z _ (by simpa using hl))
      · exact .refl s
    · exact .refl s
  case rawCompletion => exact rawCompletes_acts s
  case focusResultReady => exact focusReady_acts s
  case stripeCompletion => exact stripeDone_acts s
  case cardChunkCompletion => exact chunkDone_acts _ s
  case blockRequestCompletion => exact blockDone_acts _ _ s
  case cardErrorCompletion => exact faultIf_acts _ _ s
  case cardStallExpiry => exact faultIf_acts _ _ s
  case cardInsert => exact cardInsert_acts _ s
  case cardRemoval => exact cardRemoved_acts _ s
  case tetherChunkCompletion => exact tetherChunkDone_acts s
  case readFrameCompletion => exact readFrameDone_acts s
  case silenceExpiry => exact silenceExpires_acts s
  case shotWaitExpiry => exact waitExpires_acts s
  case thermalSample =>
    split
    · exact .one (.thermal s _ _)
    · exact .refl s
  case usbBusReset => exact tetherLinkLost_acts s
  case tetherCableLoss => exact tetherLinkLost_acts s
  case lensDetach => exact (Acts.one (.lensDown s)).tail (.lensQueue _ (List.filter _) fun q => List.filter_sublist)
  case lensAttach => exact .one (.lensUp s)
  case chainLastAccessCompletion => exact lastAccessDone_acts _ s
  case resetLine => exact .one (.reset s)
  case timeBaseTick => exact .one (.tick s)
  case chunkRawReadCompletion => exact chunkRead_acts _ s

end Sys2Proof.Machine
end

