-- ==== Sys2Proof/Laws/Gate.lean ====
section
/-! SUPPORT. What the gate does with a request, said once: it refuses, or its owner acts on the state `atOwner` (R158, R159, R188). -/

namespace Sys2Proof.Machine

/-- What the owner of a request does with it. -/
def ownerAct : Instr → State → State
  | .blockRead h slot first count => ownBlockRead h slot first.toNat count.toNat
  | .blockWrite h slot first count frame => ownBlockWrite h slot first.toNat count.toNat frame
  | .burstBegin h divisor maximum focus => ownBurstBegin h divisor.toNat maximum.toNat focus
  | .burstEnd h => ownBurstEnd h
  | .cancelItem h serial => ownCancelItem h serial.toNat
  | .closeSession h => ownCloseSession h
  | .closeSlot h slot => ownCloseSlot h slot
  | .configureStore h slabs mode => ownConfigureStore h slabs mode
  | .delete h shot => ownDelete h shot.toNat
  | .develop h ops => ownDevelop h ops
  | .fetchNotices h maximum => ownFetchNotices h maximum.toNat
  | .getStatus h => fun s => s.answer .getStatus h (statusBody s)
  | .getZoneMap h => fun s => s.answer .getZoneMap h (zoneMapBody s.fe.latest)
  | .grantExtents h slot count extents => ownGrantExtents h slot count extents
  | .hold h shot => ownHold h shot.toNat
  | .identify h => fun s => s.answer .identify h (identityBody h.port)
  | .itemResult h serial outcome => ownItemResult h serial.toNat outcome
  | .lensState h ops => ownLensState h ops
  | .listShots h first maximum => ownListShots h first.toNat maximum.toNat
  | .loadTone h table first count entries => ownLoadTone h table.toNat first.toNat count.toNat entries
  | .noticeClasses h thermal shortage slotState autosend => ownNoticeClasses h thermal shortage slotState autosend
  | .openSession h => ownOpenSession h
  | .openSlot h slot => ownOpenSlot h slot
  | .precapture h action depth divisor => ownPrecapture h action depth.toNat divisor.toNat
  | .protect h shot action => ownProtect h shot.toNat action
  | .readProof h shot => ownRead .readProof .proof h shot.toNat
  | .readRaw h shot => ownRead .readRaw .raw h shot.toNat
  | .rearmAutosend h backfill => ownRearmAutosend h backfill
  | .retryCard h shot slot => ownRetryCard h shot.toNat slot
  | .sendShot h shot content cls => ownSendShot h shot.toNat content cls
  | .setDevelop h ops => ownSetDevelop h ops
  | .setFocus h ops => ownSetFocus h ops
  | .setParams h ops => ownSetParams h ops
  | .setRule h index ops => ownSetRule h index.toNat ops
  | .setTags h shot setMask clearMask rating => ownSetTags h shot.toNat setMask clearMask rating
  | .setZones h entries => ownSetZones h entries
  | .shoot h focus => ownShoot h focus
  | .shotInfo h shot => ownShotInfo h shot.toNat
  | .slotFull h slot => ownSlotFull h slot
  | .takeNext h => ownTakeNext h
  | .unhold h shot => ownUnhold h shot.toNat
  | .unwatch h => ownUnwatch h
  | .waiveCard h shot slot => ownWaiveCard h shot.toNat slot
  | .watch h mode => ownWatch h mode
  | _ => id

/-- A request is what the gate makes of it, with the body test of its own length (R188). -/
theorem exec_request {c : Instr} {r : Request} {h : Header} (hc : c.asRequest = some (r, h)) (s : State) :
    exec c s = .next (takeRequest r h (bodyFits h c.bodyLength) (ownerAct c) s) := by
  cases c <;> cases hc <;> rfl

theorem bodyRight_iff (c : Instr) (r : Request) (h : Header) :
    c.bodyRight r h = (bodyFits h c.bodyLength && dataFollows h == (r == .blockWrite)) := rfl

/-- A request that reaches its owner has its owner's effect (R188). -/
theorem exec_owner {c : Instr} {h : Header} {s : State} (hr : reachesOwner c h s) :
    exec c s = .next (ownerAct c (s.atOwner h)) := by
  obtain ⟨r, hc, hg, hb, hs⟩ := hr
  rw [exec_request hc, takeRequest, if_neg (by simp [hg]), if_neg (by rw [← bodyRight_iff, hb]; decide)]
  unfold throughSession State.atOwner
  by_cases hp : h.port = .tether
  · rw [if_pos hp]
    by_cases ha : s.ttc.attached = true
    · rw [if_pos ha, if_pos ⟨hp, ha⟩]; rfl
    · rw [if_neg ha, if_pos (hs hp (by simpa using ha)), if_neg fun e => ha e.2]
  · rw [if_neg hp, if_neg fun e => hp e.1]

/-- A request that only the body port may make finds its owner with the state as it is. -/
theorem atOwner_body {s : State} {h : Header} (hp : h.port ≠ .tether) : s.atOwner h = s := if_neg fun e => hp e.1

/-- The gate refuses a request of a port without the right (R188 step 2). -/
theorem exec_notPermitted {c : Instr} {r : Request} {h : Header} {s : State} (hc : c.asRequest = some (r, h))
    (hg : granted r h.port = false) : exec c s = .next (s.refused r h .notPermitted) := by
  rw [exec_request hc, takeRequest, if_pos (by simp [hg])]; rfl

/-- The gate refuses a request with a wrong body or a wrong flag (R188 step 3). -/
theorem exec_badRequest {c : Instr} {r : Request} {h : Header} {s : State} (hc : c.asRequest = some (r, h))
    (hg : granted r h.port = true) (hb : c.bodyRight r h = false) : exec c s = .next (s.refused r h .badRequest) := by
  rw [exec_request hc, takeRequest, if_neg (by simp [hg]), if_pos (by rw [← bodyRight_iff, hb]; decide)]; rfl

/-- The session check refuses a request of a DETACHED session (R158). -/
theorem exec_noSession {c : Instr} {r : Request} {h : Header} {s : State} (hc : c.asRequest = some (r, h))
    (hg : granted r h.port = true) (hb : c.bodyRight r h = true) (hp : h.port = .tether) (ha : s.ttc.attached = false)
    (hf : sessionFree r = false) : exec c s = .next (s.refused r h .noSession) := by
  rw [exec_request hc, takeRequest, if_neg (by simp [hg]), if_neg (by rw [← bodyRight_iff, hb]; decide)]
  unfold throughSession
  rw [if_pos hp, if_neg (by simp [ha]), if_neg (by simp [hf])]; rfl

end Sys2Proof.Machine
end

