-- ==== Sys2Proof/Tests/Slice0.lean ====
section
/-! SUPPORT. Tests: ill-formed commands that WellFormed refuses, messages written out byte by byte, the manual's worked figures, one
step of each family, and for every obligation with hypotheses a state and operands that meet them (the witnesses). The
expected values come from the manual's layouts, tables and examples, or by hand from them. -/


namespace Sys2Proof.Tests

set_option Elab.async false

open Machine

/-! ## Commands that cannot arrive (WellFormed) -/

/-- A header of the body, tether and lens port with a body length; tag 7, no flag. -/
def body (n : Half) : Header := { port := .body, tag := 7, flags := 0, bodyLen := n }
def tether (n : Half) : Header := { port := .tether, tag := 7, flags := 0, bodyLen := n }
def lens (n : Half) : Header := { port := .lens, tag := 7, flags := 0, bodyLen := n }

theorem test_wf_extents_disagree_with_length :
    WellFormed (.grantExtents (body 10) 0 1 []) = false ∧ WellFormed (.grantExtents (body 10) 0 1 [⟨0, 20000⟩]) = true := by
  decide
theorem test_wf_tone_entries_disagree_with_length :
    WellFormed (.loadTone (body 7) 0 0 2 [1]) = false ∧ WellFormed (.loadTone (body 7) 0 0 2 [1, 2]) = true := by decide
theorem test_wf_zones_disagree_with_length :
    WellFormed (.setZones (body 336) []) = false ∧ WellFormed (.setZones (body 7) [⟨1, 0, 0⟩]) = true := by decide
theorem test_wf_known_kind_is_not_unknown :
    WellFormed (.unknownKindMessage .body 44 7) = false ∧ WellFormed (.unknownKindMessage .body 255 7) = false
      ∧ WellFormed (.unknownKindMessage .body 45 7) = true ∧ WellFormed (.unknownKindMessage .body 0 7) = true := by decide
theorem test_wf_read_of_half_a_block : WellFormed (.blockRequestCompletion .a [1]) = false := by decide
theorem test_wf_chain_of_no_slab :
    WellFormed (.chainLastAccessCompletion []) = false ∧ WellFormed (.chainLastAccessCompletion [2048]) = false
      ∧ WellFormed (.chainLastAccessCompletion [2047]) = true := by decide
theorem test_wf_frame_above_its_length_field (f : DataFrame) (h : 65536 < f.payload.length) :
    WellFormed (.strayDataFrame .body f) = false ∧ WellFormed (.blockWrite (body 6) 0 0 1 (some f)) = false := by
  have : f.fits = false := by
    rw [DataFrame.fits, show Config.framePayload = 65536 from rfl]
    exact decide_eq_false (by omega)
  exact ⟨this, this⟩

/-! ## Messages byte by byte (R186, R187, R197) -/

/-- Frame store: CONFIGURE_STORE is kind 8; 1024 slabs, CROP. -/
theorem test_message_configure :
    Decode.message .body [8, 7, 0, 0, 3, 0, 0x00, 0x04, 1] = some (.configureStore (body 3) 1024 1, []) := by decide
/-- Capture: BURST_BEGIN is kind 3; divisor 2, maximum 999, focus priority; with the next message's first byte behind it. -/
theorem test_message_burst :
    Decode.message .body [3, 7, 0, 0, 4, 0, 2, 0xE7, 0x03, 1, 37] = some (.burstBegin (body 4) 2 999 1, [37]) := by decide
/-- Catalog: SET_TAGS is kind 35; shot 0x01020304. -/
theorem test_message_tags :
    Decode.message .tether [35, 7, 0, 0, 9, 0, 4, 3, 2, 1, 0x01, 0x80, 0x02, 0x00, 255]
      = some (.setTags (tether 9) 0x01020304 0x8001 0x0002 255, []) := by decide
/-- Focus: LENS_STATE is kind 18; position 5200, Kc 600, travel 200..15000, moving. -/
theorem test_message_lens :
    Decode.message .lens [18, 7, 0, 0, 9, 0, 0x50, 0x14, 0x58, 0x02, 0xC8, 0x00, 0x98, 0x3A, 1]
      = some (.lensState (lens 9) { position := 5200, kc := 600, travelMin := 200, travelMax := 15000, moving := 1 }, []) := by
  decide
/-- Development: LOAD_TONE is kind 20; table 1, entries 512 and 513. -/
theorem test_message_tone :
    Decode.message .body [20, 7, 0, 0, 7, 0, 1, 0x00, 0x02, 2, 0, 9, 8] = some (.loadTone (body 7) 1 512 2 [9, 8], []) := by
  decide
/-- Card: GRANT_EXTENTS is kind 14; slot A, one extent of 100,000 blocks at block 1,000,000. -/
theorem test_message_grant :
    Decode.message .body [14, 7, 0, 0, 10, 0, 0, 1, 0x40, 0x42, 0x0F, 0x00, 0xA0, 0x86, 0x01, 0x00]
      = some (.grantExtents (body 10) 0 1 [⟨1000000, 100000⟩], []) := by decide
/-- Tether: ITEM_RESULT is kind 17; serial 2, FAILED. -/
theorem test_message_result :
    Decode.message .tether [17, 7, 0, 0, 5, 0, 2, 0, 0, 0, 1] = some (.itemResult (tether 5) 2 1, []) := by decide
/-- BLOCK_WRITE is kind 2 and is taken with the DATA frame of its tag behind it; the frame's flag in the header is bit 0. -/
theorem test_message_block_write :
    Decode.message .body [2, 7, 0, 1, 6, 0, 1, 5, 0, 0, 0, 1, 0xFF, 7, 0, 0, 0, 0, 0, 0, 2, 0, 0, 0, 0xAA, 0xBB, 4]
      = some (.blockWrite { body 6 with flags := 1 } 1 5 1 (some ⟨7, 0, [0xAA, 0xBB]⟩), [4]) := by decide
/-- A DATA frame of another tag is not the BLOCK_WRITE's. -/
theorem test_message_block_write_without_frame :
    Decode.message .body [2, 7, 0, 1, 6, 0, 1, 5, 0, 0, 0, 1, 0xFF, 8, 0, 0, 0, 0, 0, 0, 0, 0, 0, 0]
      = some (.blockWrite { body 6 with flags := 1 } 1 5 1 none, [0xFF, 8, 0, 0, 0, 0, 0, 0, 0, 0, 0, 0]) := by decide
/-- A BLOCK_WRITE that announces its frame is not taken while the frame has not wholly arrived (R187). -/
theorem test_message_block_write_waits :
    Decode.message .body [2, 7, 0, 1, 6, 0, 1, 5, 0, 0, 0, 1] = none
      ∧ Decode.message .body [2, 7, 0, 1, 6, 0, 1, 5, 0, 0, 0, 1, 0xFF, 7, 0, 0, 0, 0, 0, 0, 2, 0, 0, 0, 0xAA] = none := by decide
/-- A message that has not wholly arrived is not taken (R185); a kind above 44 is unknown (R186). -/
theorem test_message_incomplete : Decode.message .body [8, 7, 0, 0, 3, 0, 0x00, 0x04] = none := by decide
theorem test_message_unknown : Decode.message .body [45, 7, 0, 0, 1, 0, 9] = some (.unknownKindMessage .body 45 7, []) := by
  decide
/-- No row of the table has bits (98_reader.md). -/
theorem test_no_table_word : decodeTableWord 32 0x2D = none := by decide

/-! ## Layouts -/

/-- Samples 256, 16383, 0, 1 pack to 00 C1 FF 0F 00 04 00 (R200). -/
theorem test_pack_group : packRow [256, 16383, 0, 1] = [0x00, 0xC1, 0xFF, 0x0F, 0x00, 0x04, 0x00] := by decide
theorem test_unpack_group :
    (List.range 4).map (unpackSample [0x00, 0xC1, 0xFF, 0x0F, 0x00, 0x04, 0x00]) = [256, 16383, 0, 1] := by decide
/-- R5: row bytes, slabs of a raw and of a proof. -/
theorem test_sizes_full :
    Mode.full.rowBytes = 14112 ∧ Mode.full.rawBytes = 75866112 ∧ Mode.full.rawSlabs = 19
      ∧ Mode.full.proofSlabs .half = 8 ∧ Mode.full.proofSlabs .quarter = 2 ∧ Mode.full.itemBlocks = 148177
      ∧ Mode.full.itemChunks = 73 := by decide
theorem test_sizes_crop :
    Mode.crop.rawSlabs = 9 ∧ Mode.crop.proofSlabs .half = 4 ∧ Mode.crop.proofSlabs .quarter = 1
      ∧ Mode.crop.itemBlocks = 65857 ∧ Mode.crop.itemChunks = 33 := by decide
/-- Byte 4,194,304 of a chain lies at the head of its second slab (R1, R5). -/
theorem test_chain_crosses_slabs :
    chainAddr [3, 7] 4194303 = some (4 * 4194304 - 1) ∧ chainAddr [3, 7] 4194304 = some (7 * 4194304)
      ∧ chainAddr [3, 7] 8388608 = none := by decide

/-! ## The DRAM -/

theorem test_memory_reads_what_was_written : (Memory.write [] 5 9).read 5 = 9 := by decide
theorem test_memory_keeps_addresses_rising :
    Memory.wf (Memory.write (Memory.write [] 8 1) 3 2) = true ∧ (Memory.write (Memory.write [] 8 1) 3 2).read 8 = 1 := by decide

/-! ## Focus (the figures of 04 and 05) -/

/-- a = 5200, b = 2000, c = 3600: q 3 and Q 181; P 51 at Kc 600 gives D 120. -/
theorem test_zone_figures : interpolate 5200 2000 3600 = 3 ∧ confidence 5200 2000 3600 = 181 ∧ defocus 51 600 = (120, false) := by
  decide
/-- −2.5 rounds away from zero; the least Q that passes 16; D −523. -/
theorem test_halfway_rounds_away : interpolate 1610 1500 1710 = -3 ∧ confidence 1610 1500 1710 = 16
    ∧ defocus (-67) 2000 = (-523, false) := by decide
theorem test_tied_and_flat_minimum : interpolate 1300 900 1100 = 3 ∧ confidence 1300 900 1100 = 44
    ∧ interpolate 640 640 640 = 0 ∧ confidence 640 640 640 = 0 := by decide
theorem test_defocus_clamped : defocus 184 50000 = (32767, true) := by decide
theorem test_limits : limiter (-223) 0 16383 = .clipped ∧ limiter 33767 0 16383 = .clipped ∧ limiter 5120 0 16383 = .valid := by
  decide

/-- Zones 27 and 28 of the priority-mode example. -/
def zone27 : Candidate := { zone := 27, c := 9000, p := 76, q := 200, d := 179, t := 6379, dClamped := false }
def zone28 : Candidate := { zone := 28, c := 9000, p := 51, q := 181, d := 120, t := 6320, dClamped := false }
theorem test_priority_modes :
    selectZone .near none [zone27, zone28] = some zone27 ∧ selectZone .far none [zone27, zone28] = some zone28
      ∧ selectZone .closest none [zone27, zone28] = some zone28 ∧ selectZone .track none [zone27, zone28] = some zone27
      ∧ selectZone .track (some 6330) [zone27, zone28] = some zone28
      ∧ selectZone .track (some 6400) [zone27, zone28] = some zone27 := by decide

/-- Velocity and prediction of frames 713 to 715. -/
theorem test_velocity :
    velocity [⟨4960, 710⟩, ⟨5040, 712⟩] = 640 ∧ velocity [⟨4960, 710⟩, ⟨5040, 712⟩, ⟨5120, 713⟩] = 853
      ∧ rawPrediction 5120 853 2 = 5227 ∧ velocity [⟨5040, 712⟩, ⟨5120, 713⟩, ⟨5210, 714⟩, ⟨5290, 715⟩] = 1333
      ∧ rawPrediction 5290 1333 2 = 5457 := by decide

/-- A lens of travel 200..15000. -/
def travel : Lens := { position := 5000, kc := 600, travelMin := 200, travelMax := 15000, moving := false }
theorem test_prediction_beyond_travel :
    predict 15300 14900 none .clamp travel = (15000, .atLimit) ∧ predict 15300 14900 (some 14880) .hold travel = (14880, .held)
      ∧ predict 15300 14900 none .hold travel = (14900, .held)
      ∧ predict 15300 14900 (some 15200) .hold travel = (15000, .held) := by decide

/-- The lock with M 2, N 3, E_in 8, E_out 24: |D| 5, 4, 30, 20. -/
def unlocked : Fe := { Fe.reset true with inCount := 1 }
theorem test_lock_gained : (unlocked.lockStep (some 4)).locked = true ∧ (unlocked.lockStep (some 4)).inCount = 2
    ∧ (unlocked.lockStep (some (-9))).inCount = 0 := by decide
theorem test_lock_held : ((unlocked.lockStep (some 4)).lockStep (some 30)).outCount = 1
    ∧ (((unlocked.lockStep (some 4)).lockStep (some 30)).lockStep (some (-24))).outCount = 0 := by decide
theorem test_lock_lost_on_third : ({ unlocked with locked := true, outCount := 2 }.lockStep none).locked = false := by decide

/-! ## Development (the figures of 06) -/

def recipe : Recipe := { params := { wr := 2048, wg := 1024, wb := 1741, tone := 0, scale := .half }, bl := 256, clip := 16000, tone := toneRamp }
theorem test_quad : developQuad recipe 3000 5000 5003 2200 = ⟨21, 18, 12⟩ := by decide +kernel
theorem test_clipped_quad : developQuad recipe 9000 16200 15800 7000 = ⟨68, 68, 68⟩
    ∧ clippedQuad 16000 9000 16200 15800 7000 = true := by decide +kernel
theorem test_quarter_pixel : quarterPixel ⟨21, 18, 12⟩ ⟨22, 18, 13⟩ ⟨21, 19, 12⟩ ⟨22, 19, 12⟩ = ⟨22, 19, 12⟩ := by decide
theorem test_luminance_bins : luminance ⟨21, 18, 12⟩ / 4 = 4 ∧ luminance ⟨22, 19, 12⟩ / 4 = 4 ∧ luminance ⟨255, 255, 255⟩ = 255 := by
  decide
theorem test_black_subtraction_stops_at_zero : developQuad recipe 100 100 100 100 = ⟨0, 0, 0⟩ := by decide +kernel

/-! ## Cards (the figures of 07) -/

/-- Item 30: E1 whole, the rest split from E2. -/
theorem test_fragments :
    buildFragments 8 [⟨1000000, 100000⟩, ⟨2000000, 200000⟩] 148177
      = some ([⟨1000000, 100000⟩, ⟨2000000, 48177⟩], [⟨2048177, 151823⟩]) := by decide +kernel
theorem test_pool_exhausted : buildFragments 8 [⟨2196354, 3646⟩] 148177 = none := by decide +kernel
/-- Chunk 48 of item 30 in two runs; chunk 72 of 721 blocks. -/
def item30 (k : Nat) : WritingItem :=
  { item := ⟨30, .full⟩, fragments := [⟨1000000, 100000⟩, ⟨2000000, 48177⟩], next := k, written := 0, abort := false }
theorem test_chunk_runs :
    chunkRuns (item30 48) = [⟨1098304, 1696⟩, ⟨2000000, 352⟩] ∧ chunkRuns (item30 72) = [⟨2047456, 721⟩] := by decide +kernel

/-! ## Temperature (the table of 09) -/

def die (st : Thermal) (k : Nat) : Sensor := { reading := none, invalid := false, state := st, hold := k }
theorem test_sensor_rises : (die .normal 0).sample dieThresholds ⟨96, true⟩ = ⟨some 96, false, .warm, 0⟩
    ∧ (die .warm 0).sample dieThresholds ⟨110, true⟩ = ⟨some 110, false, .hot, 0⟩ := by decide
theorem test_sensor_holds : (die .hot 0).sample dieThresholds ⟨106, true⟩ = ⟨some 106, false, .hot, 0⟩
    ∧ (die .hot 8).sample dieThresholds ⟨104, true⟩ = ⟨some 104, false, .hot, 9⟩
    ∧ (die .warm 1).sample dieThresholds ⟨90, true⟩ = ⟨some 90, false, .warm, 0⟩ := by decide
theorem test_sensor_falls : (die .hot 9).sample dieThresholds ⟨98, true⟩ = ⟨some 98, false, .warm, 0⟩ := by decide
theorem test_invalid_reading_is_150 : (die .normal 0).sample stackThresholds ⟨20, false⟩ = ⟨some 150, true, .hot, 0⟩
    ∧ (die .normal 0).sample stackThresholds ⟨-90, true⟩ = ⟨some (-40), false, .normal, 0⟩ := by decide

/-! ## Notice queues (the table of 10) -/

def full (n : Nat) : List Notice := List.replicate n (.itemsReady 1 1)
theorem test_overrun_takes_the_last_place : offerTo 32 (full 31) (.shotReleased 1 true) = full 31 ++ [.overrun 1]
    ∧ offerTo 32 (full 31 ++ [.overrun 1]) (.shotReleased 1 true) = full 31 ++ [.overrun 2]
    ∧ offerTo 32 (full 30) (.shotReleased 1 true) = full 30 ++ [.shotReleased 1 true] := by decide
theorem test_overrun_counts_after_a_fetch : offerTo 32 (full 23 ++ [.overrun 2]) (.shotReleased 1 true) = full 23 ++ [.overrun 3] := by
  decide

/-! ## Small states -/

/-- A request reaches its owner: the same, as a value. -/
def reachesNow (c : Instr) (h : Header) (s : State) : Bool :=
  match c.asRequest with
  | some (r, h') => decide (h' = h) && granted r h.port && c.bodyRight r h
      && (!decide (h.port = .tether) || s.ttc.attached || sessionFree r)
  | none => false

theorem reaches_iff (c : Instr) (h : Header) (s : State) : reachesOwner c h s ↔ reachesNow c h s = true := by
  unfold reachesOwner reachesNow
  rcases c.asRequest with _ | ⟨r, h'⟩
  · simp
  · cases ht : decide (h.port = .tether) <;> cases ha : s.ttc.attached <;> simp_all [and_assoc, and_left_comm]

/-- A CONFIGURED FULL store with a free list. -/
def store (free : List Nat) : State :=
  { State.reset with fsc := { Fsc.reset with configured := true, slabCount := 1024, mode := some .full, freeList := free } }

/-- A STORED shot whose raw has one slab, its number; nothing holds it but what is changed in it. -/
def stored (n : Nat) : Record :=
  { shot := n, frame := n, time := 0, mode := .full, kind := .shot, mark := .none, state := .stored, raw := some [n],
    bl := some 256, clip := 16000, truncated := false, focus := .absent, snapshot := DevelopParams.reset,
    proofState := .none, proof := none, tags := 0, rating := 0, guarded := false, hold := false, reqA := .notRequired,
    reqB := .notRequired, markRaw := .none, markProof := .none, rawPins := 0, proofPins := 0, deleteTag := none }

/-- A done quarter proof of a FULL raw in one slab, all its pixels in bin 0 (R128). -/
def doneProof (slab : Nat) : DoneProof :=
  { params := { DevelopParams.reset with scale := .quarter }, chain := [slab], clipCount := 0,
    histogram := 2709504 :: List.replicate 63 0 }

/-- A store with 60 free slabs and these records. -/
def withShots (rs : List Record) : State :=
  { store (List.range' 100 60) with cat := { Cat.reset with records := rs, nextShot := 50 } }

/-- The same with the session ATTACHED and these send items. -/
def attached (rs : List Record) (q : List SendItem) : State :=
  { withShots rs with ttc := { Ttc.reset with attached := true, silence := some 10000, queue := q, nextSerial := 9 } }

/-- A READY NORMAL raw item of a shot. -/
def ready (serial shot : Nat) : SendItem :=
  { serial := serial, shot := shot, content := .raw, cls := .normal, state := .ready, attempts := 0, origin := none,
    maxClip := 1000, scale := .half, transfer := none, cut := .clear, cancelTag := none }

/-- A SENDING item: its stream at a chunk, or ended. -/
def sending (serial shot next : Nat) (awaiting : Bool) : SendItem :=
  { ready serial shot with
    state := .sending
    transfer := some { awaiting := awaiting, next := next, chunks := 1158, total := 75866624, tag := 5, chain := [shot], header := [] } }

/-- A job of a shot in a state, with progress where the state holds it. -/
def jobOf (n : Nat) (cls : Priority) (st : JobState) (next : Nat) : Job :=
  { number := n, shot := n, mode := .full, params := DevelopParams.reset, cls := cls, origin := .body, state := st, cancel := false,
    progress := if st = .running ∨ st = .suspended then
      some { chain := [200 + n], next := next, clipCount := 0, histogram := List.replicate 64 0 } else none }

/-- Slot A in a state with a pool, items that wait, an item that is written, block requests and an operation. -/
def slotA (st : SlotState) (pool : List Extent) (queue : List CardItem) (w : Option WritingItem) (bs : List BlockRequest)
    (op : Option CardOp) : Crw :=
  { Crw.reset true false with
    slotA := { Slot.reset true with state := st, pool := pool, queue := queue, writing := w, blocks := bs, op := op } }

/-- A chunk operation, its raw bytes read or not. -/
def chunkOp (issued : Bool) : CardOp := { kind := .chunk, issued := issued, timer := 1500, runs := [], payload := [] }

/-- A pending SHOOT. -/
def shootOf (focus : Bool) (timer : Option Nat) : PendingShoot := { tag := 7, focus := focus, reason := .none, timer := timer }

/-- A state with these records and jobs. -/
def developing (rs : List Record) (js : List Job) : State := { withShots rs with dve := { Dve.reset with jobs := js } }

/-- A frame in progress at a line, taken as shot 1 or not taken. -/
def frameAt (mode : Option Mode) (next : Nat) (taken : Bool) : Frame :=
  { number := 300, mode := mode, nextLine := next, obSum := 33030144, bl := none, framingFault := false,
    capture := if taken then some { kind := .shot, shot := 1, chain := List.range 19 } else none }
def inFrame (f : Frame) : State := { store [] with siu := { Siu.reset with frame := some f, frameCounter := 300 } }

/-- A frame with a lens state in flight, its shot's focus record pending. -/
def measuring (w : Watch) (lens : Option Lens) : State :=
  { withShots [{ stored 1 with focus := .pending }, stored 2] with
    fe := { Fe.reset true with
      watch := w
      inFlight := some { frame := 1, truncated := false, packets := List.replicate 48 none, zones := List.replicate 48 Zone.reset,
                         lens := lens, far := 0, near := 16383 } } }

/-- A store with exactly the 19 slabs of a FULL raw, and a SHOOT that waits for them. -/
def pressed (free : Nat) (p : PendingShoot) : State :=
  { store (List.range free) with siu := { Siu.reset with engine := .singlePending, shoot := some p } }

/-- The same with this card writer. -/
def withSlotA (c : Crw) (rs : List Record) : State := { withShots rs with crw := c }

theorem attached_lawful (rs : List Record) (q : List SendItem) (hl : q.length ≤ 64)
    (hk : (q.map fun i => (i.shot, i.content)).Nodup) (hn : (q.map SendItem.serial).Nodup)
    (hs : ∀ i ∈ q, 1 ≤ i.serial ∧ i.serial ≤ 4294967295) (ho : (q.filter fun i => i.state == .sending).length ≤ 1) :
    sendLaw (attached rs q) :=
  ⟨hl, hk, hn, hs, (show 1 ≤ 9 by decide), (show 9 ≤ 4294967295 by decide), ho, nofun, rfl⟩

/-- The law of the develop engine, decided by cases on the class. -/
def developDec (s : State) : Decidable (developLaw s) := by
  have byClass : ∀ p : Priority → Prop, [DecidablePred p] → Decidable (∀ c, p c) := fun p _ =>
    decidable_of_iff (p .urgent ∧ p .normal) ⟨fun ⟨a, b⟩ c => by cases c <;> assumption, fun h => ⟨h _, h _⟩⟩
  unfold developLaw
  infer_instance
theorem develop_lawful (s : State) (h : (developDec s).decide = true) : developLaw s := by
  have := developDec s
  exact of_decide_eq_true (by convert h)

/-- What a step of a command leaves; the state itself if there is no next state. -/
def after (c : Instr) (s : State) : State := match exec c s with | .next t => t | .fault .. => s | .refused .. => s

/-- The result of the last response of the body or tether port. -/
def lastResult (out : List OutMsg) : Option Result :=
  match out.getLast? with | some (.response _ _ r _ _) => some r | _ => none

/-! ## Witnesses: the queue, the gate, the messages -/

theorem witness_StepRunsFrontCommand :
    { State.reset with pending := [.frameStart, .timeBaseTick] }.pending = .frameStart :: [.timeBaseTick]
      ∧ State.reset.pending = [] := by decide

/-- A port that is not named; a body of another length; an operand list above 2048 bytes; the flag; no session; an owner reached
from each port. -/
theorem witness_TheGate :
    ((Instr.shoot (tether 1) 0).asRequest = some (.shoot, tether 1) ∧ Port.tether ∉ Request.shoot.ports)
      ∧ (Port.body ∈ Request.shoot.ports ∧ (Instr.shoot (body 2) 0).bodyRight .shoot (body 2) = false)
      ∧ (Instr.loadTone (body 2049) 0 0 2044 []).bodyRight .loadTone (body 2049) = false
      ∧ (Instr.loadTone (body 2048) 0 0 2043 []).bodyRight .loadTone (body 2048) = true
      ∧ (Instr.blockWrite (body 6) 0 0 1 none).bodyRight .blockWrite (body 6) = false
      ∧ (Port.tether ∈ Request.takeNext.ports ∧ (Instr.takeNext (tether 0)).bodyRight .takeNext (tether 0) = true
          ∧ State.reset.ttc.attached = false ∧ Request.takeNext ≠ .identify ∧ Request.takeNext ≠ .openSession
          ∧ Request.takeNext ≠ .closeSession ∧ Request.takeNext ≠ .fetchNotices)
      ∧ reachesOwner (.shoot (body 1) 0) (body 1) State.reset ∧ reachesOwner (.openSession (tether 0)) (tether 0) State.reset
      ∧ reachesOwner (.unwatch (lens 0)) (lens 0) State.reset := by
  simp only [reaches_iff]; decide

/-- GRANT_EXTENTS, BLOCK_WRITE with its frame and without one, each as the bytes stand on the wire; a frame that has arrived but for
its last byte. -/
theorem witness_MessagesReadBack :
    (WellFormed (.grantExtents (body 10) 0 1 [⟨0, 20000⟩]) = true
        ∧ (Instr.grantExtents (body 10) 0 1 [⟨0, 20000⟩]).asRequest = some (.grantExtents, body 10)
        ∧ (body 10).bodyLen.toNat = (Instr.grantExtents (body 10) 0 1 [⟨0, 20000⟩]).bodyLength
        ∧ Decode.encode (.grantExtents (body 10) 0 1 [⟨0, 20000⟩])
            = some [14, 7, 0, 0, 10, 0, 0, 1, 0, 0, 0, 0, 0x20, 0x4E, 0, 0])
      ∧ (Decode.encode (.blockWrite { body 6 with flags := 1 } 0 1 1 (some ⟨7, 0, [9]⟩))
            = some [2, 7, 0, 1, 6, 0, 0, 1, 0, 0, 0, 1, 0xFF, 7, 0, 0, 0, 0, 0, 0, 1, 0, 0, 0, 9]
          ∧ WellFormed (.blockWrite { body 6 with flags := 1 } 0 1 1 (some ⟨7, 0, [9]⟩)) = true)
      ∧ (Decode.encode (.blockWrite (body 6) 0 1 1 none) = some [2, 7, 0, 0, 6, 0, 0, 1, 0, 0, 0, 1]
          ∧ Decode.byteAt [12, 7] 0 ≠ 0xFF ∧ ({ body 6 with flags := 1 }).flags.getLsbD 0 = true ∧ [12, 7] ≠ [])
      ∧ (({ body 6 with flags := 1 }).bodyLen = 6 ∧ (⟨7, 0, [9]⟩ : DataFrame).tag = ({ body 6 with flags := 1 }).tag
          ∧ Decode.encode (.blockWrite { body 6 with flags := 1 } 0 1 1 none) = some [2, 7, 0, 1, 6, 0, 0, 1, 0, 0, 0, 1]
          ∧ 12 < (Decode.frameBytes ⟨7, 0, [9]⟩).length) := by decide +kernel

theorem witness_IdentifyReturnsIdentity : (lens 0).bodyLen = 0 ∧ (lens 0).flags.getLsbD 0 = false := by decide

/-- A publication of 48 zones. -/
def published : Publication :=
  { summary := { frame := 812, noLens := false, overrun := false, truncated := false, lens := some (5000, false), selection := none,
                 locked := false, validCount := 0, negEdges := 0, posEdges := 0 }
    map := List.replicate 48 { state := .inactive, p := none, q := none } }

theorem witness_reports :
    reachesOwner (.getStatus (body 0)) (body 0) State.reset
      ∧ reachesOwner (.listShots (body 5) 2 255) (body 5) (withShots [stored 1, stored 2]) := by
  simp only [reaches_iff]; decide

/-! ## Witnesses: the store, frames, lines -/

/-- 1023 slabs; a third mode; a record; nothing; and both slab counts. -/
theorem witness_ConfigureStore :
    reachesOwner (.configureStore (body 3) 1023 2) (body 3) State.reset
      ∧ ((1023 : Half) ≠ 1024 ∧ (1023 : Half) ≠ 2048 ∧ 1 < (2 : Byte).toNat)
      ∧ ((withShots [stored 1]).cat.records ≠ [] ∧ ((1024 : Half) = 1024 ∨ (1024 : Half) = 2048) ∧ (1 : Byte).toNat ≤ 1)
      ∧ (State.reset.cat.records = [] ∧ State.reset.dve.jobs = [] ∧ State.reset.siu.pre.armed = false
          ∧ State.reset.fsc.releasing = [] ∧ ((2048 : Half) = 1024 ∨ (2048 : Half) = 2048)) := by
  simp only [reaches_iff]; decide

/-- A released chain with its last access in progress. -/
def releasing : State :=
  { store [1] with fsc := { (store [1]).fsc with releasing := [[5]], accesses := [{ user := .tether, chain := [5] }] } }

theorem witness_LastAccessReturnsChain :
    [6] ∉ releasing.fsc.releasing ∧ releasing.fsc.releasing = [[5]]
      ∧ State.chainInUse { releasing with fsc := { releasing.fsc with accesses := [] } } [5] = false
      ∧ releasing.currentJob = none
      ∧ (let s := { releasing with dve := { Dve.reset with jobs := [jobOf 1 .normal .waitSlabs 0] }
                                   fsc := { releasing.fsc with reserve := 0, freeList := [1, 2, 3, 4, 6, 7, 8] } }
         s.currentJob = some (jobOf 1 .normal .waitSlabs 0) ∧ s.fsc.configured = true
          ∧ s.fsc.reserve + (jobOf 1 .normal .waitSlabs 0).mode.proofSlabs (jobOf 1 .normal .waitSlabs 0).params.scale
            ≤ s.fsc.freeList.length + [5].length) := by decide

/-- The operands of the start-up, and one of them out of its values. -/
def startParams : ParamsOps :=
  { reserve := 38, contentA := 0, contentB := 1, modeB := 0, yielding := 1, detach := 0, silence := 10, threshold := 8,
    stall := 1500, shotWait := 1000, clip := 16000 }

theorem witness_ReportsAndParameters :
    (reachesOwner (.getZoneMap (body 0)) (body 0) State.reset ∧ State.reset.fe.latest = none)
      ∧ (let s := { State.reset with fe := { State.reset.fe with latest := some published } }
         reachesOwner (.getZoneMap (body 0)) (body 0) s ∧ s.fe.latest = some published)
      ∧ (let s := withShots [stored 1]
         reachesOwner (.shotInfo (body 4) 3) (body 4) s ∧ s.record (3 : Word).toNat = none
          ∧ reachesOwner (.shotInfo (body 4) 1) (body 4) s ∧ s.record (1 : Word).toNat = some (stored 1))
      ∧ reachesOwner (.setParams (body 16) startParams) (body 16) State.reset
      ∧ (startParams.contentA.toNat ≤ 1 ∧ startParams.contentB.toNat ≤ 1 ∧ startParams.modeB.toNat ≤ 1
          ∧ startParams.yielding.toNat ≤ 1 ∧ startParams.detach.toNat ≤ 1)
      ∧ 1 < ({ startParams with modeB := 2 } : ParamsOps).modeB.toNat
      ∧ State.reset.fsc.reserve ≤ min 512 startParams.reserve.toNat
      ∧ (let s := { State.reset with ttc := { Ttc.reset with errors := 8 } }
         s.ttc.armed = true ∧ max 1 (min 31 startParams.threshold.toNat) ≤ min s.ttc.errors (max 1 (min 31 startParams.threshold.toNat)))
      ∧ (let j := jobOf 1 .urgent .waitSlabs 0
         let s := { developing [stored 1] [j] with fsc := { (withShots []).fsc with reserve := 60 } }
         s.currentJob = some j ∧ j.state = .waitSlabs ∧ min 512 startParams.reserve.toNat < s.fsc.reserve ∧ s.fsc.configured = true
          ∧ min 512 startParams.reserve.toNat + j.mode.proofSlabs j.params.scale ≤ s.fsc.freeList.length
          ∧ s.fsc.freeList.length < min 512 ({ startParams with reserve := 55 } : ParamsOps).reserve.toNat
              + j.mode.proofSlabs j.params.scale) := by
  simp only [reaches_iff]; decide

theorem witness_FrameStart : State.reset.siu.frame = none ∧ State.reset.fsc.mode = none
    ∧ ((store []).siu.engine = .idle ∧ (store []).siu.pre.armed = false)
    ∧ ((pressed 0 (shootOf true none)).siu.shoot = some (shootOf true none) ∧ (shootOf true none).focus = true
        ∧ (pressed 0 (shootOf true none)).fe.locked = false)
    ∧ ((inFrame (frameAt none 0 false)).siu.frame = some (frameAt none 0 false) ∧ (frameAt none 0 false).mode = none)
    ∧ ((inFrame (frameAt (some .full) 5391 true)).siu.frame = some (frameAt (some .full) 5391 true)
        ∧ (frameAt (some .full) 5391 true).nextLine < Mode.full.lines ∧ (frameAt (some .full) 5391 true).capture.isSome = true)
    ∧ ¬ (frameAt (some .full) 5392 false).nextLine < Mode.full.lines
    ∧ ((inFrame (frameAt none 0 false)).fe.inFlight = none ∧ (measuring .none none).fe.inFlight.isSome = true) := by decide

theorem witness_ShootTaken :
    let s := pressed 19 (shootOf false none)
    s.siu.frame = none ∧ s.fsc.mode = some .full ∧ s.fsc.configured = true ∧ s.siu.engine = .singlePending
      ∧ s.siu.shoot = some (shootOf false none) ∧ (shootOf false none).focus = false ∧ s.cat.records.length < 256
      ∧ s.cat.nextShot < 4294967296 ∧ Mode.full.rawSlabs ≤ s.fsc.freeList.length := by decide

/-- A shot with a done proof and one send item on its raw, a SHOOT that waits, and this many free slabs. -/
def yielder : Record := { stored 1 with rawPins := 1, markRaw := .queued, proofState := .done, proof := some (doneProof 40) }
def yielding (free : Nat) : State :=
  { attached [yielder] [ready 1 1] with
    fsc := { (withShots []).fsc with freeList := List.range' 100 free }
    siu := (pressed 0 (shootOf false none)).siu }

theorem witness_ShootBlocked :
    (let s := pressed 19 (shootOf true (some 500))
     s.siu.shoot = some (shootOf true (some 500)) ∧ (shootOf true (some 500)).focus = true ∧ s.fe.locked = false
      ∧ (shootOf true (some 500)).timer.isSome = true ∧ (shootOf true none).timer = none)
      ∧ (let s := pressed 18 (shootOf false none)
         (shootOf false none).focus = false ∧ s.fsc.freeList.length < Mode.full.rawSlabs
          ∧ (∀ i ∈ s.ttc.queue, i.state ≠ .ready ∨ i.cls ≠ .normal ∨ i.content ≠ .raw))
      ∧ (relieve 19 (yielding 17).ttc.queue.length (yielding 17).withNewFrame).fsc.freeList.length = 18
      ∧ (let s := yielding 18
         s.siu.frame = none ∧ s.fsc.mode = some .full ∧ s.siu.engine = .singlePending ∧ s.siu.shoot = some (shootOf false none)
          ∧ s.fsc.configured = true ∧ s.fsc.freeList.length < Mode.full.rawSlabs ∧ s.cat.pressureYield = true
          ∧ s.ttc.queue = [] ++ ready 1 1 :: [] ∧ s.record 1 = some yielder ∧ yielder.raw = some [1] ∧ yielder.reqA.settled = true
          ∧ yielder.reqB.settled = true ∧ s.job 1 = none ∧ s.itemFor 1 .proof = none ∧ s.chainInUse [1] = false
          ∧ s.currentJob = none ∧ Mode.full.rawSlabs ≤ s.fsc.freeList.length + [1].length)
      ∧ ((attached [yielder] [ready 1 1, { ready 2 1 with content := .proof }]).itemFor 1 .proof).isSome = true
      ∧ ({ yielder with proofState := .pending }).proofState = .pending
      ∧ (let s := { attached [stored 1] [ready 1 1] with dve := { Dve.reset with jobs := [jobOf 2 .normal .running 3] } }
         s.record 1 = some (stored 1) ∧ (stored 1).proofState = .none ∧ (stored 1).state = .stored ∧ (stored 1).raw.isSome = true
          ∧ s.job 1 = none ∧ s.itemFor 1 .proof = none ∧ s.dve.jobs.length < 32 ∧ s.currentJob.isSome = true)
      ∧ 32 ≤ ((List.range 32).map fun k => jobOf (k + 2) .normal .queued 0).length := by decide +kernel

/-- A burst whose first frame is past, with a count. -/
def bursting (free frames : Nat) (focus : Bool) : State :=
  { store (List.range free) with
    siu := { Siu.reset with engine := .burst, burst := { Burst.reset with divisor := 2, maximum := 3, focus := focus, frames := frames } } }

theorem witness_BurstFrame :
    (let s := bursting 19 0 false
     s.siu.frame = none ∧ s.fsc.mode = some .full ∧ s.fsc.configured = true ∧ s.siu.engine = .burst
      ∧ (s.siu.burst.frames + 1) % 4294967296 % s.siu.burst.divisor ≠ 0)
      ∧ (let s := bursting 19 1 false
         (s.siu.burst.frames + 1) % 4294967296 % s.siu.burst.divisor = 0 ∧ s.siu.burst.focus = false
          ∧ s.cat.records.length < 256 ∧ s.cat.nextShot < 4294967296 ∧ Mode.full.rawSlabs ≤ s.fsc.freeList.length)
      ∧ ((bursting 19 1 true).siu.burst.focus = true ∧ (bursting 19 1 true).fe.locked = false)
      ∧ (let s := { bursting 18 1 false with cat := { Cat.reset with pressureYield := false } }
         s.fsc.freeList.length < Mode.full.rawSlabs ∧ s.cat.pressureYield = false) := by decide

/-- Pre-capture ARMED with depth 2. -/
def armed (free frames : Nat) : State :=
  { store (List.range free) with siu := { Siu.reset with pre := { armed := true, depth := 2, divisor := 2, frames := frames, fresh := false } } }

theorem witness_PrecaptureFrame :
    (let s := armed 19 0
     s.siu.frame = none ∧ s.fsc.mode = some .full ∧ s.fsc.configured = true ∧ s.siu.engine = .idle ∧ s.siu.pre.armed = true
      ∧ (s.siu.pre.frames + 1) % 4294967296 % s.siu.pre.divisor ≠ 0)
      ∧ (let s := armed 19 1
         (s.siu.pre.frames + 1) % 4294967296 % s.siu.pre.divisor = 0 ∧ s.ring.length < s.siu.pre.depth
          ∧ s.cat.records.length < 256 ∧ s.cat.nextShot < 4294967296 ∧ Mode.full.rawSlabs ≤ s.fsc.freeList.length)
      ∧ (armed 18 1).fsc.freeList.length < Mode.full.rawSlabs := by decide

/-- A PRE record of the ring, PROVISIONAL or EXPOSING; pre-capture ARMED with depth 2 and a full ring of one of each. -/
def member (n : Nat) (st : RecordState) : Record := { stored n with kind := .pre, state := st }
def fullRing (free frames : Nat) : State :=
  { armed free frames with
    cat := { Cat.reset with records := [member 1 .provisional, member 2 .exposing], nextShot := 3 }
    crw := { Crw.reset false false with contentA := true } }

/-- The oldest member's one slab makes 19 of 18, and 18 of 17. -/
theorem witness_PrecaptureFrame_full_ring :
    (let s := fullRing 18 1
     s.siu.frame = none ∧ s.fsc.mode = some .full ∧ s.fsc.configured = true ∧ s.siu.engine = .idle ∧ s.siu.pre.armed = true
      ∧ (s.siu.pre.frames + 1) % 4294967296 % s.siu.pre.divisor = 0 ∧ 0 < s.siu.pre.depth ∧ s.ring = 1 :: [2]
      ∧ s.siu.pre.depth ≤ [2].length + 1 ∧ (s.cat.records.map Record.shot).Nodup ∧ s.job 1 = none ∧ s.currentJob = none
      ∧ (s.withDiscarded [1]).cat.records.length < 256 ∧ (s.withDiscarded [1]).cat.nextShot < 4294967296
      ∧ Mode.full.rawSlabs ≤ (s.withDiscarded [1]).fsc.freeList.length)
      ∧ ((fullRing 17 1).ring = 1 :: [2] ∧ ((fullRing 17 1).withDiscarded [1]).fsc.freeList.length < Mode.full.rawSlabs) := by
  decide

theorem witness_LinePlacement :
    State.reset.siu.frame = none ∧ (inFrame (frameAt none 0 false)).siu.frame = some (frameAt none 0 false)
      ∧ (frameAt none 0 false).mode = none
      ∧ ((frameAt (some .full) 15 true).mode = some .full ∧ 15 = (frameAt (some .full) 15 true).nextLine ∧ 15 < 16)
      ∧ (16 = (frameAt (some .full) 16 true).nextLine ∧ 16 < Mode.full.lines)
      ∧ (5391 = (frameAt (some .full) 5391 true).nextLine ∧ 5391 < Mode.full.lines)
      ∧ 15 < (frameAt (some .full) 16 true).nextLine
      ∧ ((frameAt (some .full) 14 true).nextLine < 15 ∧ (frameAt (some .full) 14 true).nextLine < 5391)
      ∧ ((frameAt (some .full) 5392 true).nextLine ≤ 5392 ∧ Mode.full.lines ≤ 5392) := by decide

theorem witness_LineMemory :
    let f := frameAt (some .full) 16 true
    (inFrame f).siu.frame = some f ∧ f.mode = some .full ∧ f.capture = some ⟨.shot, 1, List.range 19⟩ ∧ 16 = f.nextLine
      ∧ (List.replicate 8064 (0 : Sample)).length = Mode.full.width ∧ (List.range 19).length = Mode.full.rawSlabs
      ∧ (List.range 19).Nodup ∧ chainAddr (List.range 19) 0 = some 0 := by
  refine ⟨by decide, by decide, by decide, by decide, ?_, by decide, by decide, by decide⟩
  exact List.length_replicate

theorem witness_FrameEnd :
    State.reset.siu.frame = none
      ∧ (let s := inFrame (frameAt (some .full) 5392 true)
         s.siu.frame = some (frameAt (some .full) 5392 true) ∧ Mode.full.lines ≤ 5392 ∧ s.fe.inFlight = none)
      ∧ ((frameAt (some .full) 4016 true).nextLine < Mode.full.lines
          ∧ (frameAt (some .full) 4016 true).capture = some ⟨.shot, 1, List.range 19⟩
          ∧ (frameAt (some .full) 4016 false).capture = none)
      ∧ (let s := inFrame (frameAt none 0 false)
         s.siu.frame = some (frameAt none 0 false) ∧ (frameAt none 0 false).mode = none ∧ s.fe.inFlight = none)
      ∧ (let s := { measuring .none none with siu := (inFrame (frameAt (some .full) 5392 true)).siu }
         s.siu.frame = some (frameAt (some .full) 5392 true) ∧ s.fe.inFlight.isSome = true)
      ∧ (let s := { measuring .none none with siu := (inFrame (frameAt none 0 false)).siu }
         s.siu.frame = some (frameAt none 0 false) ∧ s.fe.inFlight.isSome = true) := by decide

theorem witness_AfPacketKept :
    (List.replicate 64 (0 : ProfileSample)).length = 64 ∧ (List.replicate 63 (0 : ProfileSample)).length ≠ 64 ∧ (inFrame (frameAt (some .full) 0 false)).siu.frame.isSome = true
      ∧ 47 < 48 ∧ State.reset.siu.frame = none ∧ 48 ≤ 48 := by decide



/-- A taken frame that has ended, and its record. -/
def endedShot (kind : CaptureKind) (contentA : Bool) : State :=
  { withShots [{ stored 1 with state := .exposing, kind := kind }] with
    siu := { Siu.reset with ended := [{ capture := { kind := kind, shot := 1, chain := [1] }, bl := 256, truncated := true }] }
    crw := { Crw.reset false false with contentA := contentA } }

theorem witness_RawCompletion :
    State.reset.siu.ended = []
      ∧ (let s := endedShot .pre false
         s.siu.ended = { capture := { kind := .pre, shot := 1, chain := [1] }, bl := 256, truncated := true } :: []
          ∧ s.record 1 = some { stored 1 with state := .exposing, kind := .pre } ∧ s.fsc.releasing = [])
      ∧ (let s := endedShot .shot true
         s.record 1 = some { stored 1 with state := .exposing, kind := .shot } ∧ s.crw.contentA = true ∧ s.crw.contentB = false
          ∧ s.crw.slotA.state ≠ .idle ∧ s.dve.auto = false ∧ s.ttc.attached = false) := by decide

/-- A PRE frame marked DISCARD whose raw is at rest, and one whose raw an access holds; a PRE frame marked PROMOTE and a SHOT with
auto-develop on, with a job at work and with a full list. -/
theorem witness_RawCompletion_marked :
    (let r := { stored 1 with state := .exposing, kind := .pre, mark := .discard }
     let s := { endedShot .pre false with cat := { Cat.reset with records := [r] } }
     let u := { s with fsc := { s.fsc with accesses := [{ user := .readStream, chain := [1] }] } }
     let left := fun (x : State) => { x with siu := { x.siu with ended := [] } }
     s.record 1 = some r ∧ r.mark = .discard ∧ s.fsc.releasing = [] ∧ s.job 1 = none ∧ s.currentJob = none ∧ r.raw = some [1]
      ∧ (left s).chainInUse [1] = false ∧ u.fsc.releasing = [] ∧ (left u).chainInUse [1] = true)
      ∧ ({ stored 1 with state := .exposing, kind := .pre, mark := .promote }).mark = .promote
      ∧ (let s := { endedShot .shot true with dve := { Dve.reset with auto := true, jobs := [jobOf 2 .normal .running 0] } }
         s.siu.ended.length = 1 ∧ s.record 1 = some { stored 1 with state := .exposing } ∧ s.crw.contentA = true
          ∧ s.crw.contentB = false ∧ s.crw.slotA.state ≠ .idle ∧ s.ttc.attached = false ∧ s.dve.auto = true ∧ s.job 1 = none
          ∧ s.itemFor 1 .proof = none ∧ s.dve.jobs.length < 32 ∧ s.currentJob.isSome = true)
      ∧ (let s := { endedShot .shot true with
                    dve := { Dve.reset with auto := true, jobs := (List.range 32).map fun k => jobOf (k + 2) .normal .queued 0 } }
         s.job 1 = none ∧ 32 ≤ s.dve.jobs.length) := by decide

/-! ## Witnesses: the capture engine -/

theorem witness_ShootAndItsTimer :
    reachesOwner (.shoot (body 1) 2) (body 1) State.reset ∧ 1 < (2 : Byte).toNat ∧ (1 : Byte).toNat ≤ 1
      ∧ State.reset.fsc.configured = false ∧ (bursting 0 0 false).fsc.configured = true ∧ (bursting 0 0 false).siu.engine ≠ .idle
      ∧ (let s := { armed 0 0 with cat := { Cat.reset with records := [{ stored 1 with kind := .pre, state := .exposing }] } }
         s.fsc.configured = true ∧ s.siu.engine = .idle ∧ (s.cat.records.map Record.shot).Nodup
          ∧ (∀ r ∈ s.cat.records, r.inRing = true → r.state = .exposing)
          ∧ s.cat.records.any Record.inRing = true)
      ∧ ((pressed 0 (shootOf true (some 0))).siu.shoot = some (shootOf true (some 0)) ∧ (shootOf true (some 0)).timer = some 0)
      ∧ ((shootOf true (some 1)).timer ≠ some 0 ∧ (shootOf true none).timer ≠ some 0) ∧ State.reset.siu.shoot = none := by
  simp only [reaches_iff]; decide

/-- An armed ring of a PROVISIONAL and an EXPOSING member, before a SHOOT or a BURST_BEGIN. -/
theorem witness_promotion :
    (let s := fullRing 19 0
     s.fsc.configured = true ∧ s.siu.engine = .idle ∧ s.siu.thermal ≠ .hot ∧ s.siu.pre.armed = true
      ∧ (s.cat.records.map Record.shot).Nodup ∧ s.onlySlotAWaits
      ∧ (∀ r ∈ s.cat.records, r.inRing = true → r.state = .provisional → r.raw.isSome = true ∧ r.proof = none)
      ∧ ∃ r ∈ s.cat.records, r.inRing = true ∧ r.state = .provisional)
      ∧ reachesOwner (.shoot (body 1) 0) (body 1) (fullRing 19 0)
      ∧ reachesOwner (.burstBegin (body 4) 2 3 0) (body 4) (fullRing 19 0) := by
  simp only [reaches_iff, State.onlySlotAWaits]; decide

theorem witness_Bursts :
    reachesOwner (.burstBegin (body 4) 2 3 0) (body 4) State.reset ∧ State.reset.fsc.configured = false
      ∧ (bursting 0 0 false).siu.engine ≠ .idle
      ∧ (let s := { store [] with siu := { Siu.reset with thermal := .hot } }
         s.fsc.configured = true ∧ s.siu.engine = .idle ∧ s.siu.thermal = .hot)
      ∧ ((store []).siu.engine = .idle ∧ (store []).siu.thermal ≠ .hot ∧ (store []).siu.pre.armed = false)
      ∧ reachesOwner (.burstEnd (body 0)) (body 0) State.reset := by
  simp only [reaches_iff]; decide

theorem witness_Precapture :
    reachesOwner (.precapture (body 3) 2 2 1) (body 3) State.reset ∧ 1 < (2 : Byte).toNat
      ∧ State.reset.fsc.configured = false
      ∧ (let s := { store [] with siu := { Siu.reset with thermal := .warm } }
         s.fsc.configured = true ∧ s.siu.thermal ≠ .normal)
      ∧ ((store []).siu.thermal = .normal ∧ (store []).ring.length ≤ min 24 (2 : Byte).toNat)
      ∧ (let s := { armed 0 0 with cat := { Cat.reset with records := [{ stored 1 with kind := .pre, state := .exposing }] } }
         (s.cat.records.map Record.shot).Nodup ∧ ∀ r ∈ s.cat.records, r.inRing = true → r.state = .exposing)
      ∧ (let s := fullRing 19 0
         s.fsc.configured = true ∧ s.siu.thermal = .normal ∧ (s.cat.records.map Record.shot).Nodup ∧ (∀ n ∈ s.ring, s.job n = none)
          ∧ s.currentJob = none ∧ min 24 (1 : Byte).toNat < s.ring.length) := by
  simp only [reaches_iff]; decide

/-! ## Witnesses: focus and the lens port -/

/-- The reset parameters as SET_FOCUS sends them. -/
def resetFocus : FocusOps :=
  { priority := 0, far := 0, near := 16383, eIn := 8, eOut := 24, m := 2, n := 3, lead := 0, policy := 0, trackLoss := 5 }

theorem witness_FocusSettings :
    reachesOwner (.setZones (body 336) [⟨2, 0, 0⟩]) (body 336) State.reset ∧ (∃ z ∈ [(⟨2, 0, 0⟩ : ZoneOps)], 1 < z.active.toNat)
      ∧ (List.replicate 48 (⟨1, 2000, 64⟩ : ZoneOps)).length = 48
      ∧ (∀ z ∈ List.replicate 48 (⟨1, 2000, 64⟩ : ZoneOps), z.active.toNat ≤ 1)
      ∧ reachesOwner (.setFocus (body 14) resetFocus) (body 14) State.reset
      ∧ 3 < ({ resetFocus with priority := 4 } : FocusOps).priority.toNat
      ∧ 1 < ({ resetFocus with policy := 2 } : FocusOps).policy.toNat
      ∧ readFocusMode resetFocus.priority = some .near ∧ readTravelPolicy resetFocus.policy = some .clamp := by
  simp only [reaches_iff]; decide

/-- Two flat profiles: every shift has the same SAD, so the tie goes to the shift of least absolute value (R80). -/
def flatPacket : AfPacket := { left := List.replicate 64 7, right := List.replicate 64 7 }

theorem witness_MinimumShift :
    (-12 : Int) ≤ -12 ∧ (-12 : Int) ≤ 12 ∧ sad flatPacket (-12) = sad flatPacket (bestShift flatPacket)
      ∧ sad flatPacket 0 = sad flatPacket (bestShift flatPacket) ∧ (bestShift flatPacket).natAbs = (0 : Int).natAbs := by
  decide +kernel

/-- A right profile that is the left one twelve samples on: the minimum stands at the edge. -/
def edgePacket : AfPacket :=
  { left := (List.range 64).map fun i => BitVec.ofNat 12 (i * i), right := (List.range 64).map fun i => BitVec.ofNat 12 ((i - 12) * (i - 12)) }
/-- An active zone with these floors. -/
def zoneOf (c q : Nat) : Zone := { active := true, contrastFloor := c, confidenceFloor := q }

theorem witness_ZoneFigures :
    (640 ≤ 640 ∧ 640 + 640 = 2 * 640) ∧ (2000 ≤ 5200 ∧ 2000 ≤ 3600 ∧ 2 * 2000 < 5200 + 3600)
      ∧ Zone.reset.active = false ∧ (zoneOf 0 0).active = true
      ∧ contrast flatPacket < (zoneOf 2000 64).contrastFloor
      ∧ ((zoneOf 2000 64).contrastFloor ≤ contrast edgePacket ∧ bestShift edgePacket = 12)
      ∧ ((zoneOf 0 64).contrastFloor ≤ contrast flatPacket ∧ bestShift flatPacket ≠ -12 ∧ bestShift flatPacket ≠ 12
          ∧ confidence (sad flatPacket (-1)) (sad flatPacket 0) (sad flatPacket 1) < (zoneOf 0 64).confidenceFloor
          ∧ (zoneOf 0 0).confidenceFloor ≤ 0) := by decide +kernel

theorem witness_FocusResultReady :
    State.reset.fe.inFlight = none ∧ (measuring .snapshot (some travel)).fe.inFlight.isSome = true
      ∧ (measuring .none none).fe.watch = .none ∧ (measuring .snapshot (some travel)).fe.watch ≠ .none
      ∧ (measuring .none none).fe.inFlight.bind Latched.lens = none
      ∧ (measuring .none none).cat.records.find? (fun x => x.frame == 1 && x.focus == .pending && x.mark != .discard)
          = some { stored 1 with focus := .pending }
      ∧ ({ stored 1 with focus := .pending, mark := .discard }).mark = .discard
      ∧ (∀ r ∈ (withShots [stored 1]).cat.records, r.frame = 1 → r.focus ≠ .pending) := by decide
theorem witness_FocusResultReady_law : noticeLaw (measuring .snapshot (some travel)) := by
  have e : (measuring .snapshot (some travel)).ptc = Ptc.reset := rfl
  simp [noticeLaw, e, queueLaw, Ptc.reset]

/-- Two VALID zones as the frame's result has them, behind 27 others. -/
def validZone (c : Candidate) : ZoneResult :=
  { state := .valid, c := some c.c, p := some c.p, q := some c.q, d := some c.d, t := some c.t, dClamped := c.dClamped }
def frameOf (zs : List ZoneResult) (lens : Option Lens) : FrameResult :=
  { frame := 715, lens := lens, overrun := false, truncated := false, zones := zs }

theorem witness_FollowingTheSubject :
    candidates 27 [validZone zone27, validZone zone28] = [zone27, zone28] ∧ candidates 0 [] = []
      ∧ selectZone .near none [zone27, zone28] = some zone27
      ∧ [zone27, zone28].Pairwise (fun a b => a.zone < b.zone) ∧ travel.travelMin ≤ travel.travelMax
      ∧ selectZone .near none (candidates 0 [validZone { zone27 with zone := 0 }]) = some { zone27 with zone := 0 }
      ∧ ((frameOf [] none).lens = none ∧ (frameOf [validZone zone27] (some travel)).lens = some travel ∧ unlocked.noSelection ≤ 15)
      ∧ ([⟨4960, 710⟩] : List Track).length < 2 ∧ (4294967295 < 4294967296 ∧ 3 < 4294967296 ∧ 4294967295 ≠ 3)
      ∧ ((travel.travelMin : Int) ≤ 200 ∧ (15000 : Int) ≤ travel.travelMax) ∧ (199 : Int) < travel.travelMin
      ∧ (travel.travelMax : Int) < 15001 ∧ (200 : Int) ≤ travel.travelMin
      ∧ (unlocked.locked = false ∧ (-8 : Int).natAbs ≤ unlocked.params.eIn ∧ 1 ≤ unlocked.params.m ∧ unlocked.params.eIn < (9 : Int).natAbs)
      ∧ ({ unlocked with locked := true }.locked = true ∧ 1 ≤ unlocked.params.n ∧ (24 : Int).natAbs ≤ unlocked.params.eOut
          ∧ unlocked.params.eOut < (25 : Int).natAbs) := by decide

/-- A lens state with Kc 0 and a reversed travel. -/
def reversed : LensOps := { position := 20000, kc := 0, travelMin := 15000, travelMax := 200, moving := 1 }
def withLens : State := { State.reset with fe := { Fe.reset true with lens := some travel, watch := .continuous } }

theorem witness_LensPort :
    reachesOwner (.lensState (lens 9) reversed) (lens 9) State.reset ∧ 1 < ({ reversed with moving := 2 } : LensOps).moving.toNat
      ∧ reversed.moving.toNat ≤ 1 ∧ State.reset.fe.lensPresent = false ∧ withLens.fe.lensPresent = true
      ∧ reachesOwner (.watch (lens 1) 2) (lens 1) State.reset ∧ 1 < (2 : Byte).toNat ∧ (1 : Byte).toNat ≤ 1
      ∧ reachesOwner (.unwatch (lens 0)) (lens 0) State.reset := by
  simp only [reaches_iff]; decide

/-! ## Witnesses: the catalog -/

theorem witness_RecordRequests :
    reachesOwner (.setTags (body 9) 1 1 0 255) (body 9) (withShots [stored 1]) ∧ (withShots [stored 1]).record 2 = none
      ∧ (withShots [{ stored 1 with state := .deleting }]).record 1 = some { stored 1 with state := .deleting }
      ∧ ((withShots [stored 1]).record 1 = some (stored 1) ∧ (stored 1).state ≠ .deleting ∧ (withShots [stored 1]).ttc.attached = false)
      ∧ reachesOwner (.protect (body 5) 1 2) (body 5) (withShots [stored 1]) ∧ 1 < (2 : Byte).toNat ∧ (1 : Byte).toNat ≤ 1
      ∧ reachesOwner (.hold (body 4) 1) (body 4) (withShots [stored 1])
      ∧ reachesOwner (.unhold (body 4) 1) (body 4) (withShots [stored 1]) ∧ (stored 1).hold = false
      ∧ (let r := { stored 1 with hold := true, rawPins := 1, proofPins := 1, reqA := .queued }
         (withShots [r]).record 1 = some r ∧ r.hold = true ∧ (withShots [r]).ptc.read = none ∧ r.state = .stored
          ∧ r.raw.isSome = true ∧ r.reqA = .queued) := by
  simp only [reaches_iff]; decide

/-- A held shot with a done proof. -/
def held : Record := { stored 1 with hold := true, rawPins := 1, proofPins := 1, proofState := .done, proof := some (doneProof 40) }
/-- A READ_RAW stream at a frame. -/
def streamAt (next : Nat) : ReadStream :=
  { tag := 7, shot := 1, content := .raw, chain := [1], total := 75866112, frames := 1158, next := next, cut := false }

/-- A shot that a tether stream, a card chunk, a READ stream and its hold are at work on. -/
def busyShot : Record := { stored 1 with hold := true, rawPins := 2, proofPins := 1, reqA := .writing }
def busy : State :=
  { attached [busyShot] [sending 1 1 3 false] with
    crw := slotA .writing [] [] (some { item := ⟨1, .full⟩, fragments := [⟨0, 148177⟩], next := 30, written := 61440, abort := false }) []
      (some (chunkOp true))
    dve := { Dve.reset with jobs := [jobOf 1 .normal .running 3] } }
/-- A deleted shot of which the record alone is left. -/
def bare : Record := { stored 1 with state := .deleting, deleteTag := some 9, raw := none }

theorem witness_Delete :
    reachesOwner (.delete (body 4) 1) (body 4) (withShots [stored 1]) ∧ (withShots [stored 1]).record 2 = none
      ∧ ({ stored 1 with state := .deleting }).state = .deleting ∧ ({ stored 1 with state := .exposing }).state = .exposing
      ∧ ({ stored 1 with guarded := true }).guarded = true
      ∧ (let r := { stored 1 with state := .provisional, kind := .pre }
         (withShots [r]).record 1 = some r ∧ r.guarded = false ∧ (withShots [r]).job 1 = none ∧ r.raw = some [1]
          ∧ (withShots [r]).chainInUse [1] = false ∧ (withShots [r]).currentJob = none)
      ∧ (let s := { withShots [{ stored 1 with state := .provisional }] with
                    fsc := { (withShots []).fsc with accesses := [{ user := .readStream, chain := [1] }] } }
         s.chainInUse [1] = true)
      ∧ (let s := withShots [stored 1]
         s.record 1 = some (stored 1) ∧ (stored 1).guarded = false ∧ (stored 1).hold = false ∧ (stored 1).rawPins = 0
          ∧ (stored 1).proof = none ∧ (stored 1).reqA.settled = true ∧ (stored 1).reqB.settled = true ∧ s.job 1 = none
          ∧ (∀ i ∈ s.ttc.queue, i.shot ≠ 1) ∧ s.crw.slotA.writing = none ∧ s.crw.slotB.writing = none ∧ s.ptc.read = none
          ∧ s.currentJob = none ∧ (stored 1).raw = some [1] ∧ s.chainInUse [1] = false) := by
  simp only [reaches_iff]; decide

/-- The same for what DELETE leaves in flight. -/
theorem witness_Delete_in_flight :
    (let r := { stored 1 with reqA := .queued, rawPins := 1, proofPins := 1 }
         let s := { attached [r] [ready 1 1, { ready 2 1 with content := .proof, state := .waitingProof }] with
                    crw := slotA .waitExtents [] [⟨1, .full⟩] none [] none }
         s.record 1 = some r ∧ r.state = .stored ∧ r.guarded = false ∧ r.req .a = .queued ∧ r.req .b ≠ .queued ∧ r.raw.isSome = true
          ∧ (s.slot .b).queue = [])
      ∧ (busy.record 1 = some busyShot ∧ busyShot.state = .stored ∧ busyShot.guarded = false ∧ (busy.ttc.queue.map SendItem.serial).Nodup
          ∧ (∀ i ∈ busy.ttc.queue, i.state = .sending ∧ i.transfer.map Transfer.awaiting = some false)
          ∧ busyShot.req .a = .writing ∧ busyShot.req .b = .notRequired ∧ (busy.slot .a).chunkInFlight = true ∧ (busy.slot .b).writing = none
          ∧ busy.job 1 = some (jobOf 1 .normal .running 3) ∧ busyShot.raw.isSome = true ∧ busyShot.proof = none
          ∧ busyShot.rawPins - 1 ≠ 0)
      ∧ (let r := { stored 1 with hold := true, rawPins := 1, proofPins := 1 }
         let s := { withShots [r] with ptc := { Ptc.reset with read := some { streamAt 0 with cut := false } }
                                       fsc := { (withShots []).fsc with accesses := [{ user := .readStream, chain := [1] }] } }
         s.record 1 = some r ∧ r.rawPins - 1 = 0 ∧ s.job 1 = none ∧ r.raw = some [1] ∧ r.proof = none ∧ (streamAt 0).shot = 1
          ∧ s.chainInUse [1] = true)
      ∧ (let w := { item := ⟨1, .full⟩, fragments := [⟨0, 148177⟩], next := 30, written := 61440, abort := true : WritingItem }
         let s := withSlotA (slotA .writing [] [] (some w) [] (some (chunkOp true))) []
         (s.slot .a).op = some (chunkOp true) ∧ (s.slot .a).state = .writing ∧ (s.slot .a).writing = some w ∧ w.abort = true
          ∧ (s.slot .a).blocks = [] ∧ (s.slot .a).queue = [] ∧ (s.slot .a).fullPending = false
          ∧ ((s.updSlot .a fun x => { x with fullPending := true }).slot .a).fullPending = true)
      ∧ ((withShots [bare]).record 1 = some bare ∧ bare.proof = none ∧ (withShots [bare]).job 1 = none
          ∧ ((withShots [bare]).slot .a).writing = none ∧ ((withShots [bare]).slot .b).writing = none ∧ (withShots [bare]).ttc.queue = []
          ∧ (withShots [bare]).ptc.read = none ∧ (developing [bare] [jobOf 1 .normal .running 0]).job 1 ≠ none) := by
  decide

theorem witness_ReadStreams :
    reachesOwner (.readRaw (body 4) 1) (body 4) (withShots [held]) ∧ reachesOwner (.readProof (body 4) 1) (body 4) (withShots [held])
      ∧ (withShots [held]).record 2 = none ∧ (withShots [stored 1]).record 1 = some (stored 1) ∧ (stored 1).hold = false
      ∧ (held.hold = true ∧ { withShots [held] with ptc := { Ptc.reset with read := some (streamAt 0) } }.ptc.read.isSome = true)
      ∧ ({ held with raw := none }).raw = none ∧ ({ held with proof := none }).proof = none
      ∧ ((withShots [held]).ptc.read = none ∧ held.readable .raw = some ([1], 75866112, none)
          ∧ (held.readable .proof).isSome = true)
      ∧ ((streamAt 1156).cut = false ∧ (streamAt 1156).next + 1 < (streamAt 1156).frames
          ∧ (streamAt 1157).next + 1 = (streamAt 1157).frames ∧ (withShots [held]).fsc.releasing = [])
      ∧ (let s := { withShots [bare] with
                    ptc := { Ptc.reset with read := some { streamAt 3 with cut := true } }
                    fsc := { (withShots []).fsc with releasing := [[1]], accesses := [{ user := .readStream, chain := [1] }] } }
         ({ streamAt 3 with cut := true }).cut = true ∧ s.fsc.releasing = [(streamAt 3).chain] ∧ s.currentJob = none
          ∧ State.chainInUse { s with fsc := { s.fsc with accesses := [] } } [1] = false)
      ∧ (reachesOwner (.unhold (body 4) 1) (body 4) { withShots [held] with ptc := { Ptc.reset with read := some (streamAt 0) } }
          ∧ (withShots [held]).record 1 = some held ∧ (streamAt 0).shot = (1 : Word).toNat) := by
  simp only [reaches_iff]; decide

/-! ## Witnesses: development -/

/-- The reset settings as SET_DEVELOP sends them, and a DEVELOP that leaves all but the class to the snapshot. -/
def settings : SettingsOps := { wr := 1024, wg := 1024, wb := 1024, tone := 3, scale := 1, auto := 1 }
def plainDevelop : DevelopOps :=
  { shot := 1, cls := 0, gainsPresent := 0, wr := 0, wg := 0, wb := 0, tonePresent := 0, tone := 0, scale := 0xFF }

theorem witness_DevelopSettings :
    reachesOwner (.setDevelop (body 9) settings) (body 9) State.reset ∧ 3 < ({ settings with tone := 4 } : SettingsOps).tone.toNat
      ∧ (settings.tone.toNat ≤ 3 ∧ settings.scale.toNat ≤ 1 ∧ settings.auto.toNat ≤ 1)
      ∧ reachesOwner (.loadTone (body 7) 3 4094 2 [1, 2]) (body 7) State.reset ∧ [1, 2].length = (2 : Half).toNat
      ∧ 4096 < (4095 : Half).toNat + (2 : Half).toNat ∧ 3 < (4 : Byte).toNat ∧ 512 < (513 : Half).toNat
      ∧ ((2 : Half) ≠ 0 ∧ (2 : Half).toNat ≤ 512 ∧ (3 : Byte).toNat ≤ 3 ∧ (4094 : Half).toNat + (2 : Half).toNat ≤ 4096)
      ∧ (∃ j ∈ [jobOf 1 .normal .queued 0], j.params.tone = (0 : Byte).toNat)
      ∧ (∀ j ∈ State.reset.dve.jobs, j.params.tone ≠ (3 : Byte).toNat) := by
  simp only [reaches_iff]; decide

theorem witness_Develop :
    reachesOwner (.develop (body 15) plainDevelop) (body 15) (withShots [stored 1]) ∧ readPriority 2 = none
      ∧ developChoices { plainDevelop with scale := 2 } = false ∧ (readPriority 0 = some .urgent ∧ developChoices plainDevelop = true)
      ∧ (withShots [stored 2]).record 1 = none
      ∧ ((withShots [{ stored 1 with state := .exposing }]).record 1).isSome = true ∧ ({ stored 1 with raw := none }).raw = none
      ∧ ((withShots [stored 1]).record 1 = some (stored 1) ∧ (stored 1).state = .stored ∧ (stored 1).raw.isSome = true
          ∧ readDevelop plainDevelop (stored 1).snapshot = some DevelopParams.reset)
      ∧ ((developing [stored 1] [jobOf 1 .normal .running 3]).job 1 = some (jobOf 1 .normal .running 3)
          ∧ (jobOf 1 .normal .running 3).state = .running)
      ∧ (attached [stored 1] [{ sending 3 1 0 false with content := .proof }]).proofSending 1 = true
      ∧ (32 ≤ ((List.range 32).map fun k => jobOf (k + 2) .normal .queued 0).length)
      ∧ (let s := developing [stored 1] [jobOf 2 .normal .running 0]
         s.job 1 = none ∧ s.itemFor 1 .proof = none ∧ s.dve.jobs.length < 32 ∧ s.currentJob = some (jobOf 2 .normal .running 0)
          ∧ (jobOf 2 .normal .running 0).state = .running)
      ∧ (let s := withShots [stored 1]
         s.dve.jobs = [] ∧ s.dve.applied = .normal ∧ s.fsc.configured = true
          ∧ s.fsc.reserve + Mode.full.proofSlabs Scale.half ≤ s.fsc.freeList.length)
      ∧ (let s := { withShots [stored 1] with fsc := { (withShots []).fsc with reserve := 53 } }
         s.fsc.freeList.length < s.fsc.reserve + Mode.full.proofSlabs Scale.half)
      ∧ (let s := developing [stored 1] [jobOf 2 .normal .running 0, jobOf 1 .normal .queued 0]
         s.job 1 = some (jobOf 1 .normal .queued 0) ∧ (jobOf 1 .normal .queued 0).state = .queued ∧ s.proofSending 1 = false
          ∧ s.currentJob = some (jobOf 2 .normal .running 0) ∧ (jobOf 2 .normal .running 0).shot ≠ 1) := by
  simp only [reaches_iff]; decide +kernel

/-- The pick: a job at work; none; a SUSPENDED one before a QUEUED one; a QUEUED one with its slabs and without them. -/
theorem witness_Develop_pick :
    (∃ j ∈ (developing [] [jobOf 2 .normal .running 0]).dve.jobs, j.isCurrent = true)
      ∧ { (developing [] []).dve with applied := .hot }.applied = .hot
      ∧ (developing [] []).dve.jobs.find? (fun j => j.state == .queued && j.cls == .urgent && !j.cancel) = none
      ∧ (let s := developing [] [jobOf 1 .normal .queued 0, jobOf 2 .normal .suspended 3, jobOf 3 .urgent .queued 0]
         (∀ x ∈ s.dve.jobs, x.isCurrent = false) ∧ s.dve.applied = .normal
          ∧ [none, some (jobOf 3 .urgent .queued 0), some (jobOf 2 .normal .suspended 3), some (jobOf 1 .normal .queued 0)].findSome? id
            = some (jobOf 3 .urgent .queued 0)
          ∧ [none, none, some (jobOf 2 .normal .suspended 3), none].findSome? id = some (jobOf 2 .normal .suspended 3)
          ∧ s.dve.jobs.find? (fun j => j.state == .queued && j.cls == .urgent && !j.cancel) = some (jobOf 3 .urgent .queued 0)
          ∧ s.dve.jobs.find? (fun j => j.state == .suspended && j.cls == .normal && !j.cancel) = some (jobOf 2 .normal .suspended 3)
          ∧ s.fsc.configured = true ∧ s.fsc.reserve + Mode.full.proofSlabs Scale.half ≤ s.fsc.freeList.length
          ∧ s.fsc.freeList.length < 53 + Mode.full.proofSlabs Scale.half)
      ∧ (developChoices plainDevelop = true ∧ developChoices { plainDevelop with tonePresent := 1, tone := 4 } = false
          ∧ developChoices { plainDevelop with gainsPresent := 1, wr := 65535, tonePresent := 1, tone := 3, scale := 1 } = true) := by
  decide

/-- A NORMAL job waits for slabs: an URGENT one appears, for a shot whose READY PROOF item goes back to wait; a merge raises it, and
a merge raises another. -/
def proofItem : SendItem := { ready 1 1 with content := .proof }
def proven : Record := { yielder with markRaw := .none, rawPins := 0, markProof := .queued, proofPins := 1 }
def remade : State :=
  { attached [proven, stored 2] [proofItem] with
    dve := { Dve.reset with jobs := [jobOf 2 .normal .waitSlabs 0] } }
def merged : State := developing [stored 1, stored 2] [jobOf 1 .normal .queued 0, jobOf 2 .normal .waitSlabs 0]
theorem witness_Develop_waiting :
    (reachesOwner (.develop (body 15) plainDevelop) (body 15) remade ∧ remade.job 1 = none ∧ remade.proofSending 1 = false
      ∧ remade.dve.jobs.length < 32 ∧ (∃ x ∈ remade.ttc.queue, x.shot = 1 ∧ x.content = .proof ∧ x.state = .ready)
      ∧ (∃ x ∈ remade.dve.jobs, x.state = .waitSlabs ∧ x.cls = .normal)
      ∧ (remade.record 1).map (fun r => (r.state, r.raw, r.snapshot)) = some (.stored, some [1], DevelopParams.reset))
      ∧ (reachesOwner (.develop (body 15) plainDevelop) (body 15) merged ∧ merged.proofSending 1 = false ∧ merged.proofSending 2 = false
          ∧ merged.job 1 = some (jobOf 1 .normal .queued 0) ∧ merged.job 2 = some (jobOf 2 .normal .waitSlabs 0)) := by
  simp only [reaches_iff]; decide
theorem witness_Develop_law : developLaw remade ∧ sendLaw remade ∧ developLaw merged :=
  ⟨develop_lawful _ (by decide +kernel),
   attached_lawful [proven, stored 2] [proofItem] (by decide) (by decide) (by decide) (by decide) (by decide),
   develop_lawful _ (by decide +kernel)⟩

theorem witness_Stripe :
    (∀ j ∈ State.reset.dve.jobs, j.state ≠ .running)
      ∧ (let j := jobOf 1 .normal .running 40
         let s := developing [stored 1] [j]
         s.dve.jobs.find? (fun x => x.state == .running) = some j ∧ j.progress.isSome = true ∧ s.record j.shot = some (stored 1)
          ∧ s.dve.pendingThermal = none ∧ j.cancel = false ∧ 40 + 1 ≠ j.mode.stripes ∧ s.dve.applied ≠ .hot
          ∧ s.dve.applied = .normal ∧ ∀ x ∈ s.dve.jobs, x.cls = .urgent → x.state ≠ .queued ∧ x.state ≠ .suspended)
      ∧ (let j := jobOf 1 .normal .running 40
         let u := jobOf 2 .urgent .queued 0
         let s := developing [stored 1] [j, u]
         s.fsc.configured = true ∧ s.dve.jobs = [j] ++ u :: [] ∧ (s.dve.jobs.map Job.shot).Nodup
          ∧ (∀ x ∈ [j], x.cls = .urgent → x.state ≠ .queued)
          ∧ (∀ x ∈ s.dve.jobs, x.state ≠ .waitSlabs ∧ (x.state = .running → x.shot = j.shot) ∧ (x.cls = .urgent → x.state ≠ .suspended))
          ∧ s.fsc.reserve + u.mode.proofSlabs u.params.scale ≤ s.fsc.freeList.length
          ∧ s.fsc.freeList.length < 53 + u.mode.proofSlabs u.params.scale)
      ∧ { (developing [stored 1] [jobOf 1 .normal .running 40]).dve with pendingThermal := some .hot }.pendingThermal = some .hot
      ∧ (let j := jobOf 1 .urgent .running 83
         let n := jobOf 2 .normal .suspended 3
         let r := { stored 1 with rawPins := 1 }
         let s := developing [r] [n, j]
         s.dve.jobs.find? (fun x => x.state == .running) = some j ∧ s.dve.jobs = [n] ++ [j] ∧ n.cancel = false ∧ n.shot ≠ j.shot
          ∧ 83 + 1 = j.mode.stripes ∧ s.record 1 = some r ∧ r.proof = none ∧ r.state = .stored ∧ r.raw.isSome = true
          ∧ r.rawPins ≠ 0 ∧ s.itemFor j.shot .proof = none)
      ∧ (let j := { jobOf 1 .normal .running 3 with cancel := true }
         let r := { stored 1 with state := .deleting, deleteTag := some 9 }
         let s := developing [r] [j]
         j.cancel = true ∧ s.dve.jobs = [j] ∧ s.record 1 = some r ∧ r.raw = some [1] ∧ r.rawPins = 0 ∧ r.reqA.settled = true
          ∧ r.reqB.settled = true ∧ s.crw.slotA.writing = none ∧ s.crw.slotB.writing = none ∧ s.ttc.queue = []
          ∧ s.ptc.read = none ∧ s.fsc.accesses = [] ∧ s.siu.frame = none ∧ s.siu.ended = []) := by decide

/-- The last stripe of a shot whose older proof is read, with an item that waits for the new one: 10,838,016 quads, a limit of 1000
of 1000 and one of 0. A job in the middle that nothing preempts, and one that WARM preempts. -/
def remaking : State :=
  { attached [{ held with proofState := .pending, proofPins := 2 }] [{ proofItem with state := .waitingProof, maxClip := 0 }] with
    dve := { Dve.reset with jobs := [jobOf 1 .normal .running 83] }
    ptc := { Ptc.reset with read := some { streamAt 0 with content := .proof, chain := [40] } } }
theorem witness_Stripe_last :
    (let j := jobOf 1 .normal .running 83
     remaking.dve.jobs.find? (fun x => x.state == .running) = some j ∧ j.progress.map (fun p => (p.next, p.histogram.length)) = some (83, 64)
      ∧ (remaking.record 1).map Record.proof = some (some (doneProof 40)) ∧ (∀ x ∈ remaking.dve.jobs, x.state ≠ .waitSlabs)
      ∧ j.cancel = false ∧ 83 + 1 = j.mode.stripes
      ∧ remaking.itemFor 1 .proof = some { proofItem with state := .waitingProof, maxClip := 0 }
      ∧ 10838016 * 1000 ≤ proofItem.maxClip * j.mode.quads ∧ 0 * j.mode.quads < 1 * 1000)
      ∧ (remade.itemFor 1 .proof = some proofItem ∧ proofItem.state ≠ .waitingProof)
      ∧ (let s := developing [stored 1] [jobOf 1 .normal .running 40]
         (∀ x ∈ s.dve.jobs, x.state ≠ .waitSlabs) ∧ (jobOf 1 .normal .running 40).cancel = false
          ∧ 40 + 1 ≠ (jobOf 1 .normal .running 40).mode.stripes ∧ s.dve.pendingThermal.getD s.dve.applied = .normal
          ∧ (some Thermal.warm).getD s.dve.applied = .warm) := by decide

theorem witness_QuadArithmetic :
    65535 ≤ 65535 ∧ (recipe.clip ≤ 16000 ∨ recipe.clip ≤ 0) ∧ 15999 < recipe.clip ∧ recipe.params.scale = .half
      ∧ ({ recipe with params := { recipe.params with scale := .quarter } } : Recipe).params.scale = .quarter ∧ 3 < 4
      ∧ (12 ≤ 13 ∧ 13 ≤ 13) ∧ (List.replicate 64 0).length = 64 ∧ 255 ≤ 255 ∧ 63 < 64 := by
  decide

/-! ## Witnesses: cards -/

/-- A state for each state of slot A. -/
def slotIn (st : SlotState) : State := withSlotA (slotA st [] [] none [] none) []
/-- A block request, and an operation that serves it. -/
def blockReq (write : Bool) : BlockRequest := { write := write, tag := 7, first := 5000, count := 1, payload := [] }
def blockOp : CardOp := { kind := .blockRead, issued := true, timer := 1500, runs := [⟨5000, 1⟩], payload := [] }
/-- Item 1 at a chunk. -/
def item (next : Nat) : WritingItem :=
  { item := ⟨1, .full⟩, fragments := [⟨0, 148177⟩], next := next, written := next * 2048, abort := false }

theorem witness_SlotRequests :
    reachesOwner (.openSlot (body 1) 2) (body 1) (slotIn .idle) ∧ 1 < (2 : Byte).toNat ∧ reachesOwner (.closeSlot (body 1) 2) (body 1) (slotIn .idle)
      ∧ reachesOwner (.slotFull (body 1) 2) (body 1) (slotIn .idle) ∧ readSlot 0 = some .a ∧ readSlot 1 = some .b
      ∧ ((slotIn .idle).slot .a).state ≠ .present
      ∧ (((slotIn .present).slot .a).state = .present ∧ ((slotIn .present).slot .a).queue = [])
      ∧ ((withSlotA (slotA .present [] [⟨1, .full⟩] none [] none) []).slot .a).queue ≠ []
      ∧ reachesOwner (.closeSlot (body 1) 0) (body 1) (slotIn .fault) ∧ ((slotIn .absent).slot .a).state = .absent
      ∧ ((slotIn .writing).slot .a).state = .writing ∧ ((slotIn .fault).slot .a).state = .fault
      ∧ ((slotIn .fault).slot .a).blocks = []
      ∧ reachesOwner (.slotFull (body 1) 0) (body 1) (slotIn .full) ∧ ((slotIn .present).slot .a).state.isOpen = false
      ∧ ((slotIn .full).slot .a).state = .full ∧ ((slotIn .idle).slot .a).state = .idle ∧ (slotIn .idle).overflowInForce = false := by
  simp only [reaches_iff]; decide

/-- The least extent, one block less, one that ends with the card's last block number, one beyond it; a full pool; a head item that
is covered and one that is not. -/
theorem witness_GrantExtents :
    reachesOwner (.grantExtents (body 10) 0 1 [⟨0, 16384⟩]) (body 10) (slotIn .idle) ∧ [(⟨0, 16384⟩ : ExtentOps)].length = (1 : Byte).toNat
      ∧ 8 < (9 : Byte).toNat ∧ 4294967296 < 4294967295 + 2 ∧ 4294967280 + 16 ≤ 4294967296
      ∧ (readSlot 0 = some .a ∧ (1 : Byte) ≠ 0 ∧ (1 : Byte).toNat ≤ 8)
      ∧ (((slotIn .idle).slot .a).state = .idle ∧ ((slotIn .idle).slot .a).fullPending = false) ∧ 16383 < 16384
      ∧ ((slotIn .waitExtents).slot .a).state = .waitExtents ∧ ((slotIn .fault).slot .a).state = .fault
      ∧ (let s := withSlotA (slotA .idle [⟨16383, 1⟩] [] none [] none) []
         ∃ t ∈ (s.slot .a).taken, (⟨0, 16384⟩ : Extent).overlaps t = true)
      ∧ (disjointExtents [⟨0, 16384⟩] = true ∧ ∀ t ∈ (withSlotA (slotA .idle [⟨16384, 1⟩] [] none [] none) []).crw.slotA.taken,
          (⟨0, 16384⟩ : Extent).overlaps t = false)
      ∧ 32 < (List.replicate 32 (⟨0, 1⟩ : Extent)).length + 1 ∧ 0 < (⟨0, 16384⟩ : Extent).count
      ∧ (buildFragments 8 [⟨2196354, 3646⟩, ⟨3000000, 200000⟩] 148177
          = some ([⟨2196354, 3646⟩, ⟨3000000, 144531⟩], [⟨3144531, 55469⟩]))
      ∧ (let s := withSlotA (slotA .waitExtents [⟨0, 16384⟩] [⟨1, .full⟩] none [] none) [stored 1]
         (s.slot .a).queue = ⟨1, .full⟩ :: [] ∧ buildFragments 8 (s.slot .a).pool Mode.full.itemBlocks = none)
      ∧ (let s := withSlotA (slotA .idle [⟨3000000, 200000⟩] [⟨1, .full⟩] none [] none) [stored 1]
         (s.slot .a).queue = ⟨1, .full⟩ :: [] ∧ buildFragments 8 (s.slot .a).pool Mode.full.itemBlocks
            = some ([⟨3000000, 148177⟩], [⟨3148177, 51823⟩])
          ∧ s.record 1 = some (stored 1) ∧ (stored 1).raw = some [1] ∧ (s.slot .a).op = none ∧ (s.slot .a).blocks = [])
      ∧ ((withSlotA (slotA .idle [] [⟨1, .full⟩] none [blockReq false] (some blockOp)) []).slot .a).op.isSome = true := by
  simp only [reaches_iff]; decide +kernel

/-- A BLOCK_WRITE of one block with its frame. -/
def blockWrite : Instr := .blockWrite { body 6 with flags := 1 } 0 5000 1 (some ⟨7, 0, List.replicate 512 0⟩)

theorem witness_BlockRequests :
    reachesOwner (.blockRead (body 6) 0 5000 1) (body 6) (slotIn .idle) ∧ reachesOwner blockWrite { body 6 with flags := 1 } (slotIn .idle)
      ∧ (List.replicate 512 (0 : Byte)).length = (1 : Byte).toNat * 512 ∧ readSlot 0 = some .a
      ∧ 64 < (65 : Byte).toNat ∧ 4294967296 < (4294967295 : Word).toNat + (2 : Byte).toNat
      ∧ ((64 : Byte) ≠ 0 ∧ (64 : Byte).toNat ≤ 64 ∧ (4294967232 : Word).toNat + (64 : Byte).toNat ≤ 4294967296)
      ∧ ((slotIn .present).slot .a).state.isOpen = false ∧ ((slotIn .idle).slot .a).state.isOpen = true
      ∧ 4 ≤ (List.replicate 4 (blockReq false)).length
      ∧ (∃ e ∈ ((withSlotA (slotA .idle [⟨5000, 1⟩] [] none [] none) []).slot .a).taken, e.overlaps ⟨5000, 1⟩ = true)
      ∧ (((slotIn .idle).slot .a).op = none ∧ ((slotIn .idle).slot .a).blocks = [] ∧ ((slotIn .idle).slot .a).writing = none
          ∧ ∀ e ∈ ((slotIn .idle).slot .a).taken, e.overlaps ⟨5000, 1⟩ = false)
      ∧ (let s := withSlotA (slotA .idle [] [] none [blockReq false] (some blockOp)) []
         (s.slot .a).op = some blockOp ∧ blockOp.kind ≠ .chunk ∧ blockOp.issued = true ∧ (s.slot .a).blocks = [blockReq false]
          ∧ (s.slot .a).writing = none ∧ (List.replicate 512 (0 : Byte)).length = (blockReq false).count * 512)
      ∧ (let s := withSlotA (slotA .writing [] [] (some (item 40)) [blockReq false, blockReq true] (some blockOp)) [stored 1]
         (s.slot .a).op = some blockOp ∧ (s.slot .a).blocks = blockReq false :: [blockReq true] ∧ (s.slot .a).writing.isSome = true)
      ∧ reachesOwner (.blockWrite { body 6 with flags := 1 } 0 5000 1 none) { body 6 with flags := 1 } (slotIn .idle)
      ∧ (let s := withSlotA (slotA .writing [] [] (some (item 40)) [blockReq true] none) [stored 1]
         (s.slot .a).op = none ∧ (s.slot .a).state = .writing ∧ (s.slot .a).writing = some (item 40) ∧ (item 40).abort = false
          ∧ (item 40).next < (item 40).item.mode.itemChunks ∧ (s.slot .a).blocks = blockReq true :: []) := by
  simp only [reaches_iff]; decide +kernel

/-- Slot A writing shot 1 at a chunk whose operation is issued or not. -/
def writingAt (next : Nat) (issued : Bool) : State :=
  withSlotA (slotA .writing [] [] (some (item next)) [] (some (chunkOp issued))) [{ stored 1 with reqA := .writing, rawPins := 1 }]

theorem witness_ChunkEvents :
    (((slotIn .idle).slot .a).op = none ∧ ∀ a ∈ (slotIn .idle).fsc.accesses, a.user ≠ .card .a)
      ∧ (let s := writingAt 40 false
         (s.slot .a).op = some (chunkOp false) ∧ (chunkOp false).kind = .chunk ∧ (chunkOp false).issued = false
          ∧ (s.slot .a).writing = some (item 40) ∧ (s.record 1).isSome = true ∧ s.fsc.releasing = [])
      ∧ (let s := writingAt 72 true
         (s.slot .a).op = some (chunkOp true) ∧ (chunkOp true).issued = true ∧ (s.slot .a).state = .writing
          ∧ (s.slot .a).writing = some (item 72) ∧ (item 72).abort = false ∧ (s.slot .a).blocks = [] ∧ (item 40).next + 1 < 73
          ∧ (item 72).next + 1 = (item 72).item.mode.itemChunks ∧ (s.slot .a).queue = [] ∧ (s.slot .a).fullPending = false
          ∧ s.record 1 = some { stored 1 with reqA := .writing, rawPins := 1 })
      ∧ ((item 0).next = 0 ∧ (item 40).next ≠ 0 ∧ (stored 1).raw = some [1] ∧ ∀ f ∈ (item 40).fragments, 0 < f.count)
      ∧ (let s := (writingAt 72 true).updSlot .a fun x => { x with fullPending := true }
         (s.slot .a).op = some (chunkOp true) ∧ (s.slot .a).fullPending = true ∧ (item 72).next + 1 = (item 72).item.mode.itemChunks
          ∧ (stored 1).state = .stored) := by decide

/-- Overflow in force, slot A writing item 1 with item 2 behind it, and slot B at rest. -/
def migrating : State :=
  { withShots [{ stored 1 with reqA := .writing }, { stored 2 with reqA := .queued }] with
    crw := { slotA .writing [] [⟨2, .full⟩] (some (item 30)) [blockReq true] (some (chunkOp true)) with
             slotB := { Slot.reset true with state := .idle }, contentA := true, contentB := true, overflow := true } }

theorem witness_CardFaultsAndLines :
    ((slotIn .idle).slot .a).op = none ∧ (slotIn .idle).overflowInForce = false
      ∧ ((chunkOp false).issued = false ∧ 0 < (chunkOp true).timer ∧ { chunkOp true with timer := 0 }.timer = 0)
      ∧ (let s := withSlotA (slotA .idle [] [] none [blockReq false] (some blockOp)) []
         (s.slot .a).op = some blockOp ∧ blockOp.issued = true ∧ (s.slot .a).state.isOpen = true ∧ (s.slot .a).writing = none)
      ∧ ((migrating.slot .a).state.isOpen = true ∧ (migrating.slot .a).op = some (chunkOp true) ∧ (chunkOp true).issued = true
          ∧ (migrating.slot .a).writing = some (item 30) ∧ (item 30).abort = false ∧ { item 30 with abort := true }.abort = true)
      ∧ ((slotIn .fault).slot .a).state = .fault ∧ ((slotIn .present).slot .a).state = .present
      ∧ ((slotIn .absent).slot .a).state = .absent ∧ ((slotIn .present).slot .a).state ≠ .absent
      ∧ (migrating.overflowInForce = true
          ∧ (([(⟨1, .full⟩ : CardItem)] ++ migrating.crw.slotA.queue).map CardItem.shot).Nodup
          ∧ (migrating.cat.records.map Record.shot).Nodup
          ∧ (∀ x ∈ [(⟨1, .full⟩ : CardItem)] ++ migrating.crw.slotA.queue, (migrating.record x.shot).any (fun r =>
              r.state == .stored && r.raw.isSome && r.reqB == .notRequired) = true)
          ∧ migrating.crw.slotB.state = .idle ∧ Requirement.queued.settled = false) := by decide

theorem witness_RetryAndWaive :
    reachesOwner (.retryCard (body 5) 1 3) (body 5) (slotIn .waitExtents) ∧ 2 < (3 : Byte).toNat ∧ (2 : Byte).toNat ≤ 2
      ∧ (withShots [stored 1]).record 2 = none ∧ (2 : Word) ≠ 0
      ∧ (let s := withSlotA (slotA .waitExtents [] [] none [] none) [{ stored 1 with reqA := .failed }]
         readSlot 0 = some .a ∧ (s.record 1).isSome = true ∧ ({ stored 1 with reqA := .failed }).req .a = .failed
          ∧ (s.slot .a).state = .waitExtents ∧ s.crw.slotA.state ≠ .idle ∧ s.crw.slotB.state ≠ .idle)
      ∧ reachesOwner (.waiveCard (body 5) 1 0) (body 5) (slotIn .idle) ∧ ({ stored 1 with reqA := .writing }).req .a = .writing
      ∧ (let r := { stored 1 with reqA := .queued, rawPins := 1 }
         let s := withSlotA (slotA .present [] [⟨1, .full⟩] none [] none) [r]
         s.record 1 = some r ∧ r.req .a = .queued ∧ r.raw.isSome = true ∧ r.rawPins ≠ 0 ∧ r.state = .stored
          ∧ s.crw.slotA.state ≠ .waitExtents ∧ s.crw.slotB.state ≠ .waitExtents)
      ∧ ((stored 1).req .a ≠ .writing ∧ (stored 1).req .a ≠ .queued ∧ (stored 1).req .a ≠ .failed) := by
  simp only [reaches_iff]; decide

/-- Every shot and BOTH slots: slot A at rest, slot B waiting for extents; requirements that failed, one that waits, one that is
written. -/
def failures : State :=
  { withSlotA (slotA .idle [] [] none [] none) [{ stored 1 with reqA := .failed, reqB := .queued }, { stored 2 with reqA := .failed }] with
    crw := { slotA .idle [] [] none [] none with slotB := { Slot.reset true with state := .waitExtents, queue := [⟨1, .full⟩] } } }
theorem witness_RetryAndWaive_all :
    reachesOwner (.retryCard (body 5) 0 2) (body 5) failures ∧ (2 : Byte).toNat ≤ 2 ∧ (0 : Word) = 0
      ∧ (failures.record (1 : Word).toNat).isSome = true ∧ (failures.slot .a).state = .idle
      ∧ (failures.cat.records.filter fun r => r.req .a == .failed).length = 2
      ∧ reachesOwner (.waiveCard (body 5) 0 2) (body 5) failures ∧ (failures.slot .b).state = .waitExtents
      ∧ ((1 : Word) ≠ 0 ∧ failures.record 1 = some { stored 1 with reqA := .failed, reqB := .queued })
      ∧ (∀ i ∈ [SlotId.a, .b], ({ stored 1 with reqA := .failed, reqB := .queued } : Record).req i ≠ .writing)
      ∧ ∃ i ∈ [SlotId.a, .b], ({ stored 1 with reqB := .writing } : Record).req i = .writing := by
  simp only [reaches_iff]; decide
theorem witness_RetryAndWaive_law : catalogLaw failures := ⟨by decide, by decide, by decide, by decide, by decide⟩

/-! ## Witnesses: tethering -/

theorem witness_Session :
    reachesOwner (.openSession (tether 0)) (tether 0) State.reset ∧ State.reset.ttc.attached = false
      ∧ (let s := attached [stored 1] [ready 1 1, sending 2 1 3 false]
         s.ttc.attached = true ∧ s.sendingItem = some (sending 2 1 3 false) ∧ (sending 2 1 3 false).cut = .clear
          ∧ s.ttc.policy = .keep ∧ s.fsc.releasing = [] ∧ s.ttc.silence ≠ some 0
          ∧ reachesOwner (.closeSession (tether 0)) (tether 0) s)
      ∧ ({ sending 2 1 3 false with cut := .delete }).cut ≠ .clear
      ∧ { (attached [] []).ttc with policy := .drop }.policy = .drop
      ∧ { (attached [] []).ttc with silence := some 0 }.silence = some 0
      ∧ reachesOwner (.closeSession (tether 0)) (tether 0) State.reset := by
  simp only [reaches_iff]; decide

/-- A session whose SENDING item a DELETE has cut, with the silence expired, under each policy. -/
def cutSession (p : DetachPolicy) : State :=
  let s := attached [stored 1, { stored 2 with state := .deleting }] [ready 1 1, { sending 2 2 3 false with cut := .delete }]
  { s with ttc := { s.ttc with silence := some 0, policy := p } }
theorem witness_Session_cut :
    (cutSession .keep).ttc.attached = true ∧ (cutSession .drop).ttc.policy = .drop ∧ (cutSession .keep).ttc.policy = .keep
      ∧ (cutSession .keep).sendingItem = some { sending 2 2 3 false with cut := .delete } ∧ (cutSession .keep).ttc.silence = some 0
      ∧ reachesOwner (.openSession (tether 0)) (tether 0) (cutSession .keep)
      ∧ reachesOwner (.closeSession (tether 0)) (tether 0) (cutSession .drop) := by
  simp only [reaches_iff]; decide

/-- Rule 0 of the tethering example as SET_RULE sends it. -/
def ruleOps : RuleOps :=
  { enabled := 1, flagMask := 1, flagValue := 1, anyOf := 0, minRating := 0, requireLock := 0, content := 1, scale := 1,
    maxClip := 50, cls := 0 }

/-- An enabled rule for a content with a class. -/
def ruleFor (c : Content) (cls : Priority) : SendRule := { SendRule.reset with enabled := true, content := c, cls := cls }

theorem witness_RulesAndRearm :
    reachesOwner (.setRule (body 15) 7 ruleOps) (body 15) State.reset ∧ 7 < (8 : Byte).toNat ∧ (7 : Byte).toNat ≤ 7
      ∧ (ruleOps.enabled.toNat ≤ 1 ∧ ruleOps.requireLock.toNat ≤ 1 ∧ ruleOps.content.toNat ≤ 1 ∧ ruleOps.scale.toNat ≤ 1
          ∧ ruleOps.cls.toNat ≤ 1)
      ∧ ¬ ({ ruleOps with cls := 2 } : RuleOps).cls.toNat ≤ 1
      ∧ reachesOwner (.rearmAutosend (body 1) 2) (body 1) State.reset ∧ 1 < (2 : Byte).toNat ∧ State.reset.ttc.attached = false
      ∧ ((attached [stored 1] []).ttc.attached = true ∧ (attached [stored 1] []).ttc.armed = true)
      ∧ (SendRule.matchesRecord { SendRule.reset with enabled := true, minRating := 4 } { stored 1 with rating := 4 } = true
          ∧ SendRule.matchesRecord { SendRule.reset with enabled := true, minRating := 4 } { stored 1 with rating := 3 } = false)
      ∧ (reachesOwner (.setTags (body 9) 1 0 0 4) (body 9) (attached [stored 1] []) ∧ (attached [stored 1] []).record 1 = some (stored 1)
          ∧ (stored 1).state = .stored) := by
  simp only [reaches_iff]; decide

/-- The same for a rule that acts: on an item there, on one that waits for its job, past a content that was sent or is gone, at a
full queue, without a job to be had, and on an item that joins. -/
theorem witness_RulesAndRearm_acting :
    ((attached [stored 1] [ready 1 1]).itemFor 1 .raw = some (ready 1 1) ∧ (ready 1 1).state ≠ .waitingProof)
      ∧ (let w := { ready 1 1 with content := .proof, state := .waitingProof }
         let s := { attached [stored 1] [w] with dve := { Dve.reset with jobs := [jobOf 2 .urgent .running 0, jobOf 1 .normal .queued 0] } }
         s.itemFor 1 (ruleFor .proof .urgent).content = some w ∧ w.state = .waitingProof ∧ w.cls = .normal ∧ (ruleFor .proof .urgent).cls = .urgent
          ∧ (stored 1).state = .stored ∧ (stored 1).raw.isSome = true ∧ s.job 1 = some (jobOf 1 .normal .queued 0)
          ∧ s.currentJob = some (jobOf 2 .urgent .running 0) ∧ (jobOf 2 .urgent .running 0).shot ≠ 1)
      ∧ (attached [stored 1] []).itemFor 1 .raw = none ∧ ({ stored 1 with markRaw := .sent }).tetherMark .raw = .sent
      ∧ ({ stored 1 with raw := none }).available .proof = false
      ∧ ((stored 1).tetherMark .raw ≠ .sent ∧ (stored 1).available .raw = true ∧ (stored 1).available .proof = true)
      ∧ 64 ≤ ((List.range 64).map fun k => ready (k + 1) (k + 2)).length
      ∧ ((ruleFor .proof .normal).content = .proof ∧ (stored 1).proofState = .none ∧ (attached [stored 1] []).job 1 = none
          ∧ 32 ≤ ((List.range 32).map fun k => jobOf (k + 2) .normal .queued 0).length)
      ∧ (let s := { attached [stored 1] [] with dve := { Dve.reset with jobs := [jobOf 2 .normal .running 0] } }
         s.ttc.queue.length < 64 ∧ s.dve.jobs.length < 32 ∧ s.currentJob.isSome = true ∧ s.job 1 = none
          ∧ (ruleFor .proof .normal).cls = .normal) := by decide
theorem witness_RulesAndRearm_law : sendLaw { attached [stored 1] [] with dve := { Dve.reset with jobs := [jobOf 2 .normal .running 0] } } :=
  attached_lawful [stored 1] [] (by decide) (by decide) (by decide) (by decide) (by decide)

theorem witness_SendShot :
    reachesOwner (.sendShot (tether 6) 1 0 1) (tether 6) (attached [stored 1] [])
      ∧ sendLaw (attached [stored 1, stored 2] [ready 1 1, { ready 9 2 with content := .proof, state := .waitingProof }])
      ∧ 1 < (2 : Byte).toNat ∧ (1 : Byte).toNat ≤ 1 ∧ (withShots []).ttc.attached = false
      ∧ (readContent 1 = some .proof ∧ readPriority 1 = some .normal ∧ (attached [] []).ttc.attached = true)
      ∧ (attached [stored 1] []).record 2 = none ∧ (attached [stored 1] []).record 1 = some (stored 1)
      ∧ ((attached [stored 1] [ready 1 1]).itemFor 1 .raw = some (ready 1 1) ∧ (ready 1 1).state ≠ .waitingProof)
      ∧ (attached [stored 1] []).itemFor 1 .raw = none ∧ ({ stored 1 with raw := none }).available .raw = false
      ∧ (stored 1).available .raw = true ∧ ((List.range 64).map fun k => ready (k + 1) (k + 2)).length = 64
      ∧ ((stored 1).available .proof = true ∧ (stored 1).proofState = .none ∧ (stored 1).raw.isSome = true
          ∧ (attached [stored 1] []).job 1 = none)
      ∧ (∀ i ∈ [ready 1 1], i.serial ≠ 9) := by
  refine ⟨by rw [reaches_iff]; decide, attached_lawful _ _ ?_ ?_ ?_ ?_ ?_, ?_⟩ <;> decide

/-- An item that waits for its proof and rises with its QUEUED job behind a RUNNING one; a proof that was never made. -/
def waiting : SendItem := { ready 1 1 with content := .proof, state := .waitingProof }
def rising : State :=
  { attached [stored 1] [waiting] with dve := { Dve.reset with jobs := [jobOf 2 .normal .running 0, jobOf 1 .normal .queued 0] } }
def unmade : State := { attached [stored 1] [] with dve := { Dve.reset with jobs := [jobOf 2 .normal .running 0] } }
theorem witness_SendShot_jobs :
    (reachesOwner (.sendShot (tether 6) 1 1 0) (tether 6) rising ∧ readContent 1 = some .proof ∧ readPriority 0 = some .urgent
      ∧ rising.itemFor 1 .proof = some waiting ∧ waiting.state = .waitingProof ∧ waiting.cls = .normal
      ∧ rising.record 1 = some (stored 1) ∧ (stored 1).state = .stored ∧ (stored 1).raw.isSome = true
      ∧ rising.job 1 = some (jobOf 1 .normal .queued 0) ∧ rising.currentJob = some (jobOf 2 .normal .running 0)
      ∧ (jobOf 2 .normal .running 0).shot ≠ 1)
      ∧ (reachesOwner (.sendShot (tether 6) 1 1 1) (tether 6) unmade ∧ unmade.itemFor 1 .proof = none
          ∧ (stored 1).available .proof = true ∧ unmade.ttc.queue.length < 64 ∧ (stored 1).proofState = .none
          ∧ unmade.job 1 = none ∧ unmade.dve.jobs.length < 32 ∧ unmade.currentJob.isSome = true) := by
  simp only [reaches_iff]; decide
theorem witness_SendShot_jobs_law : (sendLaw rising ∧ sendLaw unmade) ∧ developLaw rising ∧ developLaw unmade :=
  ⟨⟨attached_lawful [stored 1] [waiting] (by decide) (by decide) (by decide) (by decide) (by decide),
    attached_lawful [stored 1] [] (by decide) (by decide) (by decide) (by decide) (by decide)⟩,
   develop_lawful _ (by decide +kernel), develop_lawful _ (by decide +kernel)⟩

/-- The job that an item waits for: RUNNING; URGENT already; waiting for slabs. -/
def waitsFor (j : Job) : State := { attached [stored 1] [waiting] with dve := { Dve.reset with jobs := [j] } }
theorem witness_SendShot_raise :
    (∀ j ∈ [jobOf 1 .normal .running 0, jobOf 1 .urgent .queued 0, jobOf 1 .normal .waitSlabs 0],
      reachesOwner (.sendShot (tether 6) 1 1 0) (tether 6) (waitsFor j) ∧ (waitsFor j).itemFor 1 .proof = some waiting
        ∧ (waitsFor j).job 1 = some j)
      ∧ (jobOf 1 .normal .running 0).state = .running ∧ (jobOf 1 .urgent .queued 0).cls = .urgent
      ∧ (jobOf 1 .normal .waitSlabs 0).state = .waitSlabs := by
  simp only [reaches_iff]; decide
theorem witness_SendShot_raise_law :
    developLaw (waitsFor (jobOf 1 .normal .running 0)) ∧ developLaw (waitsFor (jobOf 1 .urgent .queued 0))
      ∧ developLaw (waitsFor (jobOf 1 .normal .waitSlabs 0)) ∧ sendLaw (waitsFor (jobOf 1 .normal .waitSlabs 0)) :=
  ⟨develop_lawful _ (by decide +kernel), develop_lawful _ (by decide +kernel), develop_lawful _ (by decide +kernel),
   attached_lawful [stored 1] [waiting] (by decide) (by decide) (by decide) (by decide) (by decide)⟩

theorem witness_ItemTransfer :
    reachesOwner (.takeNext (tether 0)) (tether 0) (attached [] []) ∧ (attached [stored 1] [sending 1 1 0 false]).sendingItem.isSome = true
      ∧ ((attached [] []).sendingItem = none ∧ ∀ i ∈ (attached [] []).ttc.queue, i.state ≠ .ready)
      ∧ (let w := { ready 1 1 with content := .proof, state := .waitingProof, cls := .urgent }
         let s := attached [stored 1] [w, ready 2 1]
         s.sendingItem = none ∧ s.ttc.queue = [w] ++ ready 2 1 :: [] ∧ (ready 2 1).state = .ready
          ∧ (∀ x ∈ [w], x.state = .ready → x.cls ≠ (ready 2 1).cls) ∧ (∀ x ∈ s.ttc.queue, x.state = .ready → x.cls = .normal)
          ∧ s.record 1 = some (stored 1) ∧ (stored 1).readable .raw = some ([1], 75866112, none))
      ∧ (let s := attached [stored 1] [sending 1 1 1157 true]
         s.sendingItem = some (sending 1 1 1157 true) ∧ (sending 1 1 1157 true).transfer.map Transfer.awaiting = some true)
      ∧ (let s := attached [stored 1] [sending 1 1 1157 false]
         s.sendingItem = some (sending 1 1 1157 false) ∧ (sending 1 1 1157 false).cut = .clear ∧ s.fsc.releasing = []
          ∧ (sending 1 1 1157 false).transfer.map (fun t => (t.awaiting, t.next + 1, t.chunks)) = some (false, 1158, 1158)
          ∧ (sending 1 1 1156 false).transfer.map (fun t => (t.awaiting, t.next + 1, t.chunks)) = some (false, 1157, 1158))
      ∧ (let i := { sending 1 1 3 false with cut := .cancel, cancelTag := some 7 }
         (attached [stored 1] [i]).sendingItem = some i ∧ i.cut = .cancel ∧ i.cancelTag = some 7)
      ∧ (let i := { sending 1 1 3 false with cut := .delete, cancelTag := some 7 }
         let j := { sending 1 1 3 false with cut := .delete }
         (attached [stored 1] [i]).sendingItem = some i ∧ i.cut = .delete ∧ i.cancelTag = some 7 ∧ j.cut = .delete ∧ j.cancelTag = none
          ∧ (attached [stored 1] [i]).fsc.releasing = []) := by
  simp only [reaches_iff]; decide

theorem witness_ResultAndCancel :
    reachesOwner (.itemResult (tether 5) 1 2) (tether 5) (attached [] []) ∧ 1 < (2 : Byte).toNat ∧ (1 : Byte).toNat ≤ 1
      ∧ (attached [] []).sendingItem = none
      ∧ ((attached [] [sending 1 1 3 false]).sendingItem = some (sending 1 1 3 false) ∧ (sending 1 1 3 false).serial = (1 : Word).toNat
          ∧ (sending 1 1 3 false).cut = .clear ∧ (sending 1 1 3 false).transfer.map Transfer.awaiting = some false)
      ∧ (let r := { stored 1 with rawPins := 1, reqA := .queued }
         let i := { sending 1 1 1158 true with attempts := 2 }
         let s := attached [r] [i]
         s.sendingItem = some i ∧ i.transfer.map Transfer.awaiting = some true ∧ s.record 1 = some r ∧ r.state = .stored
          ∧ r.raw.isSome = true ∧ r.reqA.settled = false ∧ 2 ≤ i.attempts ∧ (sending 1 1 1158 true).attempts < 2
          ∧ ∀ x ∈ s.queueWithout 1, x.state ≠ .ready)
      ∧ reachesOwner (.cancelItem (tether 4) 1) (tether 4) (attached [] [])
      ∧ (attached [] []).ttc.queue.find? (fun x => x.serial == 1) = none
      ∧ ((attached [] [sending 1 1 3 false]).ttc.queue.find? (fun x => x.serial == 1) = some (sending 1 1 3 false)
          ∧ (sending 1 1 3 false).state = .sending)
      ∧ ((attached [] [ready 1 1]).ttc.queue.find? (fun x => x.serial == 1) = some (ready 1 1) ∧ (ready 1 1).state ≠ .sending) := by
  simp only [reaches_iff]; decide

/-- A record whose raw nothing wants, without a proof and with a pinned one; a result that ends an item out of an auto-send that is
suspended already; an item that awaits its result. -/
theorem witness_ResultAndCancel_release :
    (let s := attached [stored 1] []
     s.record 1 = some (stored 1) ∧ (stored 1).state = .stored ∧ (stored 1).raw = some [1] ∧ (stored 1).rawPins = 0
      ∧ (stored 1).reqA.settled = true ∧ (stored 1).reqB.settled = true ∧ s.job 1 = none ∧ s.chainInUse [1] = false
      ∧ s.currentJob = none ∧ (stored 1).proof = none ∧ s.crw.slotA.writing = none ∧ s.crw.slotB.writing = none ∧ s.ttc.queue = []
      ∧ s.ptc.read = none ∧ (stored 1).deleteTag = none)
      ∧ (let r := { stored 1 with proofState := .done, proof := some (doneProof 40), proofPins := 1 }
         r.proof.isSome = true ∧ r.proofPins ≠ 0 ∧ r.rawPins = 0)
      ∧ (let i := { sending 1 1 1158 true with attempts := 2 }
         let s := { attached [{ stored 1 with rawPins := 1 }] [i] with ttc :=
           { (attached [] [i]).ttc with armed := false, errors := 7 } }
         s.sendingItem = some i ∧ i.cut = .clear ∧ i.transfer.map Transfer.awaiting = some true ∧ 2 ≤ i.attempts
          ∧ reachesOwner (.itemResult (tether 5) 1 1) (tether 5) s ∧ (s.atOwner (tether 5)).ttc.armed = false
          ∧ (s.atOwner (tether 5)).ttc.errors < (s.atOwner (tether 5)).ttc.threshold)
      ∧ (let s := attached [{ stored 1 with rawPins := 1 }] [sending 1 1 1158 true]
         reachesOwner (.cancelItem (tether 4) 1) (tether 4) s
          ∧ s.ttc.queue.find? (fun x => x.serial == 1) = some (sending 1 1 1158 true) ∧ (sending 1 1 1158 true).cut = .clear
          ∧ (sending 1 1 1158 true).transfer.map Transfer.awaiting = some true) := by
  simp only [reaches_iff]; decide

/-! ## Witnesses: temperature, notices, laws -/

/-- A part with these thermal states, a burst and every class enabled. -/
def warmPart (t : Thermal) : State :=
  { bursting 0 0 false with
    siu := { (bursting 0 0 false).siu with thermal := t }
    thm := { Thm.reset with part := t, die := die t 0, sinceSample := 100 }
    ptc := { Ptc.reset with enables := ⟨true, true, true, true⟩ } }

theorem witness_ThermalAndTime :
    ((die .warm 0).state ≠ .hot ∧ (110 : Int) ≤ 110) ∧ ((die .normal 0).state = .normal ∧ (109 : Int) < dieThresholds.hot)
      ∧ ((die .warm 9).state = .warm ∧ (89 : Int) < dieThresholds.warm - 5 ∧ ¬ (die .warm 9).hold < 9 ∧ (die .warm 8).hold < 9)
      ∧ ((die .hot 0).state = .hot ∧ (104 : Int) < dieThresholds.hot - 5)
      ∧ (((warmPart .normal).thm.die.sample dieThresholds ⟨40, true⟩).state.higher
            ((warmPart .normal).thm.stack.sample stackThresholds ⟨40, true⟩).state = (warmPart .normal).thm.part)
      ∧ (((warmPart .warm).thm.die.sample dieThresholds ⟨110, true⟩).state.higher
            ((warmPart .warm).thm.stack.sample stackThresholds ⟨40, true⟩).state ≠ (warmPart .warm).thm.part)
      ∧ ((warmPart .normal).siu.thermal = .normal ∧ (warmPart .normal).ring = [] ∧ (warmPart .normal).ptc.enables.thermal = true
          ∧ (warmPart .normal).dve.jobs = [])
      ∧ (100 ≤ (warmPart .normal).thm.sinceSample ∧ 100 ≤ (warmPart .warm).thm.sinceSample ∧ State.reset.thm.sinceSample < 100)
      ∧ (let s := { developing [stored 1] [jobOf 1 .normal .running 0] with thm := (warmPart .warm).thm }
         100 ≤ s.thm.sinceSample ∧ (∃ j ∈ s.dve.jobs, j.state = .running) ∧ s.ring = []
          ∧ (s.thm.die.sample dieThresholds ⟨110, true⟩).state.higher (s.thm.stack.sample stackThresholds ⟨40, true⟩).state
            ≠ s.thm.part) := by decide

/-- A NORMAL job waits for slabs, none is RUNNING, and the part becomes HOT. -/
def heating : State :=
  { developing [stored 1] [jobOf 1 .normal .waitSlabs 0] with thm := { Thm.reset with sinceSample := 100 } }
theorem witness_ThermalAndTime_applied :
    100 ≤ heating.thm.sinceSample ∧ (∀ j ∈ heating.dve.jobs, j.state ≠ .running) ∧ heating.ring = []
      ∧ (∃ j ∈ heating.dve.jobs, j.state = .waitSlabs)
      ∧ (heating.thm.die.sample dieThresholds ⟨110, true⟩).state.higher (heating.thm.stack.sample stackThresholds ⟨40, true⟩).state
        ≠ heating.thm.part := by decide
theorem witness_ThermalAndTime_law : developLaw heating := develop_lawful _ (by decide +kernel)

theorem witness_Notices :
    reachesOwner (.fetchNotices (lens 1) 0) (lens 1) State.reset ∧ reachesOwner (.noticeClasses (body 4) 1 1 1 2) (body 4) State.reset
      ∧ 1 < (2 : Byte).toNat ∧ (1 : Byte).toNat ≤ 1 ∧ (∀ x ∈ full 31, x.isOverrun = false) ∧ (full 30).length < 31 ∧ (full 31).length = 31
      ∧ 65535 ≤ 65535 ∧ (List.replicate 64 0).length = 64 := by
  simp only [reaches_iff]; decide

/-- A state far from reset that has every law, and from which a step goes on. -/
def lawful : State :=
  { attached [stored 1, stored 2] [ready 1 1, sending 2 2 0 false] with
    pending := [.timeBaseTick]
    dram := Memory.write [] 5 9
    siu := (warmPart .warm).siu
    thm := (warmPart .warm).thm
    fe := withLens.fe
    ptc := { Ptc.reset with bodyQueue := full 31 ++ [.overrun 2], lensQueue := [.focusResult published.summary] } }

theorem a_tick_goes_on (s : State) (h : s.pending = [.timeBaseTick]) : ∃ t, step s = .next t := by
  unfold step
  rw [h]
  exact ⟨_, rfl⟩
theorem witness_step_from_lawful : ∃ t, step lawful = .next t := by
  apply a_tick_goes_on
  decide +kernel
theorem witness_NoticeQueuesKeepTheirLaw : noticeLaw lawful := by
  have h : ∀ n ∈ full 31 ++ [.overrun 2], n = .overrun 2 ∨ n.isOverrun = false := by decide +kernel
  have e : lawful.ptc.tetherQueue = [] := rfl
  refine ⟨⟨by decide +kernel, by decide +kernel, by decide +kernel, ?_⟩, ?_, by decide +kernel, by decide +kernel⟩
  · intro n hn k hk
    rcases h n hn with h | h
    · rw [h] at hk
      cases hk
      decide
    · rw [hk] at h
      cases h
  · rw [e]
    simp [queueLaw]
theorem witness_DramStaysCanonical : Memory.wf lawful.dram = true := by decide
theorem witness_CatalogKeepsItsOrder : catalogLaw lawful := ⟨by decide, by decide, by decide, by decide, by decide⟩
theorem witness_TetherKeepsItsLaws : linkLaw lawful ∧ sendLaw lawful :=
  ⟨⟨by decide, by decide, by decide, by decide⟩, attached_lawful [stored 1, stored 2] [ready 1 1, sending 2 2 0 false] (by decide) (by decide) (by decide)
    (by decide) (by decide)⟩
theorem witness_CaptureKeepsItsLaw : catalogLaw lawful ∧ captureLaw lawful :=
  ⟨witness_CatalogKeepsItsOrder, by decide, by decide, nofun, by decide, by decide, by decide, by decide, by decide, by decide,
    by decide, by decide, by decide, by decide, by decide, by decide, by decide⟩
theorem witness_FocusKeepsItsLaw : focusLaw lawful := by
  refine ⟨by decide, by decide, by decide, ?_, ?_, nofun, by decide, by decide, by decide, by decide, by decide, by decide,
    by decide, by decide, by decide, by decide, by decide, by decide, by decide, by decide, by decide, nofun, by decide⟩
  · intro p hp
    have h : ∀ x ∈ lawful.fe.collect, x = none := by decide
    simpa using h _ hp
  · intro l hl
    cases hl
    exact ⟨⟨by decide, by decide, by decide, by decide, by decide⟩, rfl⟩

/-- A small store whose books agree: shot 1 with a done proof, a send item and a card item that is being written, shot 2 with a RUNNING job and a
card item that waits, a chain that waits for its last access. -/
def shotOne : Record :=
  { stored 1 with rawPins := 1, markRaw := .queued, reqA := .writing, proofState := .done, proof := some (doneProof 6) }
def shotTwo : Record := { stored 2 with proofState := .pending, reqA := .queued }
def jobTwo : Job :=
  { jobOf 2 .normal .running 3 with progress := some { chain := [3, 4], next := 3, clipCount := 0,
                                                         histogram := 387072 :: List.replicate 63 0 } }
def inOrder : State :=
  { attached [shotOne, shotTwo] [ready 1 1] with
    pending := [.timeBaseTick]
    fsc := { Fsc.reset with configured := true, slabCount := 8, mode := some .full, freeList := [7], releasing := [[5, 0]] }
    dve := { Dve.reset with jobs := [jobTwo] }
    crw := slotA .writing [⟨200000, 20000⟩] [⟨2, .full⟩] (some (item 30)) [blockReq false] (some (chunkOp true)) }

theorem witness_step_from_inOrder : ∃ t, step inOrder = .next t := by
  apply a_tick_goes_on
  decide +kernel
theorem witness_EnginesKeepTheirLaws : developLaw inOrder ∧ slotLaw inOrder :=
  ⟨develop_lawful _ (by decide +kernel),
   ⟨by decide, by decide, by decide, by decide, by decide, by decide, by decide, by decide, by decide, by decide, by decide⟩,
   ⟨by decide, by decide, by decide, by decide, by decide, by decide, by decide, by decide, by decide, by decide, by decide⟩⟩
theorem witness_BooksKeepTheirLaws : booksLaw inOrder := by
  refine ⟨⟨by decide, by decide, by decide, by decide, by decide⟩, ?_, witness_EnginesKeepTheirLaws.1, witness_EnginesKeepTheirLaws.2,
    ⟨by decide, by decide⟩, ⟨by decide, ?_, fun k => by cases k <;> exact ⟨by decide, by decide, by decide⟩⟩, ?_⟩
  · exact attached_lawful [shotOne, shotTwo] [ready 1 1] (by decide) (by decide) (by decide) (by decide) (by decide)
  · intro i hi
    have h : i = ready 1 1 := by simpa [inOrder, attached] using hi
    subst h
    exact ⟨shotOne, by decide, by decide, by decide, by decide, by decide, by decide⟩
  · intro r hr
    have h : r = shotOne ∨ r = shotTwo := by simpa [inOrder, attached, withShots] using hr
    rcases h with rfl | rfl
    · exact ⟨by decide, by decide, by decide, by decide, by decide, fun p hp => by cases hp; decide, fun k => by cases k <;> decide⟩
    · exact ⟨by decide, by decide, by decide, by decide, by decide, fun p hp => (by cases hp), fun k => by cases k <;> decide⟩

/-! ## One step of a command

Each test runs one command on a small state and looks at one or two fields. -/

theorem test_configure_sets_the_store :
    (after (.configureStore (body 3) 2048 1) State.reset).fsc.slabCount = 2048
      ∧ (after (.configureStore (body 3) 2048 1) State.reset).fsc.mode = some .crop := by decide +kernel
theorem test_configure_refused_with_records :
    lastResult (after (.configureStore (body 3) 1024 1) (withShots [stored 1])).ptc.bodyOut = some .catalogNotEmpty := by decide +kernel
/-- A FULL raw takes the 19 slabs at the head, in order (01). -/
theorem test_frame_start_claims_from_the_head :
    (after .frameStart (pressed 25 (shootOf false none))).fsc.freeList = [19, 20, 21, 22, 23, 24]
      ∧ ((after .frameStart (pressed 25 (shootOf false none))).record 1).map Record.raw = some (some (List.range 19)) := by
  decide +kernel
/-- The third shot of a burst with maximum 3 ends it (02, frame 51). -/
theorem test_burst_ends_at_its_maximum :
    let s := bursting 19 3 false
    let t := after .frameStart { s with siu := { s.siu with burst := { s.siu.burst with taken := 2 } } }
    t.siu.engine = .idle ∧ t.siu.burst.taken = 3 ∧ t.cat.records.length = 1 := by decide +kernel
/-- The first active line fixes BL (02: 33,030,144 over 129,024 gives 256). -/
theorem test_line_16_fixes_bl : (after (.line 16 []) (inFrame (frameAt (some .full) 16 false))).siu.frame.map Frame.bl = some (some 256) := by
  decide +kernel
theorem test_line_repeated_marks_the_frame :
    (after (.line 15 []) (inFrame (frameAt (some .full) 16 false))).siu.frame.map Frame.framingFault = some true := by decide +kernel
theorem test_frame_end_awaits_raw_completion :
    (after .frameEnd (inFrame (frameAt (some .full) 5392 true))).siu.ended = [{ capture := ⟨.shot, 1, List.range 19⟩, bl := 256, truncated := false }]
      ∧ (after .frameEnd (inFrame (frameAt (some .full) 5392 true))).siu.lastBl = some 256 := by decide +kernel
/-- A frame start ends the frame in progress as TRUNCATED, also one that every line reached (R16, R20). -/
theorem test_frame_start_truncates :
    (after .frameStart (inFrame (frameAt (some .full) 5392 true))).siu.ended.map EndedFrame.truncated = [true]
      ∧ (after .frameStart (inFrame (frameAt (some .full) 5392 true))).siu.syncFaults = 1 := by decide +kernel
theorem test_af_packet_of_zone_48_is_dropped :
    (after (.afPacket 48 (List.replicate 64 0) (List.replicate 64 0)) (inFrame (frameAt (some .full) 0 false))).fe.collect
      = List.replicate 48 none := by decide +kernel
theorem test_raw_completion_keeps_bl_and_truncated :
    ((after .rawCompletion (endedShot .pre false)).record 1).map (fun r => (r.state, r.bl, r.truncated)) = some (.provisional, some 256, true) := by
  decide +kernel
/-- A stored shot that nothing wants is released straight after its notice (03, R48). -/
theorem test_raw_completion_releases_what_nothing_wants :
    (after .rawCompletion (endedShot .shot false)).cat.records = []
      ∧ (after .rawCompletion (endedShot .shot false)).ptc.bodyQueue = [.shotStored 1 1 .full .shot true, .shotReleased 1 false] := by
  decide +kernel
theorem test_shoot_waits : (after (.shoot (body 1) 1) (store [])).siu.shoot = some { tag := 7, focus := true, reason := .none, timer := some 1000 }
    ∧ (after (.shoot (body 1) 1) (store [])).ptc.bodyOut = [] := by decide +kernel
theorem test_shot_wait_expiry_for_space :
    lastResult (after .shotWaitExpiry (pressed 0 { shootOf false (some 0) with reason := .space })).ptc.bodyOut = some .bufferFull
      ∧ lastResult (after .shotWaitExpiry (pressed 0 (shootOf true (some 0)))).ptc.bodyOut = some .focusTimeout := by decide +kernel
theorem test_burst_begin_clamps : (after (.burstBegin (body 4) 0 1000 0) (store [])).siu.burst.divisor = 1
    ∧ (after (.burstBegin (body 4) 0 1000 0) (store [])).siu.burst.maximum = 999 := by decide +kernel
theorem test_burst_end_clears_shortage :
    let s := bursting 0 0 false
    (after (.burstEnd (body 0)) { s with siu := { s.siu with burst := { s.siu.burst with shortage := true } } }).siu.burst.shortage = false := by
  decide +kernel
theorem test_precapture_refused_when_warm :
    lastResult (after (.precapture (body 3) 0 2 1) { store [] with siu := { Siu.reset with thermal := .warm } }).ptc.bodyOut = some .thermal := by
  decide +kernel
theorem test_disarm_discards_the_ring :
    (after (.precapture (body 3) 1 0 0) { armed 0 0 with cat := { Cat.reset with records := [{ stored 1 with state := .provisional, kind := .pre }] } }).cat.records = [] := by
  decide +kernel
/-- Reversed travel is exchanged, Kc 0 taken as 1, the position clamped (R73). -/
theorem test_lens_state : (after (.lensState (lens 9) reversed) withLens).fe.lens
    = some { position := 16383, kc := 1, travelMin := 200, travelMax := 15000, moving := true } := by decide +kernel
theorem test_watch_needs_a_lens : lastResult (after (.watch (lens 1) 0) State.reset).ptc.lensOut = some .notReady := by decide +kernel
theorem test_lens_detach_empties_the_lens_queue :
    (after .lensDetach lawful).ptc.lensQueue = [] ∧ (after .lensDetach lawful).fe.lens = none := by decide +kernel
theorem test_snapshot_is_one_result :
    (after .focusResultReady (measuring .snapshot (some travel))).fe.watch = .none
      ∧ (after .focusResultReady (measuring .snapshot (some travel))).ptc.lensQueue.length = 1 := by decide +kernel
theorem test_no_lens_leaves_no_focus_record :
    ((after .focusResultReady (measuring .none none)).record 1).map Record.focus = some .absent := by decide +kernel
/-- A frame marked DISCARD has been discarded: its focus record stays PENDING (R35, R44, R49). -/
theorem test_discarded_frame_is_not_looked_for :
    let s := measuring .none (some travel)
    ((after .focusResultReady { s with cat := { s.cat with records := [{ stored 1 with focus := .pending, mark := .discard }] } }).record 1).map
      Record.focus = some .pending := by decide +kernel
theorem test_set_focus_keeps_the_tolerances_in_order :
    (after (.setFocus (body 14) { resetFocus with eIn := 40, eOut := 10 }) State.reset).fe.params.eOut = 40 := by decide +kernel
theorem test_tags_clear_then_set : ((after (.setTags (body 9) 1 1 3 9) (withShots [{ stored 1 with tags := 7 }])).record 1).map
    (fun r => (r.tags, r.rating)) = some (5, 5) := by decide +kernel
theorem test_protected_shot_stays : lastResult (after (.delete (body 4) 1) (withShots [{ stored 1 with guarded := true }])).ptc.bodyOut
    = some .protectedShot := by decide +kernel
theorem test_delete_returns_the_slabs : (after (.delete (body 4) 1) (withShots [stored 1])).fsc.freeList = List.range' 100 60 ++ [1]
    ∧ (after (.delete (body 4) 1) (withShots [stored 1])).ptc.bodyQueue = [.shotReleased 1 true] := by decide +kernel
/-- A DELETE in flight (03): the hold goes, the answer waits for the stripe, the chunk and the item. -/
theorem test_delete_in_flight_waits :
    let s := developing [{ held with proof := none, proofState := .pending }] [jobOf 1 .normal .running 3]
    ((after (.delete (body 4) 1) s).record 1).map (fun r => (r.state, r.hold, r.deleteTag)) = some (.deleting, false, some 7)
      ∧ (after (.delete (body 4) 1) s).ptc.bodyOut = [] := by decide +kernel
theorem test_hold_pins_both : ((after (.hold (body 4) 1) (withShots [stored 1])).record 1).map (fun r => (r.rawPins, r.proofPins)) = some (1, 1) := by
  decide +kernel
theorem test_unhold_releases : (after (.unhold (body 4) 1) (withShots [{ stored 1 with hold := true, rawPins := 1, proofPins := 1 }])).cat.records = [] := by
  decide +kernel
theorem test_read_needs_a_hold : lastResult (after (.readRaw (body 4) 1) (withShots [stored 1])).ptc.bodyOut = some .notHeld := by decide +kernel
theorem test_last_read_frame_ends_the_stream :
    (after .readFrameCompletion { withShots [held] with ptc := { Ptc.reset with read := some (streamAt 1157) } }).ptc.read = none := by decide +kernel
theorem test_load_tone_refused_in_use :
    lastResult (after (.loadTone (body 6) 0 0 1 [9]) (developing [stored 1] [jobOf 1 .normal .queued 0])).ptc.bodyOut = some .tableBusy := by
  decide +kernel
/-- 60 free slabs and reserve 38: a half proof's claim of 8 leaves 52 (06). -/
theorem test_develop_claims : (after (.develop (body 15) plainDevelop) (withShots [stored 1])).fsc.freeList.length = 52
    ∧ (after (.develop (body 15) plainDevelop) (withShots [stored 1])).dve.jobs.map Job.state = [.running] := by decide +kernel
theorem test_develop_waits_for_the_reserve :
    (after (.develop (body 15) plainDevelop) { withShots [stored 1] with fsc := { (withShots []).fsc with reserve := 53 } }).dve.jobs.map Job.state
      = [.waitSlabs] := by decide +kernel
/-- Lowering the reserve lets the waiting job claim (06, 11). -/
theorem test_lower_reserve_is_announced :
    let s := { developing [stored 1] [jobOf 1 .urgent .waitSlabs 0] with fsc := { (withShots []).fsc with reserve := 60 } }
    (after (.setParams (body 16) { startParams with reserve := 0 }) s).dve.jobs.map Job.state = [.running] := by decide +kernel
theorem test_open_slot_on_to_wait_extents :
    ((after (.openSlot (body 1) 0) (withSlotA (slotA .present [] [⟨1, .full⟩] none [] none) [{ stored 1 with reqA := .queued }])).slot .a).state
      = .waitExtents := by decide +kernel
theorem test_grant_starts_the_waiting_item :
    ((after (.grantExtents (body 10) 0 1 [⟨3000000, 200000⟩]) (withSlotA (slotA .waitExtents [⟨2196354, 3646⟩] [⟨1, .full⟩] none [] none)
      [{ stored 1 with reqA := .queued }])).slot .a).writing.map WritingItem.fragments = some [⟨2196354, 3646⟩, ⟨3000000, 144531⟩] := by
  decide +kernel
theorem test_close_slot_while_writing : lastResult (after (.closeSlot (body 1) 0) (slotIn .writing)).ptc.bodyOut = some .busy := by decide +kernel
theorem test_slot_full_empties_the_pool :
    ((after (.slotFull (body 1) 0) (withSlotA (slotA .idle [⟨0, 20000⟩] [] none [] none) [])).slot .a).pool = [] := by decide +kernel
theorem test_block_write_without_frame : lastResult (after (.blockWrite { body 6 with flags := 1 } 0 5000 1 none) (slotIn .idle)).ptc.bodyOut
    = some .badRequest := by decide +kernel
theorem test_block_read_is_issued : ((after (.blockRead (body 6) 0 5000 1) (slotIn .idle)).slot .a).op.map CardOp.timer = some 1500 := by
  decide +kernel
theorem test_last_chunk_ends_the_item :
    ((after (.cardChunkCompletion .a) (writingAt 72 true)).slot .a).state = .idle
      ∧ ((after (.cardChunkCompletion .a) (writingAt 72 true)).record 1).map Record.reqA = some .written := by decide +kernel
theorem test_chunk_read_starts_the_stall_timer :
    ((after (.chunkRawReadCompletion .a) (writingAt 40 false)).slot .a).op = some (chunkOp true) := by decide +kernel
theorem test_stall_fails_the_item :
    let s := (writingAt 30 true).updSlot .a fun x => { x with op := some { chunkOp true with timer := 0 } }
    ((after (.cardStallExpiry .a) s).slot .a).state = .fault
      ∧ (after (.cardStallExpiry .a) s).ptc.bodyQueue = [.cardItemDone 1 .a .failed 148177 61440 [⟨0, 148177⟩]] := by
  decide +kernel
/-- Under overflow a fault of A moves its item to B (07). -/
theorem test_fault_under_overflow :
    let s := writingAt 30 true
    let t := after (.cardErrorCompletion .a) { s with crw := { s.crw with contentA := true, contentB := true, overflow := true } }
    (t.record 1).map (fun r => (r.reqA, r.reqB)) = some (.notRequired, .queued) ∧ (t.slot .b).queue = [⟨1, .full⟩] := by decide +kernel
theorem test_card_lines : ((after (.cardRemoval .a) (slotIn .fault)).slot .a).state = .absent
    ∧ ((after (.cardInsert .b) State.reset).slot .b).state = .present := by decide +kernel
theorem test_retry_counts : (after (.retryCard (body 5) 1 2) (withSlotA (slotA .waitExtents [] [] none [] none) [{ stored 1 with reqA := .failed }])).ptc.bodyOut
    = [.response 0x9D 7 .ok false [1, 0]] := by decide +kernel
theorem test_waive_busy_while_writing : lastResult (after (.waiveCard (body 5) 1 0) (writingAt 30 true)).ptc.bodyOut = some .busy := by decide +kernel
theorem test_session_opens : (after (.openSession (tether 0)) State.reset).ttc.attached = true
    ∧ (after (.openSession (tether 0)) State.reset).ttc.silence = some 10000 := by decide +kernel
theorem test_silence_keeps_the_item :
    let s := attached [{ stored 1 with rawPins := 2 }, stored 2] [ready 1 2, sending 2 1 3 false]
    let t := after .silenceExpiry { s with ttc := { s.ttc with silence := some 0 } }
    t.ttc.attached = false ∧ t.ttc.queue.map (fun i => (i.serial, i.state)) = [(2, .ready), (1, .ready)] := by decide +kernel
/-- An expiry that a restart has overtaken does not happen (R159). -/
theorem test_silence_restarted_does_not_expire : (after .silenceExpiry (attached [] [])).ttc.attached = true := by decide +kernel
theorem test_bus_reset_empties_the_port :
    (after .usbBusReset { lawful with ptc := { lawful.ptc with tetherQueue := full 3 } }).ptc.tetherQueue = [] := by decide +kernel
theorem test_send_shot_joins_ready : (after (.sendShot (tether 6) 1 0 1) (attached [stored 1] [])).ttc.queue.map SendItem.state = [.ready]
    ∧ (after (.sendShot (tether 6) 1 0 1) (attached [stored 1] [])).ptc.tetherQueue = [.itemsReady 9 1] := by decide +kernel
/-- Third failure: out, FAILED; at the threshold auto-send is suspended (08). -/
theorem test_third_failure_suspends :
    let s := attached [{ stored 1 with rawPins := 1, markRaw := .queued, reqA := .queued }] [{ sending 2 1 1158 true with attempts := 2 }]
    let t := after (.itemResult (tether 5) 2 1) { s with ttc := { s.ttc with errors := 1, threshold := 2 } }
    t.ttc.queue = [] ∧ (t.ttc.errors, t.ttc.armed) = (2, false) ∧ (t.record 1).map Record.markRaw = some .failed := by decide +kernel
theorem test_cancel_drops : ((after (.cancelItem (tether 4) 1) (attached [{ stored 1 with rawPins := 1, reqA := .queued }] [ready 1 1])).record 1).map
    (fun r => (r.markRaw, r.rawPins)) = some (.dropped, 0) := by decide +kernel
/-- Rule 1 of the tethering example: rating 4 queues the raw. -/
theorem test_rating_sends_by_rule :
    let s := attached [stored 1] []
    let rule : SendRule := { SendRule.reset with enabled := true, minRating := 4 }
    let t := after (.setTags (tether 9) 1 0 0 4) { s with ttc := { s.ttc with rules := s.ttc.rules.set 1 rule } }
    t.ttc.queue.map (fun i => (i.shot, i.content, i.origin)) = [(1, .raw, some 1)] := by decide +kernel
/-- Clip count 433,520 of a FULL half proof meets a limit of 50 and not of 39 (R164). -/
theorem test_clip_limit :
    let r := { stored 1 with proofState := .done, proof := some { doneProof 40 with clipCount := 433520 } }
    SendRule.matchesRecord { SendRule.reset with enabled := true, content := .proof, maxClip := 50 } r = true
      ∧ SendRule.matchesRecord { SendRule.reset with enabled := true, content := .proof, maxClip := 39 } r = false := by decide +kernel
theorem test_rearm : (after (.rearmAutosend (body 1) 0) { State.reset with ttc := { Ttc.reset with errors := 8, armed := false } }).ttc.armed = true := by
  decide +kernel
theorem test_hot_ends_the_burst : (after (.thermalSample ⟨110, true⟩ ⟨40, true⟩) (warmPart .warm)).siu.engine = .idle := by decide +kernel
/-- The first sample event is 100 ms after the reset line, not 99 (09 R178). -/
def sampled (ms : Nat) : State :=
  after (.thermalSample ⟨96, true⟩ ⟨95, true⟩) { State.reset with thm := { Thm.reset with sinceSample := ms } }
theorem test_part_state_is_the_higher : (sampled 100).thm.part = .hot ∧ (sampled 100).thm.sinceSample = 0 := by decide +kernel
theorem test_sample_before_its_time : (sampled 99).thm.part = .normal ∧ (sampled 99).thm.die.reading = none := by decide +kernel
theorem test_tick_wraps : (after .timeBaseTick { State.reset with ptc := { Ptc.reset with timeBase := 4294967295 } }).ptc.timeBase = 0 := by
  decide +kernel
/-- A fetch of 8 from 32 leaves 24 (10). -/
theorem test_fetch_leaves_24 :
    (after (.fetchNotices (body 1) 8) { State.reset with ptc := { Ptc.reset with bodyQueue := full 31 ++ [.overrun 2] } }).ptc.bodyQueue
      = full 23 ++ [.overrun 2] := by decide +kernel
theorem test_attention_follows_the_queue : attention State.reset .body = false ∧ attention lawful .body = true := by decide +kernel
theorem test_reset_forgets_the_store : (after .resetLine (withShots [stored 1])).fsc.configured = false
    ∧ (after .resetLine (slotIn .writing)).crw.slotA.state = .present := by decide +kernel
theorem test_unknown_kind : (after (.unknownKindMessage .lens 45 9) State.reset).ptc.lensOut = [.response 0x80 9 .badRequest false []] := by
  decide +kernel
theorem test_identify : (after (.identify (lens 0)) State.reset).ptc.lensOut = [.response 0x90 7 .ok false [0x20, 0x07, 1, 2]] := by decide +kernel
theorem test_last_access_frees_the_chain : (after (.chainLastAccessCompletion [5]) releasing).fsc.freeList = [1, 5] := by decide +kernel

end Sys2Proof.Tests
end

section
/-! SUPPORT. The frame store: the reset values, CONFIGURE_STORE, the last access to a chain, the DRAM under every step. -/

namespace Sys2Proof.Machine

/-! ## The DRAM under every step (R1, R6) -/

theorem detachSession_dram (s : State) : (detachSession s).dram = s.dram := by
  have hs : ∀ (keep : Bool) (t : State), (settleSending keep t).dram = t.dram := fun keep t =>
    (settleSending_cascade keep t).frame.2.1
  unfold detachSession
  dsimp only
  split
  · exact hs _ _
  · exact ((dropItems_cascade _ _).frame.2.1).trans (hs _ _)

theorem suspendAutosend_dram (s : State) : (suspendAutosend s).dram = s.dram :=
  (Cascade.offerClass (State.offer _ _ _) Classes.autosend _ rfl).frame.2.1

theorem takeThreshold_dram (v : Nat) (s : State) : (takeThreshold v s).dram = s.dram := by
  unfold takeThreshold
  dsimp only
  split
  · exact suspendAutosend_dram _
  · rfl

theorem itemFailed_dram (h : Header) (i : SendItem) (s : State) (hs : s.sendingItem = some i) :
    (itemFailed h i s).dram = s.dram := by
  have hm : i ∈ s.ttc.queue := List.mem_of_find?_eq_some hs
  unfold itemFailed
  extract_lets t u v
  have hu : u.dram = s.dram := by
    show (if _ then _ else _ : State).dram = _
    split
    · exact (returnToHead_cascade { i with attempts := i.attempts + 1 } t ⟨i, hm, rfl, rfl, rfl⟩).frame.2.1
    · exact (leaveQueue_cascade i .failed t).frame.2.1
  have hv : v.dram = s.dram := ((testRelease_cascade i.shot _).frame.2.1).trans hu
  split
  · exact (suspendAutosend_dram v).trans hv
  · exact hv

theorem disarmRing_dram (s : State) : (disarmRing s).dram = s.dram :=
  (discardMembers_cascade _ _).frame.2.1

theorem handThermalToSiu_dram (t : Thermal) (s : State) : (handThermalToSiu t s).dram = s.dram := by
  unfold handThermalToSiu
  extract_lets leaves s1 s2
  have h2 : s2.dram = s.dram := by
    show (if _ then _ else _ : State).dram = _
    split
    · exact disarmRing_dram _
    · rfl
  split
  · exact h2
  · exact h2

theorem sampleTaken_dram (d k : Reading) (s : State) : (sampleTaken d k s).dram = s.dram := by
  unfold sampleTaken
  dsimp only
  split
  · rfl
  · exact ((Cascade.offerClass _ Classes.thermal _ rfl).frame.2.1).trans
      (((handThermalToDve_cascade _ _).frame.2.1).trans (handThermalToSiu_dram _ _))

/-- Every change of a command keeps the canonical form: but for the writes, none touches the DRAM. -/
theorem Act.keeps_canonical {s t : State} (a : Act s t) (hw : Memory.wf s.dram = true) : Memory.wf t.dram = true := by
  cases a with
  | prim p => rw [p.frame.2.1]; exact hw
  | dram f hf => exact hf _ hw
  | detach => rw [detachSession_dram]; exact hw
  | failed h i hs => rw [itemFailed_dram h i s hs]; exact hw
  | threshold v => rw [takeThreshold_dram]; exact hw
  | thermal d k => rw [sampleTaken_dram]; exact hw
  | _ => exact hw

/-- A step is a chain of changes on the state whose front command has left the queue. -/
theorem step_acts {s t : State} (h : step s = .next t) : t = s ∨ ∃ rest, Acts { s with pending := rest } t := by
  unfold step at h
  split at h
  · cases h; exact .inl rfl
  · exact .inr ⟨_, exec_acts h⟩

/-- Settles O54: the writes keep the canonical form (`writeChain_wf`), and nothing else touches the DRAM. -/
theorem dramStaysCanonical : Obligations.DramStaysCanonical := by
  intro s t h hw
  obtain rfl | ⟨rest, ha⟩ := step_acts h
  · exact hw
  · exact ha.keeps (P := fun x => Memory.wf x.dram = true) (fun _ _ a => a.keeps_canonical) hw

/-! ## Reset (R2 to R201) -/

/-- Entry i of the reset ramp is floor(i / 16) (R108). -/
theorem toneRamp_entry {i : Nat} (hi : i < 4096) : toneRamp[i]? = some (BitVec.ofNat 8 (i / 16)) := by
  simp [toneRamp, hi]

theorem toneRamp_length : toneRamp.length = 4096 := by simp [toneRamp]

/-- Settles O2: each value is the field of `State.reset`; the tone tables are the ramp of R108. -/
theorem resetValues : Obligations.ResetValues := by
  have tones : ∀ t ∈ State.reset.dve.tones, t.length = 4096 ∧ ∀ i, i < 4096 → t[i]? = some (BitVec.ofNat 8 (i / 16)) := by
    intro t ht
    have hr : t = toneRamp := List.eq_of_mem_replicate (n := 4) ht
    rw [hr]
    exact ⟨toneRamp_length, fun i hi => toneRamp_entry hi⟩
  unfold Obligations.ResetValues
  dsimp only
  iterate 46 refine ⟨rfl, ?_⟩
  refine ⟨tones, ?_⟩
  repeat' constructor

/-! ## CONFIGURE_STORE (R3) -/

theorem readSlabCount_none {v : Half} (h1 : v ≠ 1024) (h2 : v ≠ 2048) : readSlabCount v = none := by
  rw [readSlabCount, if_neg h1, if_neg h2]

theorem readSlabCount_some {v : Half} (h : v = 1024 ∨ v = 2048) : readSlabCount v = some v.toNat := by
  rcases h with rfl | rfl <;> rfl

theorem readMode_none {b : Byte} (h : 1 < b.toNat) : readMode b = none := by
  have h0 : b ≠ 0 := by rintro rfl; simp at h
  have h1 : b ≠ 1 := by rintro rfl; simp at h
  rw [readMode, if_neg h0, if_neg h1]

theorem readMode_some {b : Byte} (h : b.toNat ≤ 1) : readMode b = some (if b = 0 then .full else .crop) := by
  unfold readMode
  split
  · rfl
  · rw [if_pos (by bv_omega)]

theorem holdsAnything_iff (s : State) :
    s.holdsAnything = true ↔ s.cat.records ≠ [] ∨ s.dve.jobs ≠ [] ∨ s.siu.pre.armed = true ∨ s.fsc.releasing ≠ [] := by
  simp [State.holdsAnything, or_assoc]

/-- A request of the body port alone meets its owner with the state as it is. -/
theorem exec_configureStore {h : Header} {slabs : Half} {mode : Byte} {s : State}
    (hr : reachesOwner (.configureStore h slabs mode) h s) :
    exec (.configureStore h slabs mode) s = .next (ownConfigureStore h slabs mode s) := by
  have hp : h.port ≠ .tether := by
    obtain ⟨r, hc, hg, -⟩ := hr
    cases hc
    rintro hp
    rw [hp] at hg
    exact absurd hg (by decide)
  rw [exec_owner hr, atOwner_body hp]
  rfl

/-- Settles O10, by the owner's two tests in order. -/
theorem configureStore : Obligations.ConfigureStore := by
  intro h slabs mode s hr
  rw [exec_configureStore hr]
  refine ⟨fun hb => ?_, fun hs hm hh => ?_, fun hs hm h1 h2 h3 h4 => ?_⟩
  · have : ownConfigureStore h slabs mode s = s.refuse .configureStore h .badRequest := by
      unfold ownConfigureStore
      rcases hb with ⟨h1, h2⟩ | hb
      · rw [readSlabCount_none h1 h2]
      · rw [readMode_none hb]
        cases readSlabCount slabs <;> rfl
    rw [this]; rfl
  · unfold ownConfigureStore
    simp only [readSlabCount_some hs, readMode_some hm]
    rw [if_pos ((holdsAnything_iff s).mpr hh)]
    rfl
  · have hn : ¬ s.holdsAnything = true := by simp [holdsAnything_iff, h1, h2, h3, h4]
    unfold ownConfigureStore
    simp only [readSlabCount_some hs, readMode_some hm]
    rw [if_neg hn]
    rfl

/-! ## CHAIN_LAST_ACCESS_COMPLETION (R10, R11, R118) -/

/-- A chain whose accesses are taken away is in use just as it is with no access at all. -/
theorem chainInUse_without_own (s : State) (chain : List Nat) :
    (s.updFsc fun f => { f with accesses := f.accesses.filter fun a => a.chain != chain }).chainInUse chain
      = State.chainInUse { s with fsc := { s.fsc with accesses := [] } } chain := by
  have hn : (s.fsc.accesses.filter fun a => a.chain != chain).any (fun a => a.chain == chain) = false := by
    simp [List.any_eq_false]
  unfold State.chainInUse
  dsimp only [State.updFsc]
  rw [hn]
  rfl

/-- Without a waiting job the announcement of slabs has no taker (R11). -/
theorem announceSlabs_noWaiting {s : State} (h : ∀ j, s.currentJob = some j → j.state = .running) : announceSlabs s = s := by
  unfold announceSlabs
  split
  · rename_i j hj
    rw [if_neg (by simp [h j hj])]
  · rfl

theorem announceSlabs_waiting {s : State} {j : Job} (hj : s.currentJob = some j) (hw : j.state = .waitSlabs) :
    announceSlabs s = claimFor j s := by
  simp [announceSlabs, hj, hw]

theorem claimDevelop_granted {k : Nat} {s : State} (hc : s.fsc.configured = true)
    (hr : s.fsc.reserve + k ≤ s.fsc.freeList.length) : claimDevelop k s = some (s.fsc.freeList.take k, s.takeSlabs k) := by
  simp [claimDevelop, hc, hr]

/-- The only waiting release, with nothing left that holds it up, is carried out (R10). -/
theorem lastAccessDone_only {chain : List Nat} {s : State} (hr : s.fsc.releasing = [chain])
    (hu : State.chainInUse { s with fsc := { s.fsc with accesses := [] } } chain = false) :
    lastAccessDone chain s = announceSlabs { s with
      fsc := { s.fsc with freeList := s.fsc.freeList ++ chain, releasing := [],
                           accesses := s.fsc.accesses.filter fun a => a.chain != chain } } := by
  rw [← chainInUse_without_own] at hu
  unfold lastAccessDone
  rw [if_pos (by simp [hr])]
  simp only [State.updFsc_fsc, hr, settleReleases, if_neg (Bool.eq_false_iff.mp hu), carryOutRelease]
  simp only [State.updFsc, hr, List.erase_cons_head]

/-- Settles O11. -/
theorem lastAccessReturnsChain : Obligations.LastAccessReturnsChain := by
  intro chain s
  refine ⟨fun hn => ?_, fun hr hu => ⟨fun hj => ?_, fun j hj hw hc hl => ?_⟩⟩
  · show Host.Outcome.next (lastAccessDone chain s) = _
    rw [lastAccessDone, if_neg (by simpa using hn)]
  · show Host.Outcome.next (lastAccessDone chain s) = _
    rw [lastAccessDone_only hr hu, announceSlabs_noWaiting (by exact hj)]
  · show Host.Outcome.next (lastAccessDone chain s) = _
    rw [lastAccessDone_only hr hu, announceSlabs_waiting (j := j) (by exact hj) hw, claimFor,
      claimDevelop_granted (by exact hc) (by simpa using hl)]
    simp only [State.takeSlabs, State.updJob, State.updDve, State.updFsc, beq_iff_eq]

/-! ## LINE and the DRAM (R5, R6, R18) -/

theorem le_length (n v : Nat) : (le n v).length = n := by
  induction n generalizing v with
  | zero => rfl
  | succ n ih => simp [le, ih]

/-- A row of k groups of four samples packs into 7 k bytes (R200). -/
theorem packRow_length (k : Nat) (xs : List Sample) (h : xs.length = 4 * k) : (packRow xs).length = 7 * k := by
  induction k generalizing xs with
  | zero =>
    obtain rfl : xs = [] := List.length_eq_zero_iff.mp (by omega)
    rfl
  | succ k ih =>
    match xs, h with
    | a :: b :: c :: d :: rest, h =>
      simp only [packRow, packGroup, List.length_append, le_length, ih rest (by simp at h; omega)]
      omega

/-- A line of W samples packs into the B bytes of a row (R18). -/
theorem packRow_width (m : Mode) (xs : List Sample) (h : xs.length = m.width) : (packRow xs).length = m.rowBytes := by
  cases m
  · exact packRow_length 2016 xs h
  · exact packRow_length 1344 xs h

/-- A row of the frame lies within a raw's chain (R5, R18). -/
theorem row_inChain {m : Mode} {chain : List Nat} {k n : Nat} (hk : k < m.lines) (h16 : 16 ≤ k) (hc : chain.length = m.rawSlabs)
    (hn : n = m.rowBytes) : inChain chain ((k - 16) * m.rowBytes) n = true := by
  subst hn
  unfold inChain
  rw [hc]
  cases m <;> simp only [Mode.lines] at hk <;> simp only [Mode.rowBytes, Mode.rawSlabs, Config.slabBytes]
  · exact decide_eq_true (by omega)
  · exact decide_eq_true (by omega)

/-- The expected active line of W samples is written whole to its row (R17, R18). -/
theorem lineArrives_expected_dram {s : State} {f : Frame} {m : Mode} {c : Capture} {k : Nat} {xs : List Sample}
    (hf : s.siu.frame = some f) (hm : f.mode = some m) (hc : f.capture = some c) (hk : k = f.nextLine) (h16 : 16 ≤ k)
    (hl : k < m.lines) (hx : xs.length = m.width) :
    (lineArrives k xs s).dram = writeChain s.dram c.chain ((k - 16) * m.rowBytes) (packRow xs) := by
  have hfit : ∀ pad, fitLine m pad xs = xs := fun pad => by simp [fitLine, hx]
  have hob : ¬ k < obLines := by simp [obLines]; omega
  have hcap : (f.closeOb m).capture = some c := (Frame.closeOb_same f m).2.2.trans hc
  have hplace : (placeLine f m k xs s.dram).2 = writeChain s.dram c.chain ((k - 16) * m.rowBytes) (packRow xs) := by
    rw [placeLine, if_pos ⟨hk, hl⟩, takeLine]
    simp only [hx, lt_irrefl, if_false, if_neg hob, hfit, writeRow, hcap]
    rfl
  unfold lineArrives
  simp only [hf, hm]
  exact hplace

/-- Settles O19. -/
theorem lineMemory : Obligations.LineMemory := by
  intro k xs s f m c hf hm hc hk h16 hl hx hs
  have hlen := packRow_width m xs hx
  have hin : inChain c.chain ((k - 16) * m.rowBytes) (packRow xs).length = true := row_inChain hl h16 hs hlen
  have hd := lineArrives_expected_dram hf hm hc hk h16 hl hx
  refine ⟨_, rfl, hlen, fun a ha => ?_, fun hn i b a hb ha => ?_⟩
  · rw [hd]
    exact writeChain_other _ _ _ _ _ fun i hi => ha _ (by omega) (by omega)
  · rw [hd, writeChain, if_pos hin]
    exact writeRun_read hn _ _ _ _ _ _ hb ha

end Sys2Proof.Machine
end

section
/-! SUPPORT. List facts the laws of the books are proved with: at most one element of a kind, one element changed or taken out,
the first free number. -/

namespace Sys2Proof.Machine

/-- With distinct keys, at most one element of a kind means that any two of the kind have the same key. -/
theorem filter_length_le_one_iff {α β : Type} {l : List α} {k : α → β} {p : α → Bool} (hk : (l.map k).Nodup) :
    (l.filter p).length ≤ 1 ↔ ∀ a ∈ l, ∀ b ∈ l, p a = true → p b = true → k a = k b := by
  constructor
  · intro h a ha b hb pa pb
    have ha' : a ∈ l.filter p := List.mem_filter.mpr ⟨ha, pa⟩
    have hb' : b ∈ l.filter p := List.mem_filter.mpr ⟨hb, pb⟩
    match hl : l.filter p, h with
    | [], _ => rw [hl] at ha'; cases ha'
    | [x], _ =>
      rw [hl, List.mem_singleton] at ha' hb'
      rw [ha', hb']
  · intro h
    match hl : l.filter p with
    | [] => simp
    | [x] => simp
    | x :: y :: r =>
      have hx : x ∈ l.filter p := by simp [hl]
      have hy : y ∈ l.filter p := by simp [hl]
      have hn : ((l.filter p).map k).Nodup := hk.sublist (List.filter_sublist.map k)
      rw [hl] at hn
      have := h x (List.mem_filter.mp hx).1 y (List.mem_filter.mp hy).1 (List.mem_filter.mp hx).2 (List.mem_filter.mp hy).2
      simp [this] at hn

/-- With distinct keys an element is the only one of its key. -/
theorem eq_of_key_eq {α β : Type} {l : List α} {k : α → β} (hk : (l.map k).Nodup) {a b : α} (ha : a ∈ l) (hb : b ∈ l)
    (h : k a = k b) : a = b := List.inj_on_of_nodup_map hk ha hb h

/-- A number of the sequence that starts at `n` is not held, if the sequence does not repeat within the fuel and less numbers
are held than the fuel: `freeNumber` gives one. -/
theorem freeNumber_not_mem (next : Nat → Nat) (held : List Nat) (fuel n : Nat)
    (hinj : ∀ i j, i < fuel → j < fuel → next^[i] n = next^[j] n → i = j) (hlen : held.length < fuel) :
    freeNumber next held fuel n ∉ held := by
  have found : ∀ fuel n, (∃ i < fuel, next^[i] n ∉ held) → freeNumber next held fuel n ∉ held := by
    intro fuel
    induction fuel with
    | zero => rintro n ⟨i, hi, -⟩; omega
    | succ fuel ih =>
      rintro n ⟨i, hi, hn⟩
      unfold freeNumber
      split
      case isTrue hc =>
        cases i with
        | zero => exact absurd (by simpa using hc) hn
        | succ i => exact ih (next n) ⟨i, by omega, by simpa [Function.iterate_succ_apply] using hn⟩
      case isFalse hc => simpa using hc
  apply found
  by_contra hall
  push Not at hall
  have hsub : (Finset.range fuel).image (fun i => next^[i] n) ⊆ held.toFinset := by
    intro x hx
    obtain ⟨i, hi, rfl⟩ := Finset.mem_image.mp hx
    exact List.mem_toFinset.mpr (hall i (Finset.mem_range.mp hi))
  have hcard : ((Finset.range fuel).image (fun i => next^[i] n)).card = fuel := by
    rw [Finset.card_image_of_injOn, Finset.card_range]
    intro i hi j hj hij
    exact hinj i j (by simpa using hi) (by simpa using hj) hij
  have := Finset.card_le_card hsub
  have := List.toFinset_card_le held
  omega

/-- What every number of the sequence keeps, the free number has. -/
theorem freeNumber_keeps {P : Nat → Prop} (next : Nat → Nat) (hn : ∀ n, P n → P (next n)) (held : List Nat) (fuel n : Nat)
    (h : P n) : P (freeNumber next held fuel n) := by
  induction fuel generalizing n with
  | zero => exact h
  | succ fuel ih =>
    unfold freeNumber
    split
    · exact ih _ (hn _ h)
    · exact h

/-! ## Sums over lists with distinct keys -/

/-- What changes the elements of a key not in the list changes nothing. -/
theorem map_change_absent {α : Type} {l : List α} {k : α → Nat} {n : Nat} (hn : n ∉ l.map k) (f : α → α) :
    (l.map fun x => if k x == n then f x else x) = l := by
  refine (List.map_congr_left fun x hx => if_neg ?_).trans (List.map_id l)
  intro h
  exact hn (List.mem_map.mpr ⟨x, hx, by simpa using h⟩)

theorem filter_absent {α : Type} {l : List α} {k : α → Nat} {n : Nat} (hn : n ∉ l.map k) :
    (l.filter fun x => k x != n) = l := by
  refine List.filter_eq_self.mpr fun x hx => ?_
  simpa using fun h => hn (List.mem_map.mpr ⟨x, hx, h⟩)

/-- One element changed: the sum loses its old share and gains the new one. -/
theorem sum_map_change {α : Type} {l : List α} {k : α → Nat} (hk : (l.map k).Nodup) {a : α} (ha : a ∈ l) (f : α → α)
    (g : α → Nat) :
    ((l.map fun x => if k x == k a then f x else x).map g).sum + g a = (l.map g).sum + g (f a) := by
  induction l with
  | nil => cases ha
  | cons x l ih =>
    rw [List.map_cons, List.nodup_cons] at hk
    rcases List.mem_cons.mp ha with rfl | ha
    · rw [List.map_cons, map_change_absent hk.1]
      simp
      omega
    · have hx : (k x == k a) = false := by
        simpa using fun h : k x = k a => hk.1 (h ▸ List.mem_map_of_mem ha)
      have := ih hk.2 ha
      simp only [List.map_cons, List.sum_cons, hx] at this ⊢
      simp only [Bool.false_eq_true, if_false]
      omega

/-- One element taken out: the sum loses its share. -/
theorem sum_filter_out {α : Type} {l : List α} {k : α → Nat} (hk : (l.map k).Nodup) {a : α} (ha : a ∈ l) (g : α → Nat) :
    ((l.filter fun x => k x != k a).map g).sum + g a = (l.map g).sum := by
  induction l with
  | nil => cases ha
  | cons x l ih =>
    rw [List.map_cons, List.nodup_cons] at hk
    rcases List.mem_cons.mp ha with rfl | ha
    · rw [List.filter_cons_of_neg (by simp), filter_absent hk.1]
      simp
      omega
    · have hx : k x ≠ k a := fun h => hk.1 (h ▸ List.mem_map_of_mem ha)
      rw [List.filter_cons_of_pos (by simpa using hx)]
      have := ih hk.2 ha
      simp only [List.map_cons, List.sum_cons] at this ⊢
      omega

/-- The count of a value in chains put end to end is the sum of its counts. -/
theorem count_flatMap_sum {α : Type} (l : List α) (f : α → List Nat) (a : Nat) :
    (l.flatMap f).count a = (l.map fun x => (f x).count a).sum := by
  rw [List.count_flatMap]
  rfl

end Sys2Proof.Machine
end

section
/-! SUPPORT. The catalog's order (R68) and the send queue's law (R166, R177): every small change and every change of a command keeps
them. -/

namespace Sys2Proof.Machine

/-! ## The catalog's order -/

/-- The catalog's order is a matter of the shot numbers alone. -/
theorem catalogLaw_iff (s : State) :
    catalogLaw s ↔ (s.cat.records.map Record.shot).Pairwise (· < ·)
      ∧ (∀ n ∈ s.cat.records.map Record.shot, 1 ≤ n ∧ n < s.cat.nextShot)
      ∧ (s.cat.records.map Record.shot).length ≤ 256 ∧ 1 ≤ s.cat.nextShot ∧ s.cat.nextShot ≤ 4294967296 := by
  simp [catalogLaw]

/-- A catalog with the same next shot number and no other shots keeps the order. -/
theorem catalogLaw.of_sublist {s t : State} (h : catalogLaw s) (hn : t.cat.nextShot = s.cat.nextShot)
    (hs : (t.cat.records.map Record.shot).Sublist (s.cat.records.map Record.shot)) : catalogLaw t := by
  rw [catalogLaw_iff] at h ⊢
  obtain ⟨ho, hb, hl, h1, h2⟩ := h
  rw [hn]
  exact ⟨ho.sublist hs, fun n hm => hb n (hs.subset hm), hs.length_le.trans hl, h1, h2⟩

theorem catalogLaw.congr {s t : State} (h : catalogLaw s) (hc : t.cat = s.cat) : catalogLaw t :=
  h.of_sublist (by rw [hc]) (by rw [hc])

/-- No two records have one shot number. -/
theorem catalogLaw.nodup {s : State} (h : catalogLaw s) : (s.cat.records.map Record.shot).Nodup :=
  h.1.imp fun hab => Nat.ne_of_lt hab

theorem updRecord_shots (s : State) (n : Nat) (f : Record → Record) :
    (s.updRecord n f).cat.records.map Record.shot = s.cat.records.map Record.shot := by
  simp only [State.updRecord, State.updCat, List.map_map]
  refine List.map_congr_left fun r _ => ?_
  simp only [Function.comp]
  split <;> rfl

/-- Every small change keeps the catalog's order. -/
theorem Prim.keeps_catalog {s t : State} (p : Prim s t) (h : catalogLaw s) : catalogLaw t := by
  cases p with
  | record n f => exact h.of_sublist rfl (updRecord_shots s n f ▸ List.Sublist.refl _)
  | dropRecord n => exact h.of_sublist rfl (List.filter_sublist.map _)
  | _ => exact h

theorem Cascade.keeps_catalog {s t : State} (c : Cascade s t) (h : catalogLaw s) : catalogLaw t :=
  c.keeps (fun _ _ p => p.keeps_catalog) h

/-! ## The send queue -/

/-- The part of the send queue's law that does not ask for the session (R166, R177). -/
structure QueueOk (t : Ttc) : Prop where
  length : t.queue.length ≤ 64
  keys : (t.queue.map fun i => (i.shot, i.content)).Nodup
  serials : (t.queue.map SendItem.serial).Nodup
  range : ∀ n ∈ t.queue.map SendItem.serial, 1 ≤ n ∧ n ≤ 4294967295
  next : 1 ≤ t.nextSerial ∧ t.nextSerial ≤ 4294967295
  oneSending : ∀ a ∈ t.queue, ∀ b ∈ t.queue, a.state = .sending → b.state = .sending → a.serial = b.serial

theorem sendLaw_iff (s : State) :
    sendLaw s ↔ QueueOk s.ttc ∧ (s.ttc.attached = false → ∀ i ∈ s.ttc.queue, i.state ≠ .sending)
      ∧ s.ttc.silence.isSome = s.ttc.attached := by
  constructor
  · rintro ⟨h1, h2, h3, h4, h5, h6, h7, h8, h9⟩
    refine ⟨⟨h1, h2, h3, by simpa using h4, ⟨h5, h6⟩, ?_⟩, h8, h9⟩
    have := (filter_length_le_one_iff h3).mp h7
    intro a ha b hb sa sb
    exact this a ha b hb (by simp [sa]) (by simp [sb])
  · rintro ⟨⟨h1, h2, h3, h4, ⟨h5, h6⟩, h7⟩, h8, h9⟩
    refine ⟨h1, h2, h3, by simpa using h4, h5, h6, (filter_length_le_one_iff h3).mpr ?_, h8, h9⟩
    intro a ha b hb sa sb
    exact h7 a ha b hb (by simpa using sa) (by simpa using sb)

/-- A queue whose items all stood in the old one in the same order, sending no more than there, keeps the law. -/
theorem QueueOk.of_sublist {t u : Ttc} (h : QueueOk t) (hq : u.queue.Sublist t.queue) (hn : u.nextSerial = t.nextSerial) :
    QueueOk u where
  length := hq.length_le.trans h.length
  keys := h.keys.sublist (hq.map _)
  serials := h.serials.sublist (hq.map _)
  range := fun n hm => h.range n ((hq.map _).subset hm)
  next := hn ▸ h.next
  oneSending := fun a ha b hb => h.oneSending a (hq.subset ha) b (hq.subset hb)

/-- The item of a serial. -/
theorem QueueOk.unique {t : Ttc} (h : QueueOk t) {a b : SendItem} (ha : a ∈ t.queue) (hb : b ∈ t.queue)
    (hs : a.serial = b.serial) : a = b := eq_of_key_eq h.serials ha hb hs

theorem updItem_queue (s : State) (n : Nat) (f : SendItem → SendItem) :
    (s.updItem n f).ttc.queue = s.ttc.queue.map fun i => if i.serial == n then { f i with serial := i.serial } else i := rfl

theorem mem_updItem {s : State} {n : Nat} {f : SendItem → SendItem} {x : SendItem} (h : x ∈ (s.updItem n f).ttc.queue) :
    (x ∈ s.ttc.queue ∧ x.serial ≠ n) ∨ ∃ i ∈ s.ttc.queue, i.serial = n ∧ x = { f i with serial := i.serial } := by
  rw [updItem_queue] at h
  obtain ⟨i, hi, rfl⟩ := List.mem_map.mp h
  split
  case isTrue he => exact .inr ⟨i, hi, by simpa using he, rfl⟩
  case isFalse he => exact .inl ⟨hi, by simpa using he⟩

theorem updItem_serials (s : State) (n : Nat) (f : SendItem → SendItem) :
    (s.updItem n f).ttc.queue.map SendItem.serial = s.ttc.queue.map SendItem.serial := by
  rw [updItem_queue, List.map_map]
  refine List.map_congr_left fun r _ => ?_
  simp only [Function.comp]
  split <;> rfl

theorem updItem_keys (s : State) (n : Nat) (f : SendItem → SendItem) (hf : ∀ i, (f i).shot = i.shot ∧ (f i).content = i.content) :
    (s.updItem n f).ttc.queue.map (fun i => (i.shot, i.content)) = s.ttc.queue.map fun i => (i.shot, i.content) := by
  rw [updItem_queue, List.map_map]
  refine List.map_congr_left fun r _ => ?_
  simp only [Function.comp]
  split
  · simp [hf r]
  · rfl

/-- An item changed that keeps its shot and content: the queue keeps its law if what sends now sent before, or if nothing else
sends. -/
theorem QueueOk.updItem {s : State} {n : Nat} {f : SendItem → SendItem} (h : QueueOk s.ttc)
    (hf : ∀ i, (f i).shot = i.shot ∧ (f i).content = i.content)
    (hs : (∀ i, (f i).state = .sending → i.state = .sending) ∨ ∀ i ∈ s.ttc.queue, i.state ≠ .sending) :
    QueueOk (s.updItem n f).ttc where
  length := by rw [updItem_queue, List.length_map]; exact h.length
  keys := by rw [updItem_keys s n f hf]; exact h.keys
  serials := by rw [updItem_serials]; exact h.serials
  range := by rw [updItem_serials]; exact h.range
  next := h.next
  oneSending := by
    intro a ha b hb sa sb
    rcases hs with hs | hs
    · have old : ∀ x ∈ (s.updItem n f).ttc.queue, x.state = .sending →
          ∃ i ∈ s.ttc.queue, i.state = .sending ∧ i.serial = x.serial := by
        intro x hx sx
        rcases mem_updItem hx with ⟨hx, -⟩ | ⟨i, hi, -, rfl⟩
        · exact ⟨x, hx, sx, rfl⟩
        · exact ⟨i, hi, hs i sx, rfl⟩
      obtain ⟨i, hi, si, ei⟩ := old a ha sa
      obtain ⟨j, hj, sj, ej⟩ := old b hb sb
      rw [← ei, ← ej]
      exact h.oneSending i hi j hj si sj
    · have old : ∀ x ∈ (s.updItem n f).ttc.queue, x.state = .sending → x.serial = n := by
        intro x hx sx
        rcases mem_updItem hx with ⟨hx, -⟩ | ⟨i, hi, hn, rfl⟩
        · exact absurd sx (hs x hx)
        · exact hn
      rw [old a ha sa, old b hb sb]

/-! ### Serials -/

theorem nextSerialAfter_range {n : Nat} (h : 1 ≤ n ∧ n ≤ 4294967295) :
    1 ≤ nextSerialAfter n ∧ nextSerialAfter n ≤ 4294967295 := by
  unfold nextSerialAfter Config.wrap32
  split <;> omega

/-- The serials from n on, in closed form. -/
theorem nextSerialAfter_iterate {n : Nat} (h : 1 ≤ n ∧ n ≤ 4294967295) (i : Nat) :
    nextSerialAfter^[i] n = (n - 1 + i) % 4294967295 + 1 := by
  induction i with
  | zero => simp; omega
  | succ i ih =>
    rw [Function.iterate_succ_apply', ih, nextSerialAfter, Config.wrap32]
    split <;> omega

/-- The serial of a new item is in range and held by no item (R166). -/
theorem newSerial_fresh {s : State} (h : QueueOk s.ttc) (hl : s.ttc.queue.length < Config.maxSendItems) :
    (1 ≤ s.newSerial ∧ s.newSerial ≤ 4294967295) ∧ s.newSerial ∉ s.ttc.queue.map SendItem.serial := by
  refine ⟨freeNumber_keeps (P := fun n => 1 ≤ n ∧ n ≤ 4294967295) _ (fun _ => nextSerialAfter_range) _ _ _ h.next, ?_⟩
  refine freeNumber_not_mem _ _ _ _ (fun i j hi hj he => ?_) (by simpa using hl)
  rw [nextSerialAfter_iterate h.next, nextSerialAfter_iterate h.next] at he
  simp only [Config.maxSendItems] at hi hj
  omega

theorem itemFor_none {s : State} {n : Nat} {c : Content} :
    s.itemFor n c = none ↔ (n, c) ∉ s.ttc.queue.map fun i => (i.shot, i.content) := by
  simp only [State.itemFor, List.find?_eq_none, List.mem_map, Prod.mk.injEq, not_exists, not_and, Bool.and_eq_true, beq_iff_eq]

/-! ### What keeps the law -/

/-- An item becomes a proof where there is none of its shot (R62). -/
theorem QueueOk.rename {s : State} {i : SendItem} {st : ItemState} (h : QueueOk s.ttc) (hi : i ∈ s.ttc.queue)
    (hn : s.itemFor i.shot .proof = none) (hst : st ≠ .sending) :
    QueueOk (s.updItem i.serial fun x => { x with content := .proof, state := st }).ttc := by
  have key : ∀ x ∈ s.ttc.queue, x.serial = i.serial → x = i := fun x hx hs => h.unique hx hi hs
  refine ⟨by rw [updItem_queue, List.length_map]; exact h.length, ?_, ?_, ?_, h.next, ?_⟩
  · have := itemFor_none.mp hn
    rw [updItem_queue, List.map_map]
    refine List.Nodup.map_on ?_ (List.Nodup.of_map _ h.keys)
    intro x hx y hy hxy
    simp only [Function.comp] at hxy
    split at hxy <;> split at hxy
    case isTrue.isTrue ex ey => rw [key x hx (by simpa using ex), key y hy (by simpa using ey)]
    case isTrue.isFalse ex ey =>
      obtain rfl := key x hx (by simpa using ex)
      exact absurd (List.mem_map.mpr ⟨y, hy, hxy.symm⟩) this
    case isFalse.isTrue ex ey =>
      obtain rfl := key y hy (by simpa using ey)
      exact absurd (List.mem_map.mpr ⟨x, hx, hxy⟩) this
    case isFalse.isFalse ex ey => exact eq_of_key_eq h.keys hx hy hxy
  · rw [updItem_serials]; exact h.serials
  · rw [updItem_serials]; exact h.range
  · intro a ha b hb sa sb
    have old : ∀ x ∈ (s.updItem i.serial fun x => { x with content := .proof, state := st }).ttc.queue,
        x.state = .sending → x ∈ s.ttc.queue := by
      intro x hx sx
      rcases mem_updItem hx with ⟨hx, -⟩ | ⟨y, -, -, rfl⟩
      · exact hx
      · exact absurd sx hst
    exact h.oneSending a (old a ha sa) b (old b hb sb) sa sb

/-- A new item joins the queue (R166). -/
theorem QueueOk.join {s : State} {i : SendItem} (h : QueueOk s.ttc) (hst : i.state ≠ .sending) (hser : i.serial = s.newSerial)
    (hn : s.itemFor i.shot i.content = none) (hl : s.ttc.queue.length < Config.maxSendItems) :
    QueueOk (s.updTtc fun t => { t with queue := t.queue ++ [i], nextSerial := nextSerialAfter i.serial }).ttc := by
  obtain ⟨hr, hf⟩ := newSerial_fresh h hl
  rw [← hser] at hr hf
  refine ⟨?_, ?_, ?_, ?_, nextSerialAfter_range hr, ?_⟩
  · simp only [State.updTtc_ttc, List.length_append, List.length_singleton]
    simp only [Config.maxSendItems] at hl
    omega
  · simp only [State.updTtc_ttc, List.map_append, List.map_cons, List.map_nil]
    exact List.nodup_append.mpr ⟨h.keys, by simp, by simpa [List.mem_map] using itemFor_none.mp hn⟩
  · simp only [State.updTtc_ttc, List.map_append, List.map_cons, List.map_nil]
    exact List.nodup_append.mpr ⟨h.serials, by simp, by simpa [List.mem_map] using hf⟩
  · simp only [State.updTtc_ttc, List.map_append, List.map_cons, List.map_nil]
    intro n hn
    rcases List.mem_append.mp hn with hn | hn
    · exact h.range n hn
    · rw [List.mem_singleton.mp hn]; exact hr
  · simp only [State.updTtc_ttc]
    intro a ha b hb sa sb
    have old : ∀ x ∈ s.ttc.queue ++ [i], x.state = .sending → x ∈ s.ttc.queue := by
      intro x hx sx
      rcases List.mem_append.mp hx with hx | hx
      · exact hx
      · rw [List.mem_singleton.mp hx] at sx; exact absurd sx hst
    exact h.oneSending a (old a ha sa) b (old b hb sb) sa sb

/-- An item goes back to the head of the queue (R160, R172). -/
theorem QueueOk.back {s : State} {i : SendItem} (h : QueueOk s.ttc) (hst : i.state ≠ .sending)
    (ho : ∃ x ∈ s.ttc.queue, x.serial = i.serial ∧ x.shot = i.shot ∧ x.content = i.content) :
    QueueOk ((s.dropItem i.serial).updTtc fun t => { t with queue := i :: t.queue }).ttc := by
  obtain ⟨x, hx, hxs, hxn, hxc⟩ := ho
  have hsub : (s.ttc.queue.filter fun y => y.serial != i.serial).Sublist s.ttc.queue := List.filter_sublist
  have rest := h.of_sublist (u := (s.dropItem i.serial).ttc) hsub rfl
  have hout : ∀ y ∈ s.ttc.queue.filter fun y => y.serial != i.serial, y ∈ s.ttc.queue ∧ y.serial ≠ i.serial := by
    intro y hy
    exact ⟨hsub.subset hy, by simpa using (List.mem_filter.mp hy).2⟩
  have hlen : (s.ttc.queue.filter fun y => y.serial != i.serial).length < s.ttc.queue.length :=
    List.length_filter_lt_length_iff_exists.mpr ⟨x, hx, by simp [hxs]⟩
  have := h.length
  refine ⟨?_, ?_, ?_, ?_, rest.next, ?_⟩
  · show (i :: _).length ≤ 64
    simp only [List.length_cons, State.dropItem, State.updTtc_ttc]
    omega
  · show List.Nodup (_ :: _)
    refine List.nodup_cons.mpr ⟨?_, rest.keys⟩
    intro hm
    obtain ⟨y, hy, hk⟩ := List.mem_map.mp hm
    obtain ⟨hy, hne⟩ := hout y hy
    have : y = x := eq_of_key_eq h.keys hy hx (by simpa [hxn, hxc] using hk)
    exact hne (this ▸ hxs)
  · show List.Nodup (_ :: _)
    refine List.nodup_cons.mpr ⟨?_, rest.serials⟩
    intro hm
    obtain ⟨y, hy, hk⟩ := List.mem_map.mp hm
    exact (hout y hy).2 hk
  · intro n hn
    rcases List.mem_cons.mp hn with rfl | hn
    · exact hxs ▸ h.range _ (List.mem_map_of_mem hx)
    · exact rest.range n hn
  · intro a ha b hb sa sb
    have old : ∀ y ∈ i :: (s.ttc.queue.filter fun y => y.serial != i.serial), y.state = .sending → y ∈ s.ttc.queue := by
      intro y hy sy
      rcases List.mem_cons.mp hy with rfl | hy
      · exact absurd sy hst
      · exact (hout y hy).1
    exact h.oneSending a (old a ha sa) b (old b hb sb) sa sb

/-- Every small change keeps the send queue's law, the session apart. -/
theorem Prim.keeps_queueOk {s t : State} (p : Prim s t) (h : QueueOk s.ttc) : QueueOk t.ttc := by
  cases p with
  | dropItem n => exact h.of_sublist List.filter_sublist rfl
  | item n f hf => exact h.updItem (fun i => ⟨(hf i).1, (hf i).2.1⟩) (.inl fun i => (hf i).2.2)
  | rename i st hi hn hst => exact h.rename hi hn hst
  | join i hst hser hn hl => exact h.join hst hser hn hl
  | back i hst ho => exact h.back hst ho
  | drops => exact ⟨h.length, h.keys, h.serials, h.range, h.next, h.oneSending⟩
  | _ => exact h

theorem Cascade.keeps_queueOk {s t : State} (c : Cascade s t) (h : QueueOk s.ttc) : QueueOk t.ttc :=
  c.keeps (P := fun s => QueueOk s.ttc) (fun _ _ p => p.keeps_queueOk) h

/-- No small change sends an item. -/
theorem Prim.keeps_noSending {s t : State} (p : Prim s t) (h : ∀ i ∈ s.ttc.queue, i.state ≠ .sending) :
    ∀ i ∈ t.ttc.queue, i.state ≠ .sending := by
  cases p with
  | dropItem n => exact fun i hi => h i (List.mem_filter.mp hi).1
  | item n f hf =>
    intro x hx
    rcases mem_updItem hx with ⟨hx, -⟩ | ⟨i, hi, -, rfl⟩
    · exact h x hx
    · exact fun e => h i hi ((hf i).2.2 e)
  | rename i st hi hn hst =>
    intro x hx
    rcases mem_updItem hx with ⟨hx, -⟩ | ⟨i, hi, -, rfl⟩
    · exact h x hx
    · exact hst
  | join i hst =>
    intro x hx
    rcases List.mem_append.mp hx with hx | hx
    · exact h x hx
    · exact List.mem_singleton.mp hx ▸ hst
  | back i hst =>
    intro x hx
    rcases List.mem_cons.mp hx with rfl | hx
    · exact hst
    · exact h x (List.mem_filter.mp hx).1
  | _ => exact h

theorem Cascade.keeps_noSending {s t : State} (c : Cascade s t) (h : ∀ i ∈ s.ttc.queue, i.state ≠ .sending) :
    ∀ i ∈ t.ttc.queue, i.state ≠ .sending :=
  c.keeps (P := fun s => ∀ i ∈ s.ttc.queue, i.state ≠ .sending) (fun _ _ p => p.keeps_noSending) h

/-- A cascade keeps the send queue's law. -/
theorem Cascade.keeps_send {s t : State} (c : Cascade s t) (h : sendLaw s) : sendLaw t := by
  rw [sendLaw_iff] at h ⊢
  obtain ⟨hq, hd, hs⟩ := h
  obtain ⟨ha, hsil, -⟩ := c.session
  exact ⟨c.keeps_queueOk hq, fun e => c.keeps_noSending (hd (ha ▸ e)), by rw [ha, hsil]; exact hs⟩

/-! ### What a release leaves alone in the TTC -/

theorem releaseChain_ttc (c : List Nat) (s : State) : (releaseChain c s).ttc = s.ttc := by
  unfold releaseChain
  split
  · rfl
  · exact announceSlabs_ttc _

theorem releaseRaw_ttc (n : Nat) (s : State) : (releaseRaw n s).ttc = s.ttc := by
  unfold releaseRaw
  split
  · split
    · split
      · exact releaseChain_ttc _ _
      · rfl
    · rfl
  · rfl

theorem releaseProof_ttc (n : Nat) (s : State) : (releaseProof n s).ttc = s.ttc := by
  unfold releaseProof
  split
  · split
    · split
      · exact releaseChain_ttc _ _
      · rfl
    · rfl
  · rfl

theorem freeRecord_ttc (n : Nat) (s : State) : (freeRecord n s).ttc = s.ttc := by
  unfold freeRecord
  split
  · split
    · dsimp only
      split <;> rfl
    · rfl
  · rfl

theorem testRelease_ttc (n : Nat) (s : State) : (testRelease n s).ttc = s.ttc :=
  (freeRecord_ttc n _).trans ((releaseProof_ttc n _).trans (releaseRaw_ttc n s))

theorem leaveQueue_queue (i : SendItem) (m : TetherMark) (s : State) :
    (leaveQueue i m s).ttc.queue = s.ttc.queue.filter fun x => x.serial != i.serial := rfl

theorem leaveAndTest_queue (i : SendItem) (m : TetherMark) (s : State) :
    (leaveAndTest i m s).ttc.queue = s.ttc.queue.filter fun x => x.serial != i.serial := by
  rw [leaveAndTest, testRelease_ttc, leaveQueue_queue]

/-- The items of a list dropped one after the other: what is left are the items of other serials. -/
theorem dropItems_queue (is : List SendItem) (s : State) :
    (dropItems is s).ttc.queue = s.ttc.queue.filter fun x => !(is.map SendItem.serial).contains x.serial := by
  induction is generalizing s with
  | nil => simp [dropItems]
  | cons i is ih =>
    rw [dropItems, ih, leaveAndTest_queue, List.filter_filter]
    refine List.filter_congr fun x _ => ?_
    simp only [List.map_cons, List.contains_cons, Bool.not_or, bne]
    exact Bool.and_comm _ _

theorem answerCancel_ttc (i : SendItem) (s : State) : (answerCancel i s).ttc = s.ttc := by
  unfold answerCancel
  split <;> rfl

theorem endDeleted_queue (i : SendItem) (s : State) :
    (endDeleted i s).ttc.queue = s.ttc.queue.filter fun x => x.serial != i.serial := by
  rw [endDeleted, testRelease_ttc, answerCancel_ttc]
  rfl

theorem endCanceled_queue (i : SendItem) (s : State) :
    (endCanceled i s).ttc.queue = s.ttc.queue.filter fun x => x.serial != i.serial := by
  rw [endCanceled, testRelease_ttc, answerCancel_ttc]
  rfl

theorem becomeReady_queue (n : Nat) (s : State) :
    (becomeReady n s).ttc.queue = (s.updItem n fun i => { i with state := .ready }).ttc.queue := by
  unfold becomeReady
  dsimp only
  split <;> rfl

/-- An item returned to the head: every other item as it was. -/
theorem mem_returnToHead {i x : SendItem} {s : State} (hx : x ∈ (returnToHead i s).ttc.queue) :
    x = { i with state := .ready, transfer := none, cut := .clear, cancelTag := none }
      ∨ x ∈ s.ttc.queue ∧ x.serial ≠ i.serial := by
  rw [returnToHead, becomeReady_queue] at hx
  rcases mem_updItem hx with ⟨hx, hn⟩ | ⟨y, hy, hn, rfl⟩
  · rcases List.mem_cons.mp hx with rfl | hx
    · exact absurd rfl hn
    · exact .inr ⟨(List.mem_filter.mp hx).1, hn⟩
  · rcases List.mem_cons.mp hy with rfl | hy
    · exact .inl rfl
    · exact absurd hn (by simpa using (List.mem_filter.mp hy).2)

/-! ### Changes of a command -/

theorem sendingItem_none {s : State} : s.sendingItem = none ↔ ∀ i ∈ s.ttc.queue, i.state ≠ .sending := by
  simp [State.sendingItem]

theorem sendingItem_some {s : State} {i : SendItem} (h : s.sendingItem = some i) : i ∈ s.ttc.queue ∧ i.state = .sending := by
  have := List.find?_some h
  exact ⟨List.mem_of_find?_eq_some h, by simpa using this⟩

/-- Once the SENDING item is dealt with as under KEEP, none is SENDING. -/
theorem settleSending_noSending {s : State} (h : QueueOk s.ttc) :
    ∀ i ∈ (settleSending true s).ttc.queue, i.state ≠ .sending := by
  unfold settleSending
  split
  case _ hn => exact sendingItem_none.mp hn
  case _ i hi =>
    obtain ⟨hi, si⟩ := sendingItem_some hi
    have others : ∀ x ∈ s.ttc.queue.filter fun x => x.serial != i.serial, x.state ≠ .sending := by
      intro x hx sx
      obtain ⟨hx, hne⟩ := List.mem_filter.mp hx
      exact absurd (h.oneSending x hx i hi sx si) (by simpa using hne)
    dsimp only
    split
    · rw [endDeleted_queue, abandonFrame_ttc]; exact others
    · rw [endCanceled_queue, abandonFrame_ttc]; exact others
    · intro x hx
      rcases mem_returnToHead (by simpa using hx) with rfl | ⟨hx, hne⟩
      · simp
      · rw [abandonFrame_ttc] at hx
        exact fun sx => hne (h.oneSending x hx i hi sx si)

/-- Leaving the session keeps the send queue's law. -/
theorem detachSession_keeps_send {s : State} (h : sendLaw s) : sendLaw (detachSession s) := by
  obtain ⟨hq, -, -⟩ := (sendLaw_iff s).mp h
  unfold detachSession
  extract_lets u v
  have hu : QueueOk u.ttc := hq.of_sublist (List.Sublist.refl _) rfl
  have hc : Cascade u v := settleSending_cascade _ _
  obtain ⟨ha, hsil, -, -, -, -, hpol, -⟩ := hc.session
  have close : ∀ w : State, Cascade v w → (∀ i ∈ w.ttc.queue, i.state ≠ .sending) → sendLaw w := by
    intro w hw hn
    obtain ⟨ha', hsil', -⟩ := hw.session
    refine (sendLaw_iff w).mpr ⟨(hc.trans hw).keeps_queueOk hu, fun _ => hn, ?_⟩
    rw [ha', hsil', ha, hsil]
    rfl
  split
  case _ hk =>
    refine close v (.refl v) ?_
    have : v = settleSending true u := by
      show settleSending _ u = _
      rw [show (u.ttc.policy == DetachPolicy.keep) = true by rw [← hpol, hk]; rfl]
    rw [this]
    exact settleSending_noSending hu
  case _ hk =>
    refine close _ (dropItems_cascade _ _) ?_
    rw [dropItems_queue]
    intro i hi
    have := (List.mem_filter.mp hi)
    simp only [Bool.not_eq_true', List.contains_eq_mem, decide_eq_false_iff_not] at this
    exact absurd (List.mem_map_of_mem this.1) this.2

theorem sendLaw.congr {s t : State} (h : sendLaw s) (hq : t.ttc.queue = s.ttc.queue) (hn : t.ttc.nextSerial = s.ttc.nextSerial)
    (ha : t.ttc.attached = s.ttc.attached) (hs : t.ttc.silence.isSome = s.ttc.silence.isSome) : sendLaw t := by
  unfold sendLaw at h ⊢
  rw [hq, hn, ha, hs]
  exact h

theorem suspendAutosend_keeps_send {s : State} (h : sendLaw s) : sendLaw (suspendAutosend s) :=
  (Cascade.offerClass (State.offer _ _ _) Classes.autosend _ rfl).keeps_send
    ((Cascade.offerTether _ _ rfl).keeps_send (h.congr rfl rfl rfl rfl))

theorem takeThreshold_keeps_send {s : State} (v : Nat) (h : sendLaw s) : sendLaw (takeThreshold v s) := by
  unfold takeThreshold
  dsimp only
  split
  · exact suspendAutosend_keeps_send (h.congr rfl rfl rfl rfl)
  · exact h.congr rfl rfl rfl rfl

/-- A law that cascades, answers and the counts of the TTC keep, a failed transfer keeps. -/
theorem itemFailed_keeps {P : State → Prop} (hc : ∀ s t, Cascade s t → P s → P t) (ha : ∀ s p m, P s → P (s.send p m))
    (he : ∀ (s : State) (n : Nat), P s → P (s.updTtc fun t => { t with errors := n }))
    (hs : ∀ s, P s → P (suspendAutosend s)) {h : Header} {i : SendItem} {s : State} (hi : s.sendingItem = some i) (hp : P s) :
    P (itemFailed h i s) := by
  have hm := (sendingItem_some hi).1
  unfold itemFailed
  extract_lets t u v
  have pt : P t := he _ _ hp
  have pu : P u := by
    show P (if _ then _ else _)
    split
    · exact hc _ _ (returnToHead_cascade { i with attempts := i.attempts + 1 } t ⟨i, hm, rfl, rfl, rfl⟩) pt
    · exact hc _ _ (leaveQueue_cascade i .failed t) pt
  have pv : P v := hc _ _ (testRelease_cascade _ _) (ha _ _ _ pu)
  split
  · exact hs v pv
  · exact pv

theorem handThermalToSiu_keeps {P : State → Prop} (hc : ∀ s t, Cascade s t → P s → P t)
    (hu : ∀ (s : State) (f : Siu → Siu), P s → P (s.updSiu f)) (t : Thermal) {s : State} (hp : P s) :
    P (handThermalToSiu t s) := by
  unfold handThermalToSiu
  extract_lets leaves u v
  have pv : P v := by
    show P (if _ then _ else _)
    split
    · exact hc _ _ (discardMembers_cascade _ _) (hu _ _ (hu _ _ hp))
    · exact hu _ _ hp
  split
  · exact hu _ _ pv
  · exact pv

/-- A law that cascades and the SIU's and THM's own changes keep, a sample keeps. -/
theorem sampleTaken_keeps {P : State → Prop} (hc : ∀ s t, Cascade s t → P s → P t)
    (hu : ∀ (s : State) (f : Siu → Siu), P s → P (s.updSiu f)) (ht : ∀ (s : State) (f : Thm → Thm), P s → P (s.updThm f))
    (d k : Reading) {s : State} (hp : P s) : P (sampleTaken d k s) := by
  unfold sampleTaken
  dsimp only
  split
  · exact ht _ _ hp
  · exact hc _ _ ((handThermalToDve_cascade _ _).trans (.offerClass _ Classes.thermal _ rfl))
      (handThermalToSiu_keeps hc hu _ (ht _ _ hp))

/-- A new record keeps the catalog's order (R41). -/
theorem createRecord_keeps_catalog {s : State} (k : CaptureKind) (m : Mode) (n : Nat) (c : List Nat) (hs : s.catalogSpace = true)
    (h : catalogLaw s) : catalogLaw (createRecord k m n c s) := by
  simp only [State.catalogSpace, Bool.and_eq_true, decide_eq_true_eq] at hs
  simp only [Config.maxRecords, Config.shotNumbersSpent] at hs
  obtain ⟨ho, hb, hl, h1, h2⟩ := h
  have records : (createRecord k m n c s).cat.records = s.cat.records ++ [newRecord s k m n c] := rfl
  refine ⟨?_, ?_, ?_, ?_, ?_⟩
  · rw [records, List.map_append]
    refine List.pairwise_append.mpr ⟨ho, by simp, ?_⟩
    intro a ha b hb'
    obtain ⟨r, hr, rfl⟩ := List.mem_map.mp ha
    rw [List.map_singleton, List.mem_singleton] at hb'
    rw [hb']
    exact (hb r hr).2
  · intro r hr
    rw [records] at hr
    show 1 ≤ r.shot ∧ r.shot < s.cat.nextShot + 1
    rcases List.mem_append.mp hr with hr | hr
    · have := hb r hr
      omega
    · rw [List.mem_singleton.mp hr]
      exact ⟨h1, Nat.lt_succ_self _⟩
  · rw [records, List.length_append, List.length_singleton]
    omega
  · show 1 ≤ s.cat.nextShot + 1
    omega
  · show s.cat.nextShot + 1 ≤ _
    omega

/-- Every change of a command keeps the catalog's order. -/
theorem Act.keeps_catalog {s t : State} (a : Act s t) (h : catalogLaw s) : catalogLaw t := by
  have suspend : ∀ s, catalogLaw s → catalogLaw (suspendAutosend s) := fun s hs =>
    (Cascade.offerClass (State.offer _ _ _) Classes.autosend _ rfl).keeps_catalog
      ((Cascade.offerTether _ _ rfl).keeps_catalog (hs.congr rfl))
  cases a with
  | prim p => exact p.keeps_catalog h
  | taken k f m c hf hm hs =>
    exact (createRecord_keeps_catalog k m f.number c hs h).congr rfl
  | detach _ =>
    have settle : ∀ (k : Bool) (u : State), catalogLaw u → catalogLaw (settleSending k u) := fun k u hu =>
      (settleSending_cascade k u).keeps_catalog hu
    unfold detachSession
    dsimp only
    split
    · exact settle _ _ (h.congr rfl)
    · exact (dropItems_cascade _ _).keeps_catalog (settle _ _ (h.congr rfl))
  | failed hd i hi =>
    exact itemFailed_keeps (P := catalogLaw) (fun _ _ c => c.keeps_catalog) (fun _ _ _ hs => hs.congr rfl)
      (fun _ _ hs => hs.congr rfl) suspend hi h
  | threshold v =>
    unfold takeThreshold
    dsimp only
    split
    · exact suspend _ (h.congr rfl)
    · exact h.congr rfl
  | thermal d k =>
    exact sampleTaken_keeps (P := catalogLaw) (fun _ _ c => c.keeps_catalog) (fun _ _ hs => hs.congr rfl)
      (fun _ _ hs => hs.congr rfl) d k h
  | reset => exact ⟨by simp [resetPart, State.reset, Cat.reset], by simp [resetPart, State.reset, Cat.reset],
      by simp [resetPart, State.reset, Cat.reset], Nat.le_refl 1, by simp [resetPart, State.reset, Cat.reset]⟩
  | _ => exact h

/-- Every change of a command keeps the send queue's law. -/
theorem Act.keeps_send {s t : State} (a : Act s t) (h : sendLaw s) : sendLaw t := by
  cases a with
  | prim p => exact (Cascade.one p).keeps_send h
  | silence hs =>
    obtain ⟨hq, hd, -⟩ := (sendLaw_iff s).mp h
    have ha : s.ttc.attached = true := by
      rcases hs with ha | ⟨i, hi, si⟩
      · exact ha
      · by_contra hn
        exact hd (by simpa using hn) i hi si
    refine (sendLaw_iff _).mpr ⟨hq.of_sublist (List.Sublist.refl _) rfl, hd, ?_⟩
    show true = s.ttc.attached
    rw [ha]
  | attach =>
    obtain ⟨hq, -, -⟩ := (sendLaw_iff s).mp h
    exact (sendLaw_iff _).mpr ⟨hq.of_sublist (List.Sublist.refl _) rfl,
      fun e => absurd e (by decide : ¬ true = false), rfl⟩
  | detach _ => exact detachSession_keeps_send h
  | sending i t hi hn ha =>
    obtain ⟨hq, -, hs⟩ := (sendLaw_iff s).mp h
    refine (sendLaw_iff _).mpr ⟨hq.updItem (fun _ => ⟨rfl, rfl⟩) (.inr (sendingItem_none.mp hn)), fun e => ?_, hs⟩
    exact absurd (ha.symm.trans e) (by decide)
  | failed hd i hi =>
    exact itemFailed_keeps (P := sendLaw) (fun _ _ c => c.keeps_send) (fun _ _ _ hs => hs.congr rfl rfl rfl rfl)
      (fun _ _ hs => hs.congr rfl rfl rfl rfl) (fun _ => suspendAutosend_keeps_send) hi h
  | threshold v => exact takeThreshold_keeps_send v h
  | thermal d k =>
    exact sampleTaken_keeps (P := sendLaw) (fun _ _ c => c.keeps_send) (fun _ _ hs => hs.congr rfl rfl rfl rfl)
      (fun _ _ hs => hs.congr rfl rfl rfl rfl) d k h
  | tick =>
    refine h.congr rfl rfl rfl ?_
    show (s.ttc.silence.map (· - 1)).isSome = _
    simp
  | reset =>
    refine (sendLaw_iff _).mpr ⟨⟨?_, ?_, ?_, ?_, ?_, ?_⟩, ?_, rfl⟩ <;> simp [resetPart, State.reset, Ttc.reset]
  | _ => exact h.congr rfl rfl rfl rfl

/-- Every command keeps the catalog's order. -/
theorem exec_keeps_catalog {c : Instr} {s t : State} (h : exec c s = .next t) (hs : catalogLaw s) : catalogLaw t :=
  (exec_acts h).keeps (fun _ _ a => a.keeps_catalog) hs

/-- Every command keeps the send queue's law. -/
theorem exec_keeps_send {c : Instr} {s t : State} (h : exec c s = .next t) (hs : sendLaw s) : sendLaw t :=
  (exec_acts h).keeps (fun _ _ a => a.keeps_send) hs

end Sys2Proof.Machine
end

section
/-! SUPPORT. The develop engine's law (R110, R111, R116, R117, R123, R128) over one change of a job, and the slabs that the free list,
the releases, the records and the jobs hold (R13). -/

namespace Sys2Proof.Machine

/-! ## The law job by job -/

/-- A job that takes up its class: current or suspended (R123). -/
def Job.engaged (j : Job) : Bool := j.isCurrent || j.state == .suspended

/-- What a job may do under a thermal state (R116, R119). -/
def Thermal.allows (t : Thermal) (c : Priority) : Prop := t ≠ .hot ∧ (t = .warm → c = .urgent)

/-- The law of one job (R110, R111, R116, R128, R131). -/
structure Job.Ok (applied : Thermal) (j : Job) : Prop where
  number : j.number ≤ 65535
  progress : j.progress.isSome = true ↔ j.state = .running ∨ j.state = .suspended
  cancel : j.cancel = true → j.state = .running
  thermal : j.isCurrent = true → applied.allows j.cls
  stripes : ∀ p, j.progress = some p → p.histogram.length = 64
    ∧ p.histogram.sum = proofPixels j.mode j.params.scale p.next ∧ p.clipCount ≤ p.next * (32 * quadColumns j.mode)

/-- The law of the engine, its counts of jobs said of any two of them. -/
structure JobsOk (d : Dve) : Prop where
  length : d.jobs.length ≤ 32
  shots : (d.jobs.map Job.shot).Nodup
  numbers : (d.jobs.map Job.number).Nodup
  next : d.nextJob ≤ 65535
  each : ∀ j ∈ d.jobs, j.Ok d.applied
  oneCurrent : ∀ a ∈ d.jobs, ∀ b ∈ d.jobs, a.isCurrent = true → b.isCurrent = true → a.shot = b.shot
  onePerClass : ∀ a ∈ d.jobs, ∀ b ∈ d.jobs, a.cls = b.cls → a.engaged = true → b.engaged = true → a.shot = b.shot
  pending : d.pendingThermal.isSome = true → ∃ j ∈ d.jobs, j.state = .running

theorem developLaw_iff (s : State) : developLaw s ↔ JobsOk s.dve := by
  constructor
  · rintro ⟨h1, h2, h3, h4, h5, h6, h7, h8, h9, h10, h11, h12⟩
    refine ⟨h1, h2, h3, h5, fun j hj => ⟨h4 j hj, h8 j hj, h9 j hj, h10 j hj, h12 j hj⟩, (filter_length_le_one_iff h2).mp h6,
      fun a ha b hb hab ea eb => ?_, h11⟩
    refine (filter_length_le_one_iff h2).mp (h7 b.cls) a ha b hb ?_ ?_
    · simpa [Job.engaged, hab] using ea
    · simpa [Job.engaged] using eb
  · rintro ⟨h1, h2, h3, h4, h5, h6, h7, h8⟩
    refine ⟨h1, h2, h3, fun j hj => (h5 j hj).number, h4, (filter_length_le_one_iff h2).mpr h6,
      fun c => (filter_length_le_one_iff h2).mpr fun a ha b hb pa pb => ?_, fun j hj => (h5 j hj).progress,
      fun j hj => (h5 j hj).cancel, fun j hj => (h5 j hj).thermal, h8, fun j hj => (h5 j hj).stripes⟩
    simp only [Bool.and_eq_true, beq_iff_eq] at pa pb
    exact h7 a ha b hb (pa.1.trans pb.1.symm) pa.2 pb.2

/-- The job of a shot. -/
theorem JobsOk.unique {d : Dve} (h : JobsOk d) {a b : Job} (ha : a ∈ d.jobs) (hb : b ∈ d.jobs) (hs : a.shot = b.shot) :
    a = b := eq_of_key_eq h.shots ha hb hs

theorem job_mem {s : State} {n : Nat} {j : Job} (h : s.job n = some j) : j ∈ s.dve.jobs ∧ j.shot = n :=
  ⟨List.mem_of_find?_eq_some h, by simpa using List.find?_some h⟩

theorem job_none {s : State} {n : Nat} : s.job n = none ↔ ∀ j ∈ s.dve.jobs, j.shot ≠ n := by
  simp [State.job]

theorem JobsOk.job_eq {s : State} (h : JobsOk s.dve) {j : Job} (hj : j ∈ s.dve.jobs) : s.job j.shot = some j := by
  cases hn : s.job j.shot with
  | none => exact absurd rfl (job_none.mp hn j hj)
  | some x =>
    obtain ⟨hx, hs⟩ := job_mem hn
    rw [h.unique hx hj hs]

theorem currentJob_some {s : State} {j : Job} (h : s.currentJob = some j) : j ∈ s.dve.jobs ∧ j.isCurrent = true :=
  ⟨List.mem_of_find?_eq_some h, List.find?_some h⟩

theorem currentJob_none {s : State} : s.currentJob = none ↔ ∀ j ∈ s.dve.jobs, j.isCurrent = false := by
  simp only [State.currentJob, List.find?_eq_none, Job.isCurrent, Bool.not_eq_true]

theorem isCurrent_iff {j : Job} : j.isCurrent = true ↔ j.state = .running ∨ j.state = .waitSlabs := by
  simp [Job.isCurrent]

theorem engaged_iff {j : Job} : j.engaged = true ↔ j.isCurrent = true ∨ j.state = .suspended := by
  simp [Job.engaged]

/-! ## One change of a job -/

/-- A job as `updJob` leaves it. -/
def Job.updated (f : Job → Job) (j : Job) : Job := { f j with shot := j.shot, number := j.number }

theorem updJob_dve (s : State) (n : Nat) (f : Job → Job) :
    (s.updJob n f).dve = { s.dve with jobs := s.dve.jobs.map fun x => if x.shot == n then Job.updated f x else x } := rfl

theorem mem_updJob {s : State} {n : Nat} {f : Job → Job} {x : Job} (h : x ∈ (s.updJob n f).dve.jobs) :
    (x ∈ s.dve.jobs ∧ x.shot ≠ n) ∨ ∃ j ∈ s.dve.jobs, j.shot = n ∧ x = j.updated f := by
  rw [updJob_dve] at h
  obtain ⟨j, hj, rfl⟩ := List.mem_map.mp h
  split
  case isTrue he => exact .inr ⟨j, hj, by simpa using he, rfl⟩
  case isFalse he => exact .inl ⟨hj, by simpa using he⟩

theorem updJob_map_key {α : Type} (s : State) (n : Nat) (f : Job → Job) (k : Job → α)
    (hk : ∀ j ∈ s.dve.jobs, j.shot = n → k (j.updated f) = k j) : (s.updJob n f).dve.jobs.map k = s.dve.jobs.map k := by
  rw [updJob_dve, List.map_map]
  refine List.map_congr_left fun j hj => ?_
  simp only [Function.comp]
  split
  case isTrue he => exact hk j hj (by simpa using he)
  case isFalse => rfl

theorem dropJob_dve (s : State) (n : Nat) :
    (s.dropJob n).dve = { s.dve with jobs := s.dve.jobs.filter fun j => j.shot != n } := rfl

/-- One job changed: it must have the law itself, and take up the engine or its class only where it did before or nothing does. -/
theorem JobsOk.updJob {s : State} {j : Job} {f : Job → Job} (h : JobsOk s.dve) (hj : j ∈ s.dve.jobs)
    (hok : (j.updated f).Ok s.dve.applied)
    (hc : (j.updated f).isCurrent = true → j.isCurrent = true ∨ s.currentJob = none)
    (he : (j.updated f).engaged = true → (j.engaged = true ∧ (j.updated f).cls = j.cls)
      ∨ ∀ a ∈ s.dve.jobs, a.cls = (j.updated f).cls → a.engaged = false)
    (hp : j.state = .running → (j.updated f).state = .running ∨ s.dve.pendingThermal = none) :
    JobsOk (s.updJob j.shot f).dve := by
  have cases_mem : ∀ x ∈ (s.updJob j.shot f).dve.jobs, (x ∈ s.dve.jobs ∧ x.shot ≠ j.shot) ∨ x = j.updated f := by
    intro x hx
    rcases mem_updJob hx with hx | ⟨y, hy, hs, rfl⟩
    · exact .inl hx
    · exact .inr (by rw [h.unique hy hj hs])
  have mem_new : j.updated f ∈ (s.updJob j.shot f).dve.jobs :=
    List.mem_map.mpr ⟨j, hj, by simp; rfl⟩
  refine ⟨?_, ?_, ?_, h.next, ?_, ?_, ?_, ?_⟩
  · rw [updJob_dve, List.length_map]; exact h.length
  · rw [updJob_map_key s _ f Job.shot fun _ _ _ => rfl]; exact h.shots
  · rw [updJob_map_key s _ f Job.number fun _ _ _ => rfl]; exact h.numbers
  · intro x hx
    rcases cases_mem x hx with ⟨hx, -⟩ | rfl
    · exact h.each x hx
    · exact hok
  · have one : ∀ a ∈ s.dve.jobs, a.isCurrent = true → (j.updated f).isCurrent = true → a.shot = j.shot := by
      intro a ha ca cg
      rcases hc cg with cj | hn
      · exact h.oneCurrent a ha j hj ca cj
      · rw [currentJob_none.mp hn a ha] at ca; cases ca
    intro a ha b hb ca cb
    rcases cases_mem a ha with ⟨ha, na⟩ | rfl <;> rcases cases_mem b hb with ⟨hb, nb⟩ | rfl
    · exact h.oneCurrent a ha b hb ca cb
    · exact absurd (one a ha ca cb) na
    · exact absurd (one b hb cb ca) nb
    · rfl
  · have one : ∀ a ∈ s.dve.jobs, a.cls = (j.updated f).cls → a.engaged = true → (j.updated f).engaged = true →
        a.shot = j.shot := by
      intro a ha hac ea eg
      rcases he eg with ⟨ej, hcls⟩ | hn
      · exact h.onePerClass a ha j hj (hac.trans hcls) ea ej
      · rw [hn a ha hac] at ea; cases ea
    intro a ha b hb hab ea eb
    rcases cases_mem a ha with ⟨ha, na⟩ | rfl <;> rcases cases_mem b hb with ⟨hb, nb⟩ | rfl
    · exact h.onePerClass a ha b hb hab ea eb
    · exact absurd (one a ha hab ea eb) na
    · exact absurd (one b hb hab.symm eb ea) nb
    · rfl
  · intro hpend
    obtain ⟨r, hr, hrun⟩ := h.pending hpend
    by_cases hs : r.shot = j.shot
    · have hrj := h.unique hr hj hs
      rw [hrj] at hrun
      rcases hp hrun with hg | hn
      · exact ⟨_, mem_new, hg⟩
      · rw [show (s.updJob j.shot f).dve.pendingThermal = s.dve.pendingThermal from rfl, hn] at hpend; cases hpend
    · exact ⟨r, List.mem_map.mpr ⟨r, hr, by simp [hs]⟩, hrun⟩

/-- Jobs taken out of the list. -/
theorem JobsOk.dropJob {s : State} {n : Nat} (h : JobsOk s.dve)
    (hp : s.dve.pendingThermal = none ∨ ∀ j ∈ s.dve.jobs, j.shot = n → j.state ≠ .running) : JobsOk (s.dropJob n).dve := by
  have hsub : (s.dve.jobs.filter fun j => j.shot != n).Sublist s.dve.jobs := List.filter_sublist
  refine ⟨hsub.length_le.trans h.length, h.shots.sublist (hsub.map _), h.numbers.sublist (hsub.map _), h.next,
    fun j hj => h.each j (hsub.subset hj), fun a ha b hb => h.oneCurrent a (hsub.subset ha) b (hsub.subset hb),
    fun a ha b hb => h.onePerClass a (hsub.subset ha) b (hsub.subset hb), fun hpend => ?_⟩
  obtain ⟨r, hr, hrun⟩ := h.pending hpend
  rcases hp with hn | hn
  · rw [show (s.dropJob n).dve.pendingThermal = s.dve.pendingThermal from rfl, hn] at hpend; cases hpend
  · exact ⟨r, List.mem_filter.mpr ⟨hr, by simpa using fun hs => hn r hr hs hrun⟩, hrun⟩

/-- Another applied thermal state, if it allows the current job. -/
theorem JobsOk.applied {d : Dve} (h : JobsOk d) {t : Thermal} (ht : ∀ j ∈ d.jobs, j.isCurrent = true → t.allows j.cls) :
    JobsOk { d with applied := t } :=
  ⟨h.length, h.shots, h.numbers, h.next,
    fun j hj => ⟨(h.each j hj).number, (h.each j hj).progress, (h.each j hj).cancel, ht j hj, (h.each j hj).stripes⟩,
    h.oneCurrent, h.onePerClass, h.pending⟩

theorem JobsOk.pendingNone {d : Dve} (h : JobsOk d) : JobsOk { d with pendingThermal := none } :=
  ⟨h.length, h.shots, h.numbers, h.next, h.each, h.oneCurrent, h.onePerClass, fun e => by simp at e⟩

theorem JobsOk.pendingSome {d : Dve} (h : JobsOk d) (t : Thermal) (hr : ∃ j ∈ d.jobs, j.state = .running) :
    JobsOk { d with pendingThermal := some t } :=
  ⟨h.length, h.shots, h.numbers, h.next, h.each, h.oneCurrent, h.onePerClass, fun _ => hr⟩

/-! ### Job numbers -/

theorem nextJobAfter_range (n : Nat) : nextJobAfter n ≤ 65535 := by
  unfold nextJobAfter Config.wrap16
  omega

theorem nextJobAfter_iterate {n : Nat} (h : n ≤ 65535) (i : Nat) : nextJobAfter^[i] n = (n + i) % 65536 := by
  induction i with
  | zero => simp; omega
  | succ i ih =>
    rw [Function.iterate_succ_apply', ih, nextJobAfter, Config.wrap16]
    omega

/-- The number of a new job is in range and held by no job (R110). -/
theorem newJobNumber_fresh {s : State} (h : JobsOk s.dve) (hl : s.dve.jobs.length < Config.maxJobs) :
    s.newJobNumber ≤ 65535 ∧ s.newJobNumber ∉ s.dve.jobs.map Job.number := by
  refine ⟨freeNumber_keeps (P := fun n => n ≤ 65535) _ (fun n _ => nextJobAfter_range n) _ _ _ h.next, ?_⟩
  refine freeNumber_not_mem _ _ _ _ (fun i j hi hj he => ?_) (by simpa using hl)
  rw [nextJobAfter_iterate h.next, nextJobAfter_iterate h.next] at he
  simp only [Config.maxJobs] at hi hj
  omega

/-- A new QUEUED job at the tail of the list. -/
theorem JobsOk.add {s : State} (h : JobsOk s.dve) {j : Job} (hl : s.dve.jobs.length < Config.maxJobs)
    (hn : j.number = s.newJobNumber) (hs : s.job j.shot = none) (hq : j.state = .queued) (hc : j.cancel = false)
    (hp : j.progress = none) :
    JobsOk { s.dve with jobs := s.dve.jobs ++ [j], nextJob := nextJobAfter j.number } := by
  obtain ⟨hr, hf⟩ := newJobNumber_fresh h hl
  rw [← hn] at hr hf
  have notCurrent : j.isCurrent = false := by simp [Job.isCurrent, hq]
  have notEngaged : j.engaged = false := by simp [Job.engaged, notCurrent, hq]
  have mem : ∀ x ∈ s.dve.jobs ++ [j], x ∈ s.dve.jobs ∨ x = j := by simp
  refine ⟨?_, ?_, ?_, nextJobAfter_range _, ?_, ?_, ?_, ?_⟩
  · simp only [List.length_append, List.length_singleton]
    simp only [Config.maxJobs] at hl
    omega
  · simp only [List.map_append, List.map_cons, List.map_nil]
    exact List.nodup_append.mpr ⟨h.shots, by simp, by simpa using job_none.mp hs⟩
  · simp only [List.map_append, List.map_cons, List.map_nil]
    exact List.nodup_append.mpr ⟨h.numbers, by simp, by simpa using hf⟩
  · intro x hx
    rcases mem x hx with hx | rfl
    · exact h.each x hx
    · exact ⟨hr, by simp [hp, hq], by simp [hc], by simp [notCurrent], by simp [hp]⟩
  · intro a ha b hb ca cb
    rcases mem a ha with ha | rfl
    · rcases mem b hb with hb | rfl
      · exact h.oneCurrent a ha b hb ca cb
      · rw [notCurrent] at cb; cases cb
    · rw [notCurrent] at ca; cases ca
  · intro a ha b hb hab ea eb
    rcases mem a ha with ha | rfl
    · rcases mem b hb with hb | rfl
      · exact h.onePerClass a ha b hb hab ea eb
      · rw [notEngaged] at eb; cases eb
    · rw [notEngaged] at ea; cases ea
  · intro hpend
    obtain ⟨r, hr, hrun⟩ := h.pending hpend
    exact ⟨r, List.mem_append_left _ hr, hrun⟩

/-! ## The slabs that are held -/

/-- The slabs of a record: its raw and its proof. -/
def Record.slabs (r : Record) : List Nat := r.raw.getD [] ++ (match r.proof with | some p => p.chain | none => [])

/-- The slabs of a job that is not done. -/
def Job.slabs (j : Job) : List Nat := match j.progress with | some p => p.chain | none => []

/-- How often a slab number stands on the free list, in a waiting release, in a record or in a job. -/
def State.holdings (s : State) (a : Nat) : Nat :=
  s.fsc.freeList.count a + s.fsc.releasing.flatten.count a + (s.cat.records.map fun r => r.slabs.count a).sum
    + (s.dve.jobs.map fun j => j.slabs.count a).sum

theorem count_allSlabs (s : State) (a : Nat) : s.allSlabs.count a = s.holdings a := by
  unfold State.allSlabs State.holdings
  rw [List.count_append, List.count_append, List.count_append, count_flatMap_sum, count_flatMap_sum]
  rfl

/-- The store's law with some slabs in the hands of an operation under way (R13). -/
structure StoreOk (orphan : List Nat) (s : State) : Prop where
  count : ∀ a, s.holdings a + orphan.count a = (List.range s.fsc.slabCount).count a
  unconfigured : s.fsc.configured = false → s.fsc.slabCount = 0

theorem storeLaw_iff (s : State) : storeLaw s ↔ StoreOk [] s := by
  unfold storeLaw
  rw [List.perm_iff_count]
  constructor
  · rintro ⟨h, hc⟩
    exact ⟨fun a => by rw [← count_allSlabs, h a]; simp, hc⟩
  · rintro ⟨h, hc⟩
    exact ⟨fun a => by rw [count_allSlabs, ← h a]; simp, hc⟩

/-- The slabs stay where they are counted. -/
theorem StoreOk.of_count {s t : State} {o o' : List Nat} (h : StoreOk o s) (hc : t.fsc.configured = s.fsc.configured)
    (hn : t.fsc.slabCount = s.fsc.slabCount)
    (ha : ∀ a, t.holdings a + o'.count a = s.holdings a + o.count a) : StoreOk o' t :=
  ⟨fun a => by rw [ha, hn]; exact h.count a, by rw [hc, hn]; exact h.unconfigured⟩

theorem updJob_slabs {s : State} (h : JobsOk s.dve) {j : Job} (hj : j ∈ s.dve.jobs) (f : Job → Job) (a : Nat) :
    ((s.updJob j.shot f).dve.jobs.map fun x => x.slabs.count a).sum + j.slabs.count a
      = (s.dve.jobs.map fun x => x.slabs.count a).sum + (j.updated f).slabs.count a :=
  sum_map_change h.shots hj (Job.updated f) _

theorem dropJob_slabs {s : State} (h : JobsOk s.dve) {j : Job} (hj : j ∈ s.dve.jobs) (a : Nat) :
    ((s.dropJob j.shot).dve.jobs.map fun x => x.slabs.count a).sum + j.slabs.count a
      = (s.dve.jobs.map fun x => x.slabs.count a).sum :=
  sum_filter_out h.shots hj _

/-! ## What claims and picks do: a shuffle of jobs and slabs -/

/-- What of a job the catalog's books know: its shot, its mode, its cancel mark. -/
def Job.key (j : Job) : Nat × Mode × Bool := (j.shot, j.mode, j.cancel)

/-- A change of the jobs' states and of the slabs' places that the catalog, the TTC and the card writer do not see. -/
structure Shuffle (s t : State) : Prop where
  cat : t.cat = s.cat
  ttc : t.ttc = s.ttc
  crw : t.crw = s.crw
  configured : t.fsc.configured = s.fsc.configured
  slabCount : t.fsc.slabCount = s.fsc.slabCount
  releasing : t.fsc.releasing = s.fsc.releasing
  keys : t.dve.jobs.map Job.key = s.dve.jobs.map Job.key
  slabs : ∀ a, t.holdings a = s.holdings a
  jobs : JobsOk t.dve

theorem Shuffle.refl {s : State} (h : JobsOk s.dve) : Shuffle s s := ⟨rfl, rfl, rfl, rfl, rfl, rfl, rfl, fun _ => rfl, h⟩

theorem Shuffle.trans {s t u : State} (h : Shuffle s t) (k : Shuffle t u) : Shuffle s u :=
  ⟨k.cat.trans h.cat, k.ttc.trans h.ttc, k.crw.trans h.crw, k.configured.trans h.configured, k.slabCount.trans h.slabCount,
    k.releasing.trans h.releasing, k.keys.trans h.keys, fun a => (k.slabs a).trans (h.slabs a), k.jobs⟩

/-- A job changed that keeps its key and its slabs. -/
theorem Shuffle.updJob {s : State} {j : Job} {f : Job → Job} (h : JobsOk s.dve) (hj : j ∈ s.dve.jobs)
    (hk : (j.updated f).key = j.key) (hs : (j.updated f).slabs = j.slabs) (ht : JobsOk (s.updJob j.shot f).dve) :
    Shuffle s (s.updJob j.shot f) := by
  refine ⟨rfl, rfl, rfl, rfl, rfl, rfl, updJob_map_key s _ f Job.key fun x hx hxs => ?_, fun a => ?_, ht⟩
  · rw [h.unique hx hj hxs]; exact hk
  · have := updJob_slabs h hj f a
    rw [hs] at this
    have hj' : ((s.updJob j.shot f).dve.jobs.map fun x => x.slabs.count a).sum = (s.dve.jobs.map fun x => x.slabs.count a).sum := by
      omega
    unfold State.holdings
    rw [hj']
    rfl

/-- The histogram of a job that has done no stripe. -/
theorem freshProgress_ok (m : Mode) (sc : Scale) (chain : List Nat) :
    let p : Progress := { chain := chain, next := 0, clipCount := 0, histogram := List.replicate 64 0 }
    p.histogram.length = 64 ∧ p.histogram.sum = proofPixels m sc p.next ∧ p.clipCount ≤ p.next * (32 * quadColumns m) := by
  simp [proofPixels]

theorem Job.Ok.no_progress {t : Thermal} {j : Job} (h : j.Ok t) (hq : j.state = .queued ∨ j.state = .waitSlabs) :
    j.progress = none := by
  have := h.progress
  rcases hq with hq | hq <;> simpa [hq] using this

theorem Job.Ok.not_cancelled {t : Thermal} {j : Job} (h : j.Ok t) (hq : j.state ≠ .running) : j.cancel = false := by
  by_contra hc
  exact hq (h.cancel (by simpa using hc))

/-- The claim of a job that is QUEUED, with nothing current and its class free, or in WAIT_SLABS (R118). -/
theorem claimFor_shuffle {s : State} {j : Job} (h : JobsOk s.dve) (hj : j ∈ s.dve.jobs) (ht : s.dve.applied.allows j.cls)
    (hw : j.state = .waitSlabs
      ∨ j.state = .queued ∧ s.currentJob = none ∧ ∀ a ∈ s.dve.jobs, a.cls = j.cls → a.engaged = false) :
    Shuffle s (claimFor j s) := by
  have ok := h.each j hj
  have hstate : j.state ≠ .running := by rcases hw with hw | ⟨hw, -⟩ <;> simp [hw]
  have noprog : j.progress = none := ok.no_progress (hw.symm.imp And.left id)
  have nocancel := ok.not_cancelled hstate
  have cur : ∀ g : Job, g.isCurrent = true → j.isCurrent = true ∨ s.currentJob = none := fun _ _ => by
    rcases hw with hw | ⟨-, hn, -⟩
    · exact .inl (isCurrent_iff.mpr (.inr hw))
    · exact .inr hn
  have eng : (j.engaged = true ∧ j.cls = j.cls) ∨ ∀ a ∈ s.dve.jobs, a.cls = j.cls → a.engaged = false := by
    rcases hw with hw | ⟨-, -, hn⟩
    · exact .inl ⟨engaged_iff.mpr (.inl (isCurrent_iff.mpr (.inr hw))), rfl⟩
    · exact .inr hn
  unfold claimFor
  split
  case _ chain t hcl =>
    obtain ⟨-, -, rfl, rfl⟩ := claimDevelop_some hcl
    let f : Job → Job := fun x => { x with
      state := .running
      progress := some { chain := s.fsc.freeList.take (j.mode.proofSlabs j.params.scale), next := 0, clipCount := 0,
                         histogram := List.replicate 64 0 } }
    have law : JobsOk (s.updJob j.shot f).dve := by
      refine h.updJob hj ⟨ok.number, ?_, ?_, fun _ => ht, ?_⟩ (cur _) (fun _ => eng) fun hr => absurd hr hstate
      · exact ⟨fun _ => .inl rfl, fun _ => rfl⟩
      · exact fun _ => rfl
      · intro p hp
        have hp : some _ = some p := hp
        cases hp
        exact freshProgress_ok _ _ _
    refine ⟨rfl, rfl, rfl, rfl, rfl, rfl, updJob_map_key s j.shot f Job.key fun x _ _ => rfl, fun a => ?_, law⟩
    have hsum := updJob_slabs h hj f a
    have hold : j.slabs = [] := by simp [Job.slabs, noprog]
    have hnew : (j.updated f).slabs = s.fsc.freeList.take (j.mode.proofSlabs j.params.scale) := rfl
    have hfree : s.fsc.freeList.count a = (s.fsc.freeList.take (j.mode.proofSlabs j.params.scale)).count a
        + (s.fsc.freeList.drop (j.mode.proofSlabs j.params.scale)).count a := by
      rw [← List.count_append, List.take_append_drop]
    rw [hold, hnew] at hsum
    show (s.fsc.freeList.drop _).count a + s.fsc.releasing.flatten.count a
      + (s.cat.records.map fun r => r.slabs.count a).sum + ((s.updJob j.shot f).dve.jobs.map fun x => x.slabs.count a).sum = _
    unfold State.holdings
    rw [hfree]
    simp only [List.count_nil] at hsum
    omega
  case _ =>
    refine Shuffle.updJob h hj rfl rfl (h.updJob hj ⟨ok.number, ?_, ?_, fun _ => ht, ok.stripes⟩ (cur _) (fun _ => eng)
      fun hr => absurd hr hstate)
    · show j.progress.isSome = true ↔ _
      simp [noprog, Job.updated]
    · show j.cancel = true → _
      simp [nocancel]

theorem oldestJob_some {s : State} {st : JobState} {c : Priority} {j : Job} (h : s.oldestJob st c = some j) :
    j ∈ s.dve.jobs ∧ j.state = st ∧ j.cls = c := by
  have := List.find?_some h
  simp only [Bool.and_eq_true, beq_iff_eq] at this
  exact ⟨List.mem_of_find?_eq_some h, this.1.1, this.1.2⟩

theorem oldestJob_none {s : State} (hl : JobsOk s.dve) {c : Priority} (h : s.oldestJob .suspended c = none) :
    ∀ a ∈ s.dve.jobs, a.cls = c → a.state ≠ .suspended := by
  intro a ha hc hs
  have := List.find?_eq_none.mp h a ha
  simp [hs, hc, (hl.each a ha).not_cancelled (by simp [hs])] at this

/-- What the pick may take: a job the thermal state allows, SUSPENDED, or QUEUED with none of its class SUSPENDED (R117). -/
theorem nextPick_some {s : State} (hl : JobsOk s.dve) {j : Job} (h : s.nextPick = some j) :
    j ∈ s.dve.jobs ∧ s.dve.applied.allows j.cls
      ∧ (j.state = .suspended ∨ j.state = .queued ∧ ∀ a ∈ s.dve.jobs, a.cls = j.cls → a.state ≠ .suspended) := by
  have ofClass : ∀ c, (s.oldestJob .suspended c).or (s.oldestJob .queued c) = some j →
      j ∈ s.dve.jobs ∧ j.cls = c
        ∧ (j.state = .suspended ∨ j.state = .queued ∧ ∀ a ∈ s.dve.jobs, a.cls = j.cls → a.state ≠ .suspended) := by
    intro c hc
    rcases Option.or_eq_some_iff.mp hc with hs | ⟨hn, hq⟩
    · obtain ⟨hj, hs, hc⟩ := oldestJob_some hs
      exact ⟨hj, hc, .inl hs⟩
    · obtain ⟨hj, hq, hc⟩ := oldestJob_some hq
      exact ⟨hj, hc, .inr ⟨hq, hc ▸ oldestJob_none hl hn⟩⟩
  unfold State.nextPick at h
  dsimp only at h
  split at h
  · cases h
  case _ ha =>
    obtain ⟨hj, hc, hs⟩ := ofClass .urgent h
    exact ⟨hj, ⟨by simp [ha], fun _ => hc⟩, hs⟩
  case _ ha =>
    have hallow : ∀ c, s.dve.applied.allows c := fun c => ⟨by simp [ha], fun e => by simp [ha] at e⟩
    rw [Option.or_assoc] at h
    rcases Option.or_eq_some_iff.mp h with hu | ⟨-, hn⟩
    · obtain ⟨hj, -, hs⟩ := ofClass .urgent hu
      exact ⟨hj, hallow _, hs⟩
    · obtain ⟨hj, -, hs⟩ := ofClass .normal hn
      exact ⟨hj, hallow _, hs⟩

theorem pick_shuffle {s : State} (h : JobsOk s.dve) : Shuffle s (pick s) := by
  unfold pick
  split
  case _ j hcur hnext =>
    obtain ⟨hj, ht, hs⟩ := nextPick_some h hnext
    have ok := h.each j hj
    split
    case isTrue hsus =>
      have hsus : j.state = .suspended := by simpa using hsus
      refine Shuffle.updJob h hj rfl rfl (h.updJob hj ⟨ok.number, ?_, fun _ => rfl, fun _ => ht, ok.stripes⟩
        (fun _ => .inr hcur) (fun _ => .inl ⟨engaged_iff.mpr (.inr hsus), rfl⟩) fun _ => .inl rfl)
      exact ⟨fun _ => .inl rfl, fun _ => ok.progress.mpr (.inr hsus)⟩
    case isFalse hsus =>
      have hsus : j.state ≠ .suspended := by simpa using hsus
      obtain ⟨hq, hfree⟩ := hs.resolve_left hsus
      refine claimFor_shuffle h hj ht (.inr ⟨hq, hcur, fun a ha hc => ?_⟩)
      simp [Job.engaged, currentJob_none.mp hcur a ha, hfree a ha hc]
  · exact .refl h

theorem requeueWaiting_shuffle {s : State} (c : Job → Bool) (h : JobsOk s.dve) : Shuffle s (requeueWaiting c s) := by
  unfold requeueWaiting
  split
  case _ j hcur =>
    split
    case isTrue hw =>
      simp only [Bool.and_eq_true, beq_iff_eq] at hw
      obtain ⟨hj, -⟩ := currentJob_some hcur
      have ok := h.each j hj
      refine Shuffle.updJob h hj rfl rfl (h.updJob hj ⟨ok.number, ?_, ?_, ?_, ok.stripes⟩ ?_ ?_ ?_)
      · show j.progress.isSome = true ↔ _
        simp [ok.no_progress (.inr hw.1), Job.updated]
      · show j.cancel = true → _
        simp [ok.not_cancelled (by simp [hw.1])]
      · simp [Job.updated, Job.isCurrent]
      · simp [Job.updated, Job.isCurrent]
      · simp [Job.updated, Job.engaged, Job.isCurrent]
      · simp [hw.1]
    · exact .refl h
  · exact .refl h

theorem urgentAppears_shuffle {s : State} (h : JobsOk s.dve) : Shuffle s (urgentAppears s) := requeueWaiting_shuffle _ h

theorem announceSlabs_shuffle {s : State} (h : JobsOk s.dve) : Shuffle s (announceSlabs s) := by
  unfold announceSlabs
  split
  case _ j hcur =>
    split
    case isTrue hw =>
      obtain ⟨hj, hc⟩ := currentJob_some hcur
      exact claimFor_shuffle h hj ((h.each j hj).thermal hc) (.inl (by simpa using hw))
    · exact .refl h
  · exact .refl h

/-- A change of the DVE that leaves the jobs alone and keeps its law. -/
theorem Shuffle.dve {s : State} (f : Dve → Dve) (hj : (f s.dve).jobs = s.dve.jobs) (h : JobsOk (f s.dve)) :
    Shuffle s (s.updDve f) := by
  refine ⟨rfl, rfl, rfl, rfl, rfl, rfl, ?_, fun a => ?_, h⟩
  · rw [State.updDve_dve, hj]
  · unfold State.holdings
    rw [State.updDve_dve, hj]
    rfl

end Sys2Proof.Machine
end

section
/-! SUPPORT. The books shot by shot: what the catalog, the TTC, the DVE and the card writer hold of one shot, the law of one shot, and
the books as a whole, also while an operation on a shot is under way. -/

namespace Sys2Proof.Machine

/-! ## What the part holds of one shot -/

/-- All that refers to one shot: its record, its send items, its job (mode and cancel mark), its item in each card queue and in
each slot's writing place. -/
structure View where
  record : Option Record
  items : List SendItem
  job : Option (Nat × Mode × Bool)
  cards : SlotId → List CardItem
  writing : SlotId → Option CardItem

/-- What an operation on the slots holds in its hands: the items that a migration still has to take from slot A (R140), and what is
known of each slot. -/
structure Hands where
  moving : List CardItem
  law : SlotId → Slot → Prop

/-- Each slot keeps its law, and some items are in motion. -/
def Hands.holding (l : List CardItem) : Hands := ⟨l, fun _ => Slot.law⟩

/-- The card queue of a slot, with the items in motion counted as slot A's. -/
def State.cardQueue (s : State) (mv : Hands) : SlotId → List CardItem
  | .a => mv.moving ++ s.crw.slotA.queue
  | .b => s.crw.slotB.queue

/-- The item a slot writes. -/
def Slot.item (x : Slot) : Option CardItem := x.writing.map WritingItem.item

/-- What the part holds of shot n. -/
def State.view (s : State) (mv : Hands) (n : Nat) : View where
  record := s.record n
  items := s.ttc.queue.filter fun i => i.shot == n
  job := (s.dve.jobs.map Job.key).find? fun k => k.1 == n
  cards := fun k => (s.cardQueue mv k).filter fun x => x.shot == n
  writing := fun k => (s.slot k).item.filter fun x => x.shot == n

/-- How far the books of a shot are from closed while an operation on it is under way. -/
inductive Phase where
  /-- closed: the law holds -/
  | calm
  /-- DELETING, and nothing that refers to it ended yet (R59) -/
  | doomed
  /-- DELETING, of its send items only one that is SENDING and cut left, its job not cancelled yet (R59) -/
  | dying
  /-- its job has completed, and its waiting item does not know yet (R129, R169) -/
  | fresh
  /-- its item has been downgraded to a proof for which there is no job yet (R62) -/
  | bare
  deriving DecidableEq

/-- The state of a record that a send item may name (R177). -/
def Phase.itemState : Phase → Record → SendItem → Prop
  | .doomed, r, _ => r.state = .deleting
  | .dying, r, i => r.state = .deleting ∧ i.state = .sending ∧ i.cut = .delete
  | _, r, i => (r.state = if i.cut = .delete then .deleting else .stored) ∧ (i.cut = .delete → i.state = .sending)

/-- What a WAITING_PROOF item asks of its record. -/
def Phase.awaited : Phase → Record → Prop
  | .fresh, r => r.proof ≠ none
  | .bare, _ => True
  | _, r => r.proofState = .pending

/-- The state of a record that has a job (R130). -/
def Phase.jobState : Phase → Record → Bool → Prop
  | .doomed, r, _ => r.state = .deleting
  | .dying, r, _ => r.state = .deleting
  | _, r, cancel => r.state = if cancel then .deleting else .stored

/-- A send item and the record of its shot (R177). -/
structure ItemOk (p : Phase) (r : Record) (i : SendItem) : Prop where
  state : p.itemState r i
  raw : i.content = .raw → r.raw ≠ none
  waits : i.content = .proof → i.state = .waitingProof → p.awaited r
  proof : i.content = .proof → i.state ≠ .waitingProof → r.proof ≠ none

/-- The number of items of a content. -/
def View.naming (v : View) (c : Content) : Nat := v.items.countP fun i => i.content == c

/-- A record and what refers to it. -/
structure RecordOk (p : Phase) (v : View) (r : Record) : Prop where
  rawPins : r.rawPins = v.naming .raw + r.hold.toNat
  proofPins : r.proofPins = v.naming .proof + r.hold.toNat
  settled : r.raw = none → r.reqA.settled = true ∧ r.reqB.settled = true
  unstored : r.state = .exposing ∨ r.state = .provisional →
    r.raw ≠ none ∧ r.proof = none ∧ r.proofState = .none ∧ r.hold = false ∧ r.reqA = .notRequired ∧ r.reqB = .notRequired
  pending : r.state = .stored → (r.proofState = .pending ↔ v.job ≠ none)
  done : r.state = .stored → r.proofState = .done → r.proof ≠ none
  figures : ∀ x, r.proof = some x → x.histogram.length = 64
    ∧ x.histogram.sum = proofPixels r.mode x.params.scale r.mode.stripes ∧ x.clipCount ≤ r.mode.quads
  queued : ∀ k, r.req k = .queued ↔ v.cards k ≠ []
  writes : ∀ k, r.req k = .writing ↔ v.writing k ≠ none
  oneCard : ∀ k, (v.cards k).length ≤ 1
  cards : ∀ k, ∀ x ∈ v.cards k, x.mode = r.mode ∧ r.raw ≠ none
  writing : ∀ k, ∀ x, v.writing k = some x → x.mode = r.mode ∧ r.raw ≠ none
  job : ∀ k, v.job = some k → r.mode = k.2.1 ∧ r.raw ≠ none ∧ p.jobState r k.2.2
  items : ∀ i ∈ v.items, ItemOk p r i

/-- Nothing refers to a shot without a record. -/
structure View.Empty (v : View) : Prop where
  items : v.items = []
  job : v.job = none
  cards : ∀ k, v.cards k = []
  writing : ∀ k, v.writing k = none

/-- The law of one shot. -/
structure ShotOk (p : Phase) (v : View) : Prop where
  some : ∀ r, v.record = some r → RecordOk p v r
  none : v.record = none → v.Empty

/-- The books, with the phase of each shot, what an operation on the slots has in its hands, and the slabs an operation holds. -/
structure Books (ph : Nat → Phase) (mv : Hands) (orphan : List Nat) (s : State) : Prop where
  catalog : catalogLaw s
  queue : QueueOk s.ttc
  jobs : JobsOk s.dve
  store : StoreOk orphan s
  slots : ∀ k, mv.law k (s.slot k)
  shots : ∀ n, ShotOk (ph n) (s.view mv n)

/-- Every shot's books closed. -/
def calm : Nat → Phase := fun _ => .calm

/-- The books of one shot under way, every other shot's as before. -/
def Phase.at (ph : Nat → Phase) (n : Nat) (p : Phase) : Nat → Phase := Function.update ph n p

@[simp] theorem Phase.at_same (ph : Nat → Phase) (n : Nat) (p : Phase) : Phase.at ph n p n = p := by simp [Phase.at]
theorem Phase.at_ne (ph : Nat → Phase) {n m : Nat} (p : Phase) (h : m ≠ n) : Phase.at ph n p m = ph m := by simp [Phase.at, h]
@[simp] theorem Phase.at_at (ph : Nat → Phase) (n : Nat) (p q : Phase) : Phase.at (Phase.at ph n p) n q = Phase.at ph n q := by
  simp [Phase.at]
theorem Phase.at_self (ph : Nat → Phase) (n : Nat) : Phase.at ph n (ph n) = ph := by simp [Phase.at]

/-! ## Looking up -/

theorem record_mem {s : State} {n : Nat} {r : Record} (h : s.record n = some r) : r ∈ s.cat.records ∧ r.shot = n :=
  ⟨List.mem_of_find?_eq_some h, by simpa using List.find?_some h⟩

theorem record_shot {s : State} {n : Nat} {r : Record} (h : s.record n = some r) : r.shot = n := (record_mem h).2

theorem record_none {s : State} {n : Nat} : s.record n = none ↔ ∀ r ∈ s.cat.records, r.shot ≠ n := by
  simp [State.record]

theorem catalogLaw.record_eq {s : State} (h : catalogLaw s) {r : Record} (hr : r ∈ s.cat.records) :
    s.record r.shot = some r := by
  cases hn : s.record r.shot with
  | none => exact absurd rfl (record_none.mp hn r hr)
  | some x =>
    obtain ⟨hx, hs⟩ := record_mem hn
    rw [eq_of_key_eq h.nodup hx hr hs]

/-- A record as `updRecord` leaves it. -/
def Record.updated (f : Record → Record) (r : Record) : Record := { f r with shot := r.shot }

theorem updRecord_record (s : State) (n : Nat) (f : Record → Record) (m : Nat) :
    (s.updRecord n f).record m = (s.record m).map fun r => if r.shot == n then r.updated f else r := by
  unfold State.record State.updRecord State.updCat
  rw [List.find?_map]
  congr 2
  funext r
  simp only [Function.comp]
  split <;> rfl

theorem updRecord_record_same (s : State) (n : Nat) (f : Record → Record) :
    (s.updRecord n f).record n = (s.record n).map (Record.updated f) := by
  rw [updRecord_record]
  cases h : s.record n with
  | none => rfl
  | some r => simp [record_shot h]

theorem updRecord_record_ne (s : State) {n m : Nat} (f : Record → Record) (h : m ≠ n) :
    (s.updRecord n f).record m = s.record m := by
  rw [updRecord_record]
  cases hr : s.record m with
  | none => rfl
  | some r => simp [record_shot hr, h]

theorem dropRecord_record_same (s : State) (n : Nat) : (s.dropRecord n).record n = none := by
  rw [record_none]
  intro r hr
  simpa using (List.mem_filter.mp hr).2

theorem dropRecord_record_ne (s : State) {n m : Nat} (h : m ≠ n) : (s.dropRecord n).record m = s.record m := by
  unfold State.record State.dropRecord State.updCat
  dsimp only
  rw [List.find?_filter]
  congr 1
  funext r
  by_cases hr : r.shot = m
  · simp [hr, h]
  · simp [hr]

theorem view_job (s : State) (mv : Hands) (n : Nat) : (s.view mv n).job = (s.job n).map Job.key := by
  show (s.dve.jobs.map Job.key).find? _ = _
  rw [List.find?_map]
  rfl

/-- Views agree when their parts do. -/
theorem View.eq_of {v w : View} (h1 : v.record = w.record) (h2 : v.items = w.items) (h3 : v.job = w.job)
    (h4 : ∀ k, v.cards k = w.cards k) (h5 : ∀ k, v.writing k = w.writing k) : v = w := by
  cases v; cases w
  simp only [View.mk.injEq] at *
  exact ⟨h1, h2, h3, funext h4, funext h5⟩

theorem updRecord_view_ne (s : State) {n m : Nat} (f : Record → Record) (mv : Hands) (h : m ≠ n) :
    (s.updRecord n f).view mv m = s.view mv m :=
  View.eq_of (updRecord_record_ne s f h) rfl rfl (fun k => by cases k <;> rfl) (fun k => by cases k <;> rfl)

theorem updRecord_view_same (s : State) (n : Nat) (f : Record → Record) (mv : Hands) :
    (s.updRecord n f).view mv n = { s.view mv n with record := (s.record n).map (Record.updated f) } :=
  View.eq_of (updRecord_record_same s n f) rfl rfl (fun k => by cases k <;> rfl) (fun k => by cases k <;> rfl)

theorem dropRecord_view_ne (s : State) {n m : Nat} (mv : Hands) (h : m ≠ n) :
    (s.dropRecord n).view mv m = s.view mv m :=
  View.eq_of (dropRecord_record_ne s h) rfl rfl (fun k => by cases k <;> rfl) (fun k => by cases k <;> rfl)

theorem dropRecord_view_same (s : State) (n : Nat) (mv : Hands) :
    (s.dropRecord n).view mv n = { s.view mv n with record := none } :=
  View.eq_of (dropRecord_record_same s n) rfl rfl (fun k => by cases k <;> rfl) (fun k => by cases k <;> rfl)

/-! ## The law of a record -/

/-- What of a record the books know. -/
def Record.core (r : Record) : Mode × RecordState × Option (List Nat) × ProofState × Option DoneProof × Bool × Requirement
    × Requirement × Nat × Nat :=
  (r.mode, r.state, r.raw, r.proofState, r.proof, r.hold, r.reqA, r.reqB, r.rawPins, r.proofPins)

/-- A record with the same core and the same references has the law. -/
theorem RecordOk.congr {p : Phase} {v w : View} {r x : Record} (h : RecordOk p v r) (hc : x.core = r.core)
    (hi : w.items = v.items) (hj : w.job = v.job) (hk : ∀ k, w.cards k = v.cards k) (hw : ∀ k, w.writing k = v.writing k) :
    RecordOk p w x := by
  simp only [Record.core, Prod.mk.injEq] at hc
  obtain ⟨h1, h2, h3, h4, h5, h6, h7, h8, h9, h10⟩ := hc
  have hreq : ∀ k, x.req k = r.req k := fun k => by cases k <;> assumption
  have hnam : ∀ c, w.naming c = v.naming c := fun c => by simp [View.naming, hi]
  have hst : ∀ i, p.itemState r i → p.itemState x i := fun i => by cases p <;> simp only [Phase.itemState, h2] <;> exact id
  have haw : p.awaited r → p.awaited x := by cases p <;> simp only [Phase.awaited, h4, h5] <;> exact id
  have hjs : ∀ c, p.jobState r c → p.jobState x c := fun c => by cases p <;> simp only [Phase.jobState, h2] <;> exact id
  refine ⟨?_, ?_, ?_, ?_, ?_, ?_, ?_, ?_, ?_, ?_, ?_, ?_, ?_, ?_⟩
  · rw [h9, h6, hnam]; exact h.rawPins
  · rw [h10, h6, hnam]; exact h.proofPins
  · rw [h3, h7, h8]; exact h.settled
  · rw [h2, h3, h4, h5, h6, h7, h8]; exact h.unstored
  · rw [h2, h4, hj]; exact h.pending
  · rw [h2, h4, h5]; exact h.done
  · rw [h5, h1]; exact h.figures
  · intro k; rw [hreq, hk]; exact h.queued k
  · intro k; rw [hreq, hw]; exact h.writes k
  · intro k; rw [hk]; exact h.oneCard k
  · intro k; rw [hk, h1, h3]; exact h.cards k
  · intro k; rw [hw, h1, h3]; exact h.writing k
  · rw [hj, h1, h3]
    exact fun k e => ⟨(h.job k e).1, (h.job k e).2.1, hjs _ (h.job k e).2.2⟩
  · rw [hi]
    intro i hm
    have ok := h.items i hm
    exact ⟨hst i ok.state, by rw [h3]; exact ok.raw, fun c e => haw (ok.waits c e), by rw [h5]; exact ok.proof⟩

/-! ## The books under small changes -/

section
variable {ph : Nat → Phase} {mv : Hands} {o : List Nat} {s t : State}

/-- A change to one shot: the other shots' views are as before. -/
theorem Books.atShot {ph' : Nat → Phase} {mv' : Hands} {o' : List Nat} (h : Books ph mv o s) (n : Nat)
    (hc : catalogLaw t) (hq : QueueOk t.ttc) (hj : JobsOk t.dve) (hs : StoreOk o' t)
    (hk : ∀ k, mv'.law k (t.slot k)) (hother : ∀ m, m ≠ n → ph' m = ph m ∧ t.view mv' m = s.view mv m)
    (hn : ShotOk (ph' n) (t.view mv' n)) :
    Books ph' mv' o' t := by
  refine ⟨hc, hq, hj, hs, hk, fun m => ?_⟩
  by_cases hm : m = n
  · rw [hm]; exact hn
  · rw [(hother m hm).1, (hother m hm).2]; exact h.shots m

/-- A change that no shot's view sees. -/
theorem Books.sameViews {o' : List Nat} (h : Books ph mv o s) (hc : catalogLaw t) (hq : QueueOk t.ttc) (hj : JobsOk t.dve)
    (hs : StoreOk o' t) (hk : ∀ k, t.slot k = s.slot k) (hv : ∀ m, t.view mv m = s.view mv m) : Books ph mv o' t :=
  ⟨hc, hq, hj, hs, fun k => hk k ▸ h.slots k, fun m => hv m ▸ h.shots m⟩

/-- Views see the catalog, the send queue, the keys of the jobs, and the items of the slots. -/
theorem view_congr (hc : t.cat.records = s.cat.records) (hq : t.ttc.queue = s.ttc.queue)
    (hj : t.dve.jobs.map Job.key = s.dve.jobs.map Job.key)
    (hk : ∀ k, (t.slot k).queue = (s.slot k).queue ∧ (t.slot k).item = (s.slot k).item) (mv : Hands) (m : Nat) :
    t.view mv m = s.view mv m := by
  refine View.eq_of ?_ ?_ ?_ (fun k => ?_) (fun k => ?_)
  · simp only [State.view, State.record, hc]
  · simp only [State.view, hq]
  · simp only [State.view, hj]
  · have ha := (hk .a).1
    have hb := (hk .b).1
    simp only [State.slot] at ha hb
    cases k <;> simp only [State.view, State.cardQueue, ha, hb]
  · simp only [State.view, (hk k).2]

/-- A shuffle of jobs and slabs keeps the books. -/
theorem Books.shuffle (h : Books ph mv o s) (f : Shuffle s t) : Books ph mv o t := by
  have hslot : ∀ k, t.slot k = s.slot k := fun k => by cases k <;> simp only [State.slot, f.crw]
  refine h.sameViews (h.catalog.congr f.cat) ?_ f.jobs (h.store.of_count f.configured f.slabCount fun a => ?_)
    hslot (view_congr (by rw [f.cat]) (by rw [f.ttc]) f.keys (fun k => by rw [hslot k]; exact ⟨rfl, rfl⟩) mv)
  · rw [f.ttc]; exact h.queue
  · rw [f.slabs a]

/-- A change of the store's lists that accounts for every slab. -/
theorem Books.fsc {o' : List Nat} (h : Books ph mv o s) (f : Fsc → Fsc) (hf : (f s.fsc).configured = s.fsc.configured)
    (hn : (f s.fsc).slabCount = s.fsc.slabCount)
    (ha : ∀ a, (f s.fsc).freeList.count a + (f s.fsc).releasing.flatten.count a + o'.count a
      = s.fsc.freeList.count a + s.fsc.releasing.flatten.count a + o.count a) : Books ph mv o' (s.updFsc f) := by
  refine h.sameViews h.catalog h.queue h.jobs (h.store.of_count hf hn fun a => ?_)
    (fun k => by cases k <;> rfl) (view_congr rfl rfl rfl (fun k => by cases k <;> exact ⟨rfl, rfl⟩) mv)
  have := ha a
  unfold State.holdings
  simp only [State.updFsc_fsc, State.updFsc_cat, State.updFsc_dve]
  omega

/-- The parts of the state the books are kept in. -/
structure SameBooks (s t : State) : Prop where
  records : t.cat.records = s.cat.records
  nextShot : t.cat.nextShot = s.cat.nextShot
  queue : t.ttc.queue = s.ttc.queue
  nextSerial : t.ttc.nextSerial = s.ttc.nextSerial
  jobs : t.dve.jobs = s.dve.jobs
  nextJob : t.dve.nextJob = s.dve.nextJob
  applied : t.dve.applied = s.dve.applied
  pendingThermal : t.dve.pendingThermal = s.dve.pendingThermal
  slots : ∀ k, t.slot k = s.slot k
  configured : t.fsc.configured = s.fsc.configured
  slabCount : t.fsc.slabCount = s.fsc.slabCount
  freeList : t.fsc.freeList = s.fsc.freeList
  releasing : t.fsc.releasing = s.fsc.releasing

/-- A change to nothing of these keeps the books. -/
theorem Books.same (h : Books ph mv o s) (e : SameBooks s t) : Books ph mv o t := by
  refine h.sameViews (h.catalog.of_sublist e.nextShot (by rw [e.records]))
    (h.queue.of_sublist (by rw [e.queue]) e.nextSerial) ?_ (h.store.of_count e.configured e.slabCount fun a => ?_)
    e.slots (view_congr e.records e.queue (by rw [e.jobs]) (fun k => by rw [e.slots k]; exact ⟨rfl, rfl⟩) mv)
  · obtain ⟨h1, h2, h3, h4, h5, h6, h7, h8⟩ := h.jobs
    exact ⟨by rw [e.jobs]; exact h1, by rw [e.jobs]; exact h2, by rw [e.jobs]; exact h3, by rw [e.nextJob]; exact h4,
      by rw [e.jobs, e.applied]; exact h5, by rw [e.jobs]; exact h6, by rw [e.jobs]; exact h7,
      by rw [e.jobs, e.pendingThermal]; exact h8⟩
  · unfold State.holdings
    rw [e.freeList, e.releasing, e.records, e.jobs]

/-- A change outside the blocks that hold the books. -/
theorem SameBooks.of_blocks (hc : t.cat = s.cat) (hq : t.ttc = s.ttc) (hd : t.dve = s.dve) (hk : t.crw = s.crw)
    (hf : t.fsc = s.fsc) : SameBooks s t := by
  have hslot : ∀ k, t.slot k = s.slot k := fun k => by cases k <;> simp only [State.slot, hk]
  constructor <;> simp only [hc, hq, hd, hf, hslot, implies_true]

theorem SameBooks.ptc (s : State) (f : Ptc → Ptc) : SameBooks s (s.updPtc f) := .of_blocks rfl rfl rfl rfl rfl
theorem SameBooks.siu (s : State) (f : Siu → Siu) : SameBooks s (s.updSiu f) := .of_blocks rfl rfl rfl rfl rfl
theorem SameBooks.fe (s : State) (f : Fe → Fe) : SameBooks s (s.updFe f) := .of_blocks rfl rfl rfl rfl rfl
theorem SameBooks.thm (s : State) (f : Thm → Thm) : SameBooks s (s.updThm f) := .of_blocks rfl rfl rfl rfl rfl
theorem SameBooks.dram (s : State) (f : Memory → Memory) : SameBooks s (s.updDram f) := .of_blocks rfl rfl rfl rfl rfl

theorem Books.sent (h : Books ph mv o s) (p : Port) (m : OutMsg) : Books ph mv o (s.send p m) := h.same (.ptc s _)
theorem Books.respond (h : Books ph mv o s) (r : Request) (p : Port) (tag : Byte) (x : Result) (b : List Byte) (d : Bool) :
    Books ph mv o (s.respond r p tag x b d) := h.sent _ _
theorem Books.answer (h : Books ph mv o s) (r : Request) (hd : Header) (b : List Byte) : Books ph mv o (s.answer r hd b) :=
  h.sent _ _
theorem Books.offer (h : Books ph mv o s) (p : Port) (n : Notice) : Books ph mv o (s.offer p n) := h.same (.ptc s _)
theorem Books.offerClass (h : Books ph mv o s) (e : Classes → Bool) (n : Notice) : Books ph mv o (s.offerClass e n) := by
  unfold State.offerClass
  split
  · exact h.offer _ _
  · exact h

/-- Whichever of two states is taken. -/
theorem Books.either (c : Prop) [Decidable c] (hs : Books ph mv o s) (ht : Books ph mv o t) :
    Books ph mv o (if c then s else t) := by
  split
  · exact hs
  · exact ht

/-! ### Records -/

theorem updRecord_slabs (h : catalogLaw s) {n : Nat} {r : Record} (hr : s.record n = some r) (f : Record → Record) (a : Nat) :
    ((s.updRecord n f).cat.records.map fun x => x.slabs.count a).sum + r.slabs.count a
      = (s.cat.records.map fun x => x.slabs.count a).sum + (r.updated f).slabs.count a := by
  obtain ⟨hm, rfl⟩ := record_mem hr
  exact sum_map_change h.nodup hm (Record.updated f) _

theorem dropRecord_slabs (h : catalogLaw s) {n : Nat} {r : Record} (hr : s.record n = some r) (a : Nat) :
    ((s.dropRecord n).cat.records.map fun x => x.slabs.count a).sum + r.slabs.count a
      = (s.cat.records.map fun x => x.slabs.count a).sum := by
  obtain ⟨hm, rfl⟩ := record_mem hr
  exact sum_filter_out h.nodup hm _

theorem updRecord_absent (s : State) {n : Nat} (f : Record → Record) (hr : s.record n = none) : s.updRecord n f = s := by
  have hn : n ∉ s.cat.records.map Record.shot := by simpa using record_none.mp hr
  show { s with cat := { s.cat with records := s.cat.records.map fun x => if x.shot == n then x.updated f else x } } = s
  rw [map_change_absent hn]

/-- One record changed: it must have the law, and its slabs be accounted for. -/
theorem Books.updRecord {ph' : Nat → Phase} {o' : List Nat} {n : Nat} {r : Record} {f : Record → Record} (h : Books ph mv o s)
    (hr : s.record n = some r) (hph : ∀ m, m ≠ n → ph' m = ph m)
    (hs : ∀ a, (r.updated f).slabs.count a + o'.count a = r.slabs.count a + o.count a)
    (hok : RecordOk (ph n) (s.view mv n) r → RecordOk (ph' n) (s.view mv n) (r.updated f)) :
    Books ph' mv o' (s.updRecord n f) := by
  refine h.atShot n ((Cascade.record s n f).keeps_catalog h.catalog) h.queue h.jobs
    (h.store.of_count rfl rfl fun a => ?_) h.slots (fun m hm => ⟨hph m hm, updRecord_view_ne s f mv hm⟩) ?_
  · have h1 := updRecord_slabs h.catalog hr f a
    have h2 := hs a
    unfold State.holdings
    simp only [State.updRecord_fsc, State.updRecord_dve]
    omega
  · rw [updRecord_view_same]
    refine ⟨fun x hx => ?_, fun hx => ?_⟩
    · rw [hr] at hx
      have hx : some (r.updated f) = some x := hx
      cases hx
      exact (hok ((h.shots n).some r hr)).congr rfl rfl rfl (fun _ => rfl) (fun _ => rfl)
    · rw [hr] at hx
      cases hx

/-- A record changed outside its core. -/
theorem Books.inert {n : Nat} {f : Record → Record} (h : Books ph mv o s) (hf : ∀ r, (f r).core = r.core) :
    Books ph mv o (s.updRecord n f) := by
  cases hr : s.record n with
  | none => rw [updRecord_absent s f hr]; exact h
  | some r =>
    have hc : (r.updated f).core = r.core := hf r
    refine h.updRecord hr (fun _ _ => rfl) (fun a => ?_) fun ok => ok.congr hc rfl rfl (fun _ => rfl) (fun _ => rfl)
    simp only [Record.core, Prod.mk.injEq] at hc
    obtain ⟨-, -, h3, -, h5, -⟩ := hc
    simp only [Record.slabs, h3, h5]

theorem Books.setMark (h : Books ph mv o s) (n : Nat) (c : Content) (m : TetherMark) : Books ph mv o (s.setMark n c m) := by
  cases c <;> exact h.inert fun _ => rfl

/-! ## Releases -/

/-- A release carried out gives the store the slabs (R10, R11). -/
theorem Books.carryOutRelease {c : List Nat} (h : Books ph mv (c ++ o) s) : Books ph mv o (carryOutRelease c s) := by
  have hf := h.fsc (o' := o) (fun f => { f with freeList := f.freeList ++ c }) rfl rfl fun a => by
    simp only [List.count_append]
    omega
  exact hf.shuffle (announceSlabs_shuffle hf.jobs)

/-- A release taken by the store: its slabs are on the free list or wait there (R10). -/
theorem Books.releaseChain {c : List Nat} (h : Books ph mv (c ++ o) s) : Books ph mv o (releaseChain c s) := by
  unfold Machine.releaseChain
  split
  · refine h.fsc (o' := o) (fun f => { f with releasing := f.releasing ++ [c] }) rfl rfl fun a => ?_
    simp only [List.count_append, List.flatten_append, List.flatten_cons, List.flatten_nil, List.append_nil]
    omega
  · exact h.carryOutRelease

theorem count_flatten_erase {c : List Nat} {l : List (List Nat)} (h : c ∈ l) (a : Nat) :
    (l.erase c).flatten.count a + c.count a = l.flatten.count a := by
  rw [(List.perm_cons_erase h).flatten.count_eq a, List.flatten_cons, List.count_append]
  omega

/-- Waiting releases carried out, each once (R10). -/
theorem Books.settleReleases {cs : List (List Nat)} (h : Books ph mv o s) (hc : cs.Subperm s.fsc.releasing) :
    Books ph mv o (settleReleases cs s) := by
  induction cs generalizing s with
  | nil => exact h
  | cons c cs ih =>
    unfold Machine.settleReleases
    split
    · exact ih h ((List.sublist_cons_self c cs).subperm.trans hc)
    · have hm : c ∈ s.fsc.releasing := hc.subset (by simp)
      have hf := h.fsc (o' := c ++ o) (fun f => { f with releasing := f.releasing.erase c }) rfl rfl fun a => by
        have := count_flatten_erase hm a
        simp only [List.count_append]
        omega
      refine ih hf.carryOutRelease ?_
      have hrel : (Machine.carryOutRelease c (s.updFsc fun f => { f with releasing := f.releasing.erase c })).fsc.releasing
          = s.fsc.releasing.erase c := by
        refine (announceSlabs_shuffle (hf.fsc (o' := o) (fun f => { f with freeList := f.freeList ++ c }) rfl rfl
          fun a => ?_).jobs).releasing
        simp only [List.count_append]
        omega
      rw [hrel]
      simpa using hc.erase c

theorem Books.endAccess (h : Books ph mv o s) (u : AccessUser) (c : List Nat) : Books ph mv o (endAccess u c s) := by
  unfold Machine.endAccess
  refine Books.settleReleases (h.fsc (o' := o) _ rfl rfl fun a => rfl) (List.Subperm.refl _)

theorem Books.beginAccess (h : Books ph mv o s) (u : AccessUser) (c : List Nat) : Books ph mv o (beginAccess u c s) :=
  h.fsc (o' := o) _ rfl rfl fun _ => rfl

end

end Sys2Proof.Machine
end

section
/-! SUPPORT. The release conditions over the books (R54 to R57), and the changes of one send item (R166). -/

namespace Sys2Proof.Machine

/-! ## What the phases ask, by the fields they read -/

theorem Phase.itemState_congr {p : Phase} {r x : Record} {i : SendItem} (hs : x.state = r.state) (h : p.itemState r i) :
    p.itemState x i := by
  cases p <;> simp only [Phase.itemState, hs] at h ⊢ <;> exact h

theorem Phase.jobState_congr {p : Phase} {r x : Record} {c : Bool} (hs : x.state = r.state) (h : p.jobState r c) :
    p.jobState x c := by
  cases p <;> simp only [Phase.jobState, hs] at h ⊢ <;> exact h

theorem Phase.awaited_congr {p : Phase} {r x : Record} (hs : x.proofState = r.proofState) (hp : x.proof = r.proof)
    (h : p.awaited r) : p.awaited x := by
  cases p <;> simp only [Phase.awaited, hs, hp] at h ⊢ <;> exact h

/-- The phases of a shot that is not being deleted: its books are the law, but for what a waiting item asks. -/
def Phase.plain (p : Phase) : Prop := p = .calm ∨ p = .fresh ∨ p = .bare

/-- The phases in which the release conditions may be tested. -/
def Phase.testable (p : Phase) : Prop := p = .calm ∨ p = .fresh ∨ p = .dying

theorem Phase.plain_itemState {p : Phase} (hp : p.plain) {r : Record} {i : SendItem} :
    p.itemState r i ↔ (r.state = if i.cut = .delete then .deleting else .stored) ∧ (i.cut = .delete → i.state = .sending) := by
  rcases hp with rfl | rfl | rfl <;> exact Iff.rfl

theorem Phase.plain_jobState {p : Phase} (hp : p.plain) {r : Record} {c : Bool} :
    p.jobState r c ↔ r.state = if c then .deleting else .stored := by
  rcases hp with rfl | rfl | rfl <;> exact Iff.rfl

/-! ## Release of a raw, of a proof, of a record -/

theorem View.naming_zero {v : View} {c : Content} : v.naming c = 0 ↔ ∀ i ∈ v.items, i.content ≠ c := by
  simp [View.naming, List.countP_eq_zero]

section
variable {p : Phase} {v : View} {r : Record}

theorem RecordOk.no_item_of_pins (ok : RecordOk p v r) : (r.rawPins = 0 → ∀ i ∈ v.items, i.content ≠ .raw)
    ∧ (r.proofPins = 0 → ∀ i ∈ v.items, i.content ≠ .proof) := by
  refine ⟨fun h => View.naming_zero.mp ?_, fun h => View.naming_zero.mp ?_⟩
  · have := ok.rawPins; omega
  · have := ok.proofPins; omega

theorem Requirement.settled_open {q : Requirement} (h : q.settled = true) : q ≠ .queued ∧ q ≠ .writing := by
  cases q <;> simp_all [Requirement.settled]

/-- With both requirements settled no slot holds an item of the shot. -/
theorem RecordOk.no_card (ok : RecordOk p v r) (ha : r.reqA.settled = true) (hb : r.reqB.settled = true) :
    ∀ k, v.cards k = [] ∧ v.writing k = none := by
  have hreq : ∀ k, (r.req k).settled = true := fun k => by cases k <;> assumption
  intro k
  obtain ⟨hq, hw⟩ := Requirement.settled_open (hreq k)
  refine ⟨?_, ?_⟩
  · by_contra hn
    exact hq ((ok.queued k).mpr hn)
  · by_contra hn
    exact hw ((ok.writes k).mpr hn)

/-- A raw that nothing needs any longer may go (R54). -/
theorem RecordOk.withoutRaw (ok : RecordOk p v r) (hst : r.state = .stored ∨ r.state = .deleting) (hp : r.rawPins = 0)
    (ha : r.reqA.settled = true) (hb : r.reqB.settled = true) (hj : v.job = none) : RecordOk p v { r with raw := none } where
  rawPins := ok.rawPins
  proofPins := ok.proofPins
  settled := fun _ => ⟨ha, hb⟩
  unstored := fun h => by rcases hst with e | e <;> rcases h with h | h <;> exact absurd (e.symm.trans h) (by decide)
  pending := ok.pending
  done := ok.done
  figures := ok.figures
  queued := ok.queued
  writes := ok.writes
  oneCard := ok.oneCard
  cards := fun k x hx => by rw [(ok.no_card ha hb k).1] at hx; cases hx
  writing := fun k x hx => by rw [(ok.no_card ha hb k).2] at hx; cases hx
  job := fun k hk => by rw [hj] at hk; cases hk
  items := fun i hi =>
    have h := ok.items i hi
    ⟨Phase.itemState_congr (by rfl) h.state, fun c => absurd c (ok.no_item_of_pins.1 hp i hi),
      fun c w => Phase.awaited_congr (by rfl) (by rfl) (h.waits c w), h.proof⟩

/-- A proof that nothing needs any longer may go (R55). -/
theorem RecordOk.withoutProof (ok : RecordOk p v r) (hp : r.proofPins = 0) (hst : r.raw = none ∨ r.state = .deleting) :
    RecordOk p v { r with proof := none, proofState := .none } where
  rawPins := ok.rawPins
  proofPins := ok.proofPins
  settled := ok.settled
  unstored := fun h => by
    obtain ⟨h1, h2, h3, h4⟩ := ok.unstored h
    exact ⟨h1, rfl, rfl, h4⟩
  pending := fun hs => by
    have hr : r.raw = none := hst.resolve_right fun e => absurd (e.symm.trans hs) (by decide)
    have hj : v.job = none := by
      by_contra hn
      obtain ⟨k, hk⟩ := Option.ne_none_iff_exists'.mp hn
      exact (ok.job k hk).2.1 hr
    simp [hj]
  done := fun _ h => by cases h
  figures := fun x h => by cases h
  queued := ok.queued
  writes := ok.writes
  oneCard := ok.oneCard
  cards := ok.cards
  writing := ok.writing
  job := fun k hk => ⟨(ok.job k hk).1, (ok.job k hk).2.1, Phase.jobState_congr (by rfl) (ok.job k hk).2.2⟩
  items := fun i hi =>
    have h := ok.items i hi
    ⟨Phase.itemState_congr (by rfl) h.state, h.raw, fun c => absurd c (ok.no_item_of_pins.2 hp i hi),
      fun c => absurd c (ok.no_item_of_pins.2 hp i hi)⟩

/-- Nothing refers to a record without raw and proof, once no job and no SENDING item of its shot is left (R56). -/
theorem RecordOk.empty (ok : RecordOk p v r) (hp : p.testable) (hr : r.raw = none) (hx : r.proof = none)
    (hj : v.job = none) (hs : ∀ i ∈ v.items, i.state ≠ .sending) : v.Empty := by
  obtain ⟨ha, hb⟩ := ok.settled hr
  refine ⟨?_, hj, fun k => (ok.no_card ha hb k).1, fun k => (ok.no_card ha hb k).2⟩
  refine List.eq_nil_iff_forall_not_mem.mpr fun i hi => ?_
  have h := ok.items i hi
  have hc : i.content = .proof := by
    cases hc : i.content with
    | raw => exact absurd hr (h.raw hc)
    | proof => rfl
  have hw : i.state = .waitingProof := by
    by_contra hn
    exact h.proof hc hn hx
  have waiting : ∀ hp : p.plain, r.proofState = .pending → False := by
    intro hp hpend
    obtain ⟨hst, hcut⟩ := (Phase.plain_itemState hp).mp h.state
    have hnc : i.cut ≠ .delete := fun e => by rw [hw] at hcut; exact absurd (hcut e) (by decide)
    rw [if_neg hnc] at hst
    exact (ok.pending hst).mp hpend hj
  rcases hp with rfl | rfl | rfl
  · exact waiting (.inl rfl) (h.waits hc hw)
  · exact h.waits hc hw hx
  · have : i.state = .sending := h.state.2.1
    exact hs i hi this

end

section
variable {ph : Nat → Phase} {mv : Hands} {o : List Nat} {s t : State}

theorem Books.recordOk (h : Books ph mv o s) {n : Nat} {r : Record} (hr : s.record n = some r) :
    RecordOk (ph n) (s.view mv n) r := (h.shots n).some r hr

theorem view_job_none {n : Nat} : (s.view mv n).job = none ↔ s.job n = none := by rw [view_job]; simp

theorem Books.releaseRaw (h : Books ph mv o s) (n : Nat) : Books ph mv o (releaseRaw n s) := by
  unfold Machine.releaseRaw
  split
  case _ r hr =>
    split
    case _ chain hraw =>
      split
      case isTrue hfree =>
        simp only [Record.rawFree, Bool.and_eq_true, Bool.or_eq_true, beq_iff_eq, Option.isNone_iff_eq_none] at hfree
        obtain ⟨⟨⟨⟨hst, hp⟩, ha⟩, hb⟩, hj⟩ := hfree
        rw [record_shot hr] at hj
        refine Books.releaseChain (h.updRecord hr (fun _ _ => rfl) (fun a => ?_) fun ok =>
          ok.withoutRaw hst hp ha hb (view_job_none.mpr hj))
        have e1 : r.slabs = chain ++ Record.slabs { r with raw := none } := by simp [Record.slabs, hraw]
        rw [e1, List.count_append, List.count_append]
        show (Record.slabs { r with raw := none }).count a + _ = _
        omega
      · exact h
    · exact h
  · exact h

theorem Books.releaseProof (h : Books ph mv o s) (n : Nat) : Books ph mv o (releaseProof n s) := by
  unfold Machine.releaseProof
  split
  case _ r hr =>
    split
    case _ x hx =>
      split
      case isTrue hfree =>
        simp only [Bool.and_eq_true, Bool.or_eq_true, beq_iff_eq, Option.isNone_iff_eq_none] at hfree
        refine Books.releaseChain (h.updRecord hr (fun _ _ => rfl) (fun a => ?_) fun ok => ok.withoutProof hfree.1 hfree.2)
        have e1 : r.slabs = Record.slabs { r with proof := none, proofState := .none } ++ x.chain := by simp [Record.slabs, hx]
        rw [e1, List.count_append, List.count_append]
        show (Record.slabs { r with proof := none, proofState := .none }).count a + _ = _
        omega
      · exact h
    · exact h
  · exact h

/-- A record that nothing refers to leaves the catalog. -/
theorem Books.dropRecord {o' : List Nat} {n : Nat} {r : Record} (h : Books ph mv o s) (hr : s.record n = some r)
    (hs : ∀ a, o'.count a = r.slabs.count a + o.count a) (he : (s.view mv n).Empty) : Books ph mv o' (s.dropRecord n) := by
  refine h.atShot n ((Cascade.one (.dropRecord s n)).keeps_catalog h.catalog) h.queue h.jobs
    (h.store.of_count rfl rfl fun a => ?_) h.slots (fun m hm => ⟨rfl, dropRecord_view_ne s mv hm⟩) ?_
  · have h1 := dropRecord_slabs h.catalog hr a
    have h2 := hs a
    unfold State.holdings
    simp only [State.dropRecord_fsc, State.dropRecord_dve]
    omega
  · rw [dropRecord_view_same]
    refine ⟨fun x hx => ?_, fun _ => ⟨he.items, he.job, he.cards, he.writing⟩⟩
    have hx : none = some x := hx
    cases hx

theorem Books.freeRecord (h : Books ph mv o s) (n : Nat) (hp : (ph n).testable) : Books ph mv o (freeRecord n s) := by
  unfold Machine.freeRecord
  split
  case _ r hr =>
    split
    case isTrue hfree =>
      simp only [Record.freeable, Bool.and_eq_true, Option.isNone_iff_eq_none, Bool.not_eq_true', List.any_eq_false,
        beq_iff_eq, not_and] at hfree
      obtain ⟨⟨⟨⟨⟨⟨⟨-, hraw⟩, hproof⟩, hj⟩, -⟩, -⟩, hsend⟩, -⟩ := hfree
      rw [record_shot hr] at hj hsend
      have empty : (s.view mv n).Empty := by
        refine (h.recordOk hr).empty hp hraw hproof (view_job_none.mpr hj) fun i hi => ?_
        obtain ⟨hi, hs⟩ := List.mem_filter.mp hi
        exact hsend i hi (by simpa using hs)
      have hdrop := Books.dropRecord (o' := o) (h.offer .body (.shotReleased n (r.state == .deleting))) hr
        (fun a => by simp [Record.slabs, hraw, hproof]) empty
      dsimp only
      split
      · exact hdrop.respond _ _ _ _ _ _
      · exact hdrop
    · exact h
  · exact h

/-- Testing the release conditions of a record keeps the books (R57). -/
theorem Books.testRelease (h : Books ph mv o s) (n : Nat) (hp : (ph n).testable) : Books ph mv o (testRelease n s) :=
  ((h.releaseRaw n).releaseProof n).freeRecord n hp

end

/-! ## One send item changed or gone -/

/-- With distinct keys a list is one element and the elements of other keys, but for the order. -/
theorem perm_cons_filter_out {α : Type} {l : List α} {k : α → Nat} (hk : (l.map k).Nodup) {a : α} (ha : a ∈ l) :
    l.Perm (a :: l.filter fun x => k x != k a) := by
  induction l with
  | nil => cases ha
  | cons x l ih =>
    rw [List.map_cons, List.nodup_cons] at hk
    rcases List.mem_cons.mp ha with rfl | ha
    · rw [List.filter_cons_of_neg (by simp), filter_absent hk.1]
    · have hx : k x ≠ k a := fun h => hk.1 (h ▸ List.mem_map_of_mem ha)
      rw [List.filter_cons_of_pos (by simpa using hx)]
      exact ((ih hk.2 ha).cons x).trans (.swap _ _ _)

/-- An item as `updItem` leaves it. -/
def SendItem.updated (f : SendItem → SendItem) (i : SendItem) : SendItem := { f i with serial := i.serial }

section
variable {ph : Nat → Phase} {mv : Hands} {o : List Nat} {s t : State}

theorem mem_view_items {n : Nat} {i : SendItem} : i ∈ (s.view mv n).items ↔ i ∈ s.ttc.queue ∧ i.shot = n := by
  simp [State.view]

/-- The items of a shot after one of them has changed. -/
theorem updItem_items (s : State) (k : Nat) (f : SendItem → SendItem) (hf : ∀ i, (f i).shot = i.shot) (n : Nat) :
    ((s.updItem k f).view mv n).items = (s.view mv n).items.map fun i => if i.serial == k then i.updated f else i := by
  show ((s.ttc.queue.map _).filter _) = _
  rw [List.filter_map]
  congr 1
  refine List.filter_congr fun i _ => ?_
  simp only [Function.comp]
  split
  · simp [hf]
  · rfl

theorem updItem_view (s : State) (k : Nat) (f : SendItem → SendItem) (hf : ∀ i, (f i).shot = i.shot) (n : Nat) :
    (s.updItem k f).view mv n
      = { s.view mv n with items := (s.view mv n).items.map fun i => if i.serial == k then i.updated f else i } :=
  View.eq_of rfl (updItem_items s k f hf n) rfl (fun k => by cases k <;> rfl) (fun k => by cases k <;> rfl)

/-- Another shot's items have other serials. -/
theorem updItem_view_ne {i : SendItem} (h : QueueOk s.ttc) (hi : i ∈ s.ttc.queue) (f : SendItem → SendItem)
    (hf : ∀ i, (f i).shot = i.shot) {n : Nat} (hn : n ≠ i.shot) : (s.updItem i.serial f).view mv n = s.view mv n := by
  rw [updItem_view s _ f hf]
  have : ((s.view mv n).items.map fun x => if x.serial == i.serial then x.updated f else x) = (s.view mv n).items := by
    refine (List.map_congr_left fun x hx => if_neg fun e => ?_).trans (List.map_id _)
    obtain ⟨hx, hs⟩ := mem_view_items.mp hx
    exact hn (by rw [← hs, h.unique hx hi (by simpa using e)])
  rw [this]

/-- One item changed that keeps its shot and its content. -/
theorem Books.updItem {ph' : Nat → Phase} {i : SendItem} {f : SendItem → SendItem} (h : Books ph mv o s)
    (hi : i ∈ s.ttc.queue) (hf : ∀ i, (f i).shot = i.shot ∧ (f i).content = i.content) (hq : QueueOk (s.updItem i.serial f).ttc)
    (hph : ∀ m, m ≠ i.shot → ph' m = ph m)
    (hok : ∀ r, s.record i.shot = some r → RecordOk (ph i.shot) (s.view mv i.shot) r →
      ItemOk (ph' i.shot) r (i.updated f)
        ∧ (∀ x ∈ s.ttc.queue, x.shot = i.shot → x.serial ≠ i.serial → ItemOk (ph i.shot) r x → ItemOk (ph' i.shot) r x)
        ∧ ∀ c, (ph i.shot).jobState r c → (ph' i.shot).jobState r c) :
    Books ph' mv o (s.updItem i.serial f) := by
  refine h.atShot i.shot h.catalog hq h.jobs (h.store.of_count rfl rfl fun _ => rfl) h.slots
    (fun m hm => ⟨hph m hm, updItem_view_ne h.queue hi f (fun i => (hf i).1) hm⟩) ?_
  rw [updItem_view s _ f fun i => (hf i).1]
  refine ⟨fun r hr => ?_, fun hn => ?_⟩
  · have ok := h.recordOk hr
    obtain ⟨hnew, hother, hjob⟩ := hok r hr ok
    have hcount : ∀ c, View.naming { s.view mv i.shot with
        items := (s.view mv i.shot).items.map fun x => if x.serial == i.serial then x.updated f else x } c
        = (s.view mv i.shot).naming c := by
      intro c
      unfold View.naming
      rw [List.countP_map]
      refine List.countP_congr fun x _ => ?_
      simp only [Function.comp]
      split
      · simp [SendItem.updated, (hf x).2]
      · rfl
    refine ⟨?_, ?_, ok.settled, ok.unstored, ok.pending, ok.done, ok.figures, ok.queued, ok.writes, ok.oneCard, ok.cards,
      ok.writing, fun k hk => ⟨(ok.job k hk).1, (ok.job k hk).2.1, hjob _ (ok.job k hk).2.2⟩, ?_⟩
    · rw [hcount]; exact ok.rawPins
    · rw [hcount]; exact ok.proofPins
    · intro x hx
      obtain ⟨y, hy, rfl⟩ := List.mem_map.mp hx
      obtain ⟨hyq, hys⟩ := mem_view_items.mp hy
      split
      case isTrue e =>
        rw [h.queue.unique hyq hi (by simpa using e)]
        exact hnew
      case isFalse e => exact hother y hyq hys (by simpa using e) (ok.items y hy)
  · have := ((h.shots i.shot).none hn).items
    have hm := mem_view_items (mv := mv).mpr ⟨hi, rfl⟩
    rw [this] at hm
    cases hm

theorem dropItem_items (s : State) (k : Nat) (n : Nat) :
    ((s.dropItem k).view mv n).items = (s.view mv n).items.filter fun i => i.serial != k := by
  show (s.ttc.queue.filter _).filter _ = (s.ttc.queue.filter _).filter _
  rw [List.filter_comm]

theorem dropItem_view_ne {i : SendItem} (h : QueueOk s.ttc) (hi : i ∈ s.ttc.queue) {n : Nat} (hn : n ≠ i.shot) :
    (s.dropItem i.serial).view mv n = s.view mv n := by
  refine View.eq_of rfl ?_ rfl (fun k => by cases k <;> rfl) (fun k => by cases k <;> rfl)
  rw [dropItem_items]
  refine List.filter_eq_self.mpr fun x hx => ?_
  obtain ⟨hx, hs⟩ := mem_view_items.mp hx
  simpa using fun e => hn (by rw [← hs, h.unique hx hi e])

/-- Taking an item out lowers the count of its content by one. -/
theorem naming_dropItem {i : SendItem} (h : QueueOk s.ttc) (hi : i ∈ s.ttc.queue) (c : Content) :
    ((s.dropItem i.serial).view mv i.shot).naming c + (if i.content = c then 1 else 0) = (s.view mv i.shot).naming c := by
  have hm : i ∈ (s.view mv i.shot).items := mem_view_items.mpr ⟨hi, rfl⟩
  have hk : ((s.view mv i.shot).items.map SendItem.serial).Nodup := h.serials.sublist (List.filter_sublist.map _)
  unfold View.naming
  rw [dropItem_items, (perm_cons_filter_out hk hm).countP_eq, List.countP_cons]
  simp

/-- The record of shot n changed, any other as it is. -/
def Record.changeAt (n : Nat) (f : Record → Record) (r : Record) : Record := if r.shot == n then r.updated f else r

theorem updRecord_cat (s : State) (n : Nat) (f : Record → Record) :
    s.updRecord n f = s.updCat fun c => { c with records := c.records.map (Record.changeAt n f) } := rfl

/-- Two changes of one record are one change. -/
theorem updRecord_updRecord (s : State) (n : Nat) (f g : Record → Record) :
    (s.updRecord n f).updRecord n g = s.updRecord n fun r => g (r.updated f) := by
  have two : Record.changeAt n g ∘ Record.changeAt n f = Record.changeAt n fun r => g (r.updated f) := by
    funext r
    simp only [Function.comp, Record.changeAt]
    split
    case isTrue h => rw [if_pos (by simpa [Record.updated] using h)]; rfl
    case isFalse => rfl
  simp only [updRecord_cat, State.updCat, List.map_map, two]

/-- A record with one pin of a content less. -/
def Record.unpinned (c : Content) (r : Record) : Record :=
  match c with
  | .raw => { r with rawPins := r.rawPins - 1 }
  | .proof => { r with proofPins := r.proofPins - 1 }

/-- The record of an item that leaves: the same, with one pin less. -/
theorem RecordOk.itemGone {p : Phase} {i : SendItem} {r x : Record} (hq : QueueOk s.ttc) (hi : i ∈ s.ttc.queue)
    (ok : RecordOk p (s.view mv i.shot) r) (hc : x.core = (r.unpinned i.content).core) :
    RecordOk p ((s.dropItem i.serial).view mv i.shot) x := by
  have hn := fun c => naming_dropItem (mv := mv) hq hi c
  have base : RecordOk p ((s.dropItem i.serial).view mv i.shot) (r.unpinned i.content) := by
    have h1 := hn .raw
    have h2 := hn .proof
    have hsub : ∀ y ∈ ((s.dropItem i.serial).view mv i.shot).items, y ∈ (s.view mv i.shot).items := fun y hy => by
      rw [dropItem_items] at hy
      exact (List.mem_filter.mp hy).1
    have hr := ok.rawPins
    have hp := ok.proofPins
    cases hcont : i.content <;> simp only [hcont, reduceCtorEq, if_true, if_false] at h1 h2
    all_goals
      refine ⟨?_, ?_, ok.settled, ok.unstored, ok.pending, ok.done, ok.figures, ok.queued, ok.writes, ok.oneCard, ok.cards,
        ok.writing, fun k hk => ⟨(ok.job k hk).1, (ok.job k hk).2.1, Phase.jobState_congr (by rfl) (ok.job k hk).2.2⟩,
        fun y hy => have h := ok.items y (hsub y hy)
          ⟨Phase.itemState_congr (by rfl) h.state, h.raw, fun c w => Phase.awaited_congr (by rfl) (by rfl) (h.waits c w),
            h.proof⟩⟩
      · simp only [Record.unpinned]
        omega
      · simp only [Record.unpinned]
        omega
  exact base.congr hc rfl rfl (fun _ => rfl) (fun _ => rfl)

theorem Record.unpinned_slabs (c : Content) (r : Record) : (r.unpinned c).slabs = r.slabs := by cases c <;> rfl

theorem Record.slabs_congr {r x : Record} (h : x.core = r.core) : x.slabs = r.slabs := by
  simp only [Record.core, Prod.mk.injEq] at h
  obtain ⟨-, -, h3, -, h5, -⟩ := h
  simp only [Record.slabs, h3, h5]

/-- An item taken out of the queue together with its pin. -/
theorem Books.dropItemUnpinned {i : SendItem} (h : Books ph mv o s) (hi : i ∈ s.ttc.queue) (f : Record → Record)
    (hf : ∀ r : Record, (r.updated f).core = (r.unpinned i.content).core) :
    Books ph mv o ((s.dropItem i.serial).updRecord i.shot f) := by
  have hc : Cascade s ((s.dropItem i.serial).updRecord i.shot f) := (Cascade.dropItem s _).trans (.record _ _ _)
  refine h.atShot i.shot (hc.keeps_catalog h.catalog) (hc.keeps_queueOk h.queue) h.jobs (h.store.of_count rfl rfl fun a => ?_) h.slots
    (fun n hn => ⟨rfl, ?_⟩) ?_
  · cases hr : s.record i.shot with
    | none =>
      rw [updRecord_absent (s.dropItem i.serial) f hr]
      rfl
    | some r =>
      have h1 := updRecord_slabs (s := s.dropItem i.serial) h.catalog hr f a
      rw [Record.slabs_congr (hf r), Record.unpinned_slabs] at h1
      have h2 : (((s.dropItem i.serial).updRecord i.shot f).cat.records.map fun x => x.slabs.count a).sum
          = (s.cat.records.map fun x => x.slabs.count a).sum := by
        have : (s.dropItem i.serial).cat = s.cat := rfl
        rw [this] at h1
        omega
      unfold State.holdings
      rw [h2]
      rfl
  · rw [updRecord_view_ne _ f mv hn, dropItem_view_ne h.queue hi hn]
  · rw [updRecord_view_same]
    refine ⟨fun x hx => ?_, fun hx => ?_⟩
    · cases hr : s.record i.shot with
      | none =>
        rw [show (s.dropItem i.serial).record i.shot = none from hr] at hx
        cases hx
      | some r =>
        rw [show (s.dropItem i.serial).record i.shot = some r from hr] at hx
        have hx : some (r.updated f) = some x := hx
        cases hx
        exact ((h.recordOk hr).itemGone h.queue hi (hf r)).congr rfl rfl rfl (fun _ => rfl) (fun _ => rfl)
    · have hr : s.record i.shot = none := Option.map_eq_none_iff.mp hx
      have hm := mem_view_items (mv := mv).mpr ⟨hi, rfl⟩
      rw [((h.shots i.shot).none hr).items] at hm
      cases hm

/-- An item gone from the queue, its pin given back, its mark set (R166, R53). -/
theorem Books.leaveQueue {i : SendItem} (h : Books ph mv o s) (hi : i ∈ s.ttc.queue) (m : TetherMark) :
    Books ph mv o (leaveQueue i m s) := by
  unfold Machine.leaveQueue State.unpin State.setMark
  rw [updRecord_updRecord]
  refine h.dropItemUnpinned hi _ fun r => ?_
  cases hc : i.content <;> rfl

theorem Books.leaveAndTest {i : SendItem} (h : Books ph mv o s) (hi : i ∈ s.ttc.queue) (m : TetherMark)
    (hp : (ph i.shot).testable) : Books ph mv o (leaveAndTest i m s) := (h.leaveQueue hi m).testRelease _ hp

theorem Books.answerCancel (h : Books ph mv o s) (i : SendItem) : Books ph mv o (answerCancel i s) := by
  unfold Machine.answerCancel
  split
  · exact h.respond _ _ _ _ _ _
  · exact h

theorem Books.endDeleted {i : SendItem} (h : Books ph mv o s) (hi : i ∈ s.ttc.queue) (hp : (ph i.shot).testable) :
    Books ph mv o (endDeleted i s) :=
  (((h.leaveQueue hi .dropped).offer _ _).answerCancel i).testRelease _ hp

theorem Books.endCanceled {i : SendItem} (h : Books ph mv o s) (hi : i ∈ s.ttc.queue) (hp : (ph i.shot).testable) :
    Books ph mv o (endCanceled i s) := ((h.leaveQueue hi .dropped).answerCancel i).testRelease _ hp

end

end Sys2Proof.Machine
end

section
/-! SUPPORT. The send queue and the job list over the books: items that become READY, jobs made, merged, cancelled and completed (R110 to
R115, R129, R130, R166, R169). -/

namespace Sys2Proof.Machine

section
variable {ph : Nat → Phase} {mv : Hands} {o : List Nat} {s t : State}

/-! ## Phases -/

/-- The phase of one shot taken for another that its items and its job satisfy. -/
theorem RecordOk.rephase {p q : Phase} {v : View} {r : Record} (ok : RecordOk p v r)
    (hi : ∀ i ∈ v.items, ItemOk p r i → ItemOk q r i)
    (hj : ∀ k, v.job = some k → p.jobState r k.2.2 → q.jobState r k.2.2) : RecordOk q v r :=
  ⟨ok.rawPins, ok.proofPins, ok.settled, ok.unstored, ok.pending, ok.done, ok.figures, ok.queued, ok.writes, ok.oneCard,
    ok.cards, ok.writing, fun k hk => ⟨(ok.job k hk).1, (ok.job k hk).2.1, hj k hk (ok.job k hk).2.2⟩,
    fun i hm => hi i hm (ok.items i hm)⟩

theorem Books.rephase (h : Books ph mv o s) (n : Nat) (q : Phase)
    (hok : ∀ r, s.record n = some r → RecordOk (ph n) (s.view mv n) r → RecordOk q (s.view mv n) r) :
    Books (Phase.at ph n q) mv o s := by
  refine h.atShot n h.catalog h.queue h.jobs h.store h.slots (fun m hm => ⟨Phase.at_ne ph q hm, rfl⟩) ?_
  rw [Phase.at_same]
  exact ⟨fun r hr => hok r hr (h.recordOk hr), (h.shots n).none⟩

/-- A plain phase ends when no item of the shot waits for its proof. -/
theorem Books.toCalm (h : Books ph mv o s) {n : Nat} (hp : (ph n).plain)
    (hno : ∀ i ∈ s.ttc.queue, i.shot = n → i.content = .proof → i.state ≠ .waitingProof) :
    Books (Phase.at ph n .calm) mv o s := by
  refine h.rephase n .calm fun r hr ok => ok.rephase (fun i hi h => ?_) fun k _ hj => ?_
  · obtain ⟨hi, hs⟩ := mem_view_items.mp hi
    exact ⟨(Phase.plain_itemState (.inl rfl)).mpr ((Phase.plain_itemState hp).mp h.state), h.raw,
      fun c w => absurd w (hno i hi hs c), h.proof⟩
  · exact (Phase.plain_jobState (.inl rfl)).mpr ((Phase.plain_jobState hp).mp hj)

/-- A shot that something refers to has a record. -/
theorem Books.record_of_item (h : Books ph mv o s) {i : SendItem} (hi : i ∈ s.ttc.queue) :
    ∃ r, s.record i.shot = some r ∧ ItemOk (ph i.shot) r i := by
  have hm := mem_view_items (mv := mv).mpr ⟨hi, rfl⟩
  cases hr : s.record i.shot with
  | none => rw [((h.shots i.shot).none hr).items] at hm; cases hm
  | some r => exact ⟨r, rfl, (h.recordOk hr).items i hm⟩

theorem Books.record_of_job (h : Books ph mv o s) {j : Job} (hj : j ∈ s.dve.jobs) :
    ∃ r, s.record j.shot = some r ∧ r.mode = j.mode ∧ r.raw ≠ none ∧ (ph j.shot).jobState r j.cancel := by
  have hv : (s.view mv j.shot).job = some j.key := by rw [view_job, h.jobs.job_eq hj]; rfl
  cases hr : s.record j.shot with
  | none => rw [((h.shots j.shot).none hr).job] at hv; cases hv
  | some r => exact ⟨r, rfl, (h.recordOk hr).job j.key hv⟩

/-- The one item of a shot and a content. -/
theorem QueueOk.unique_content {t : Ttc} (h : QueueOk t) {a b : SendItem} (ha : a ∈ t.queue) (hb : b ∈ t.queue)
    (hs : a.shot = b.shot) (hc : a.content = b.content) : a = b :=
  eq_of_key_eq h.keys ha hb (by simp [hs, hc])

theorem itemFor_some {n : Nat} {c : Content} {i : SendItem} (h : s.itemFor n c = some i) :
    i ∈ s.ttc.queue ∧ i.shot = n ∧ i.content = c := by
  have := List.find?_some h
  simp only [Bool.and_eq_true, beq_iff_eq] at this
  exact ⟨List.mem_of_find?_eq_some h, this⟩

theorem itemFor_none_iff {n : Nat} {c : Content} :
    s.itemFor n c = none ↔ ∀ i ∈ s.ttc.queue, i.shot = n → i.content ≠ c := by
  simp [State.itemFor]

/-! ## Items that become READY, and return to WAITING_PROOF -/

/-- An item that is not SENDING becomes READY; a proof must be there (R166). -/
theorem Books.becomeReady {i : SendItem} (h : Books ph mv o s) (hi : i ∈ s.ttc.queue) (hp : (ph i.shot).plain)
    (hs : i.state ≠ .sending) (hx : i.content = .proof → ∀ r, s.record i.shot = some r → r.proof ≠ none) :
    Books ph mv o (becomeReady i.serial s) := by
  have hc : Cascade s (s.updItem i.serial fun i => { i with state := .ready }) :=
    .item s _ fun _ => ⟨rfl, rfl, fun e => by simp at e⟩
  have hu : Books ph mv o (s.updItem i.serial fun i => { i with state := .ready }) := by
    refine h.updItem hi (fun _ => ⟨rfl, rfl⟩) (hc.keeps_queueOk h.queue) (fun _ _ => rfl) fun r hr ok =>
      ⟨?_, fun _ _ _ _ => id, fun _ => id⟩
    have item := ok.items i (mem_view_items.mpr ⟨hi, rfl⟩)
    obtain ⟨hst, hcut⟩ := (Phase.plain_itemState hp).mp item.state
    refine ⟨(Phase.plain_itemState hp).mpr ⟨hst, fun e => absurd (hcut e) hs⟩, item.raw, ?_, fun c _ => hx c r hr⟩
    exact fun _ w => by cases w
  unfold Machine.becomeReady
  dsimp only
  split
  · exact hu
  · exact hu.offer _ _

/-- A READY proof item returns to WAITING_PROOF while its shot's proof is PENDING (R169). -/
theorem Books.ttcJobCreated (h : Books ph mv o s) {n : Nat} (hp : ph n = .calm)
    (hx : ∀ r, s.record n = some r → r.proofState = .pending) : Books ph mv o (ttcJobCreated n s) := by
  unfold Machine.ttcJobCreated
  split
  case _ i hi =>
    obtain ⟨hm, rfl, hc⟩ := itemFor_some hi
    split
    case isTrue hr =>
      have hready : i.state = .ready := by simpa using hr
      have hq : QueueOk (s.updItem i.serial fun x => { x with state := .waitingProof }).ttc :=
        (Cascade.item s i.serial (f := fun x => { x with state := .waitingProof })
          fun _ => ⟨rfl, rfl, fun e => by simp at e⟩).keeps_queueOk h.queue
      refine h.updItem hm (fun _ => ⟨rfl, rfl⟩) hq (fun _ _ => rfl) fun r hr ok => ⟨?_, fun _ _ _ _ => id, fun _ => id⟩
      have item := ok.items i (mem_view_items.mpr ⟨hm, rfl⟩)
      have hplain : (ph i.shot).plain := .inl hp
      obtain ⟨hst, hcut⟩ := (Phase.plain_itemState hplain).mp item.state
      refine ⟨(Phase.plain_itemState hplain).mpr ⟨hst, fun e => ?_⟩, item.raw, fun _ _ => ?_, fun _ w => absurd rfl w⟩
      · have := hcut e
        rw [hready] at this
        cases this
      · rw [hp]
        exact hx r hr
    · exact h
  · exact h

/-! ## Jobs made and merged -/

/-- A change of a QUEUED or waiting job that leaves it QUEUED, or as it is with its class, is a shuffle. -/
theorem merge_shuffle {j : Job} {f : Job → Job} (h : JobsOk s.dve) (hj : j ∈ s.dve.jobs)
    (hst : j.state = .queued ∨ j.state = .waitSlabs) (hk : (j.updated f).key = j.key)
    (hp : (j.updated f).progress = j.progress)
    (hf : (j.updated f).state = .queued ∨ (j.updated f).state = j.state ∧ (j.updated f).cls = j.cls) :
    Shuffle s (s.updJob j.shot f) := by
  have ok := h.each j hj
  have hnp := ok.no_progress hst
  have hcancel : (j.updated f).cancel = false := by
    have : (j.updated f).cancel = j.cancel := congrArg (fun k => k.2.2) hk
    rw [this]
    exact ok.not_cancelled (by rcases hst with e | e <;> simp [e])
  have hnot : (j.updated f).state ≠ .running ∧ (j.updated f).state ≠ .suspended := by
    rcases hf with e | ⟨e, -⟩
    · simp [e]
    · rw [e]; rcases hst with e | e <;> simp [e]
  have hcur : (j.updated f).isCurrent = true → j.isCurrent = true ∧ (j.updated f).cls = j.cls := by
    intro hc
    rcases hf with e | ⟨e, hcls⟩
    · simp [Job.isCurrent, e] at hc
    · exact ⟨by simpa [Job.isCurrent, e] using hc, hcls⟩
  refine Shuffle.updJob h hj hk (by simp only [Job.slabs, hp]) (h.updJob hj ⟨ok.number, ?_, ?_, ?_, ?_⟩ ?_ ?_ ?_)
  · simp [hp, hnp, hnot.1, hnot.2]
  · simp [hcancel]
  · exact fun hc => (hcur hc).2 ▸ ok.thermal (hcur hc).1
  · simp [hp, hnp]
  · exact fun hc => .inl (hcur hc).1
  · intro he
    rcases engaged_iff.mp he with hc | e
    · exact .inl ⟨engaged_iff.mpr (.inl (hcur hc).1), (hcur hc).2⟩
    · exact absurd e hnot.2
  · intro hr
    rcases hst with e | e <;> rw [e] at hr <;> cases hr

theorem afterMerge_shuffle (b : Bool) (h : JobsOk s.dve) : Shuffle s (afterMerge b s) := by
  unfold afterMerge
  split
  · have hu := urgentAppears_shuffle h
    exact hu.trans (pick_shuffle hu.jobs)
  · exact pick_shuffle h

theorem mergeInternal_shuffle {j : Job} (c : Priority) (h : JobsOk s.dve) (hj : j ∈ s.dve.jobs) :
    Shuffle s (mergeInternal j c s) := by
  unfold mergeInternal
  split
  case isTrue hst =>
    have hst : j.state = .queued ∨ j.state = .waitSlabs := by simpa using hst
    dsimp only
    refine (merge_shuffle h hj hst rfl rfl ?_).trans (afterMerge_shuffle _ (merge_shuffle h hj hst rfl rfl ?_).jobs)
    all_goals
      simp only [Job.updated]
      cases hc : j.cls <;> cases c <;> simp [Priority.higher]
  · exact .refl h

theorem mergeDevelop_shuffle {j : Job} (p : DevelopParams) (c : Priority) (og : JobOrigin) (h : JobsOk s.dve)
    (hj : j ∈ s.dve.jobs) (hst : j.state = .queued ∨ j.state = .waitSlabs) : Shuffle s (mergeDevelop j p c og s) := by
  have hm := merge_shuffle (f := fun x => { x with params := p, cls := j.cls.higher c, origin := og, state := .queued })
    h hj hst rfl rfl (.inl rfl)
  exact hm.trans (afterMerge_shuffle _ hm.jobs)

/-- A record whose job has just been made (R115). -/
theorem RecordOk.withJob {p : Phase} {v : View} {r : Record} (ok : RecordOk p v r) (hp : p.plain) (hs : r.state = .stored)
    (hr : r.raw ≠ none) (n : Nat) :
    RecordOk .calm { v with job := some (n, r.mode, false) } { r with proofState := .pending } where
  rawPins := ok.rawPins
  proofPins := ok.proofPins
  settled := ok.settled
  unstored := fun h => by rcases h with h | h <;> exact absurd (hs.symm.trans h) (by decide)
  pending := fun _ => by simp
  done := fun _ e => by cases e
  figures := ok.figures
  queued := ok.queued
  writes := ok.writes
  oneCard := ok.oneCard
  cards := ok.cards
  writing := ok.writing
  job := fun k hk => by
    have hk : some (n, r.mode, false) = some k := hk
    cases hk
    exact ⟨rfl, hr, hs⟩
  items := fun i hi =>
    have h := ok.items i hi
    ⟨Phase.itemState_congr (by rfl) ((Phase.plain_itemState (.inl rfl)).mpr ((Phase.plain_itemState hp).mp h.state)), h.raw,
      fun _ _ => rfl, h.proof⟩

/-- A new job and the PENDING proof of its record (R115). -/
theorem Books.addJob {n : Nat} {r : Record} {j : Job} (h : Books ph mv o s) (hp : (ph n).plain) (hr : s.record n = some r)
    (hs : r.state = .stored) (hraw : r.raw ≠ none) (hl : s.dve.jobs.length < Config.maxJobs) (hj : s.job n = none)
    (hn : j.shot = n) (hm : j.mode = r.mode) (hnum : j.number = s.newJobNumber) (hq : j.state = .queued)
    (hc : j.cancel = false) (hpr : j.progress = none) :
    Books (Phase.at ph n .calm) mv o ((s.updDve fun d => { d with jobs := d.jobs ++ [j], nextJob := nextJobAfter j.number }).updRecord
      n fun r => { r with proofState := .pending }) := by
  have hkey : j.key = (n, r.mode, false) := by simp [Job.key, hn, hm, hc]
  have hjobs := h.jobs.add hl hnum (hn ▸ hj) hq hc hpr
  refine h.atShot n ((Cascade.record s n _).keeps_catalog h.catalog) h.queue hjobs (h.store.of_count rfl rfl fun a => ?_) h.slots
    (fun m hm => ⟨Phase.at_ne ph _ hm, ?_⟩) ?_
  · have h1 := updRecord_slabs h.catalog hr (fun r => { r with proofState := .pending }) a
    have e : Record.slabs (r.updated fun r => { r with proofState := .pending }) = r.slabs := rfl
    rw [e] at h1
    have h2 : ((s.updRecord n fun r => { r with proofState := .pending }).cat.records.map fun x => x.slabs.count a).sum
        = (s.cat.records.map fun x => x.slabs.count a).sum := by omega
    have h3 : (((s.dve.jobs ++ [j]).map fun x => x.slabs.count a)).sum = (s.dve.jobs.map fun x => x.slabs.count a).sum := by
      simp [Job.slabs, hpr]
    show s.fsc.freeList.count a + s.fsc.releasing.flatten.count a
      + ((s.updRecord n fun r => { r with proofState := .pending }).cat.records.map fun x => x.slabs.count a).sum
      + ((s.dve.jobs ++ [j]).map fun x => x.slabs.count a).sum + _ = _
    rw [h2, h3]
    rfl
  · rw [updRecord_view_ne _ _ _ hm]
    refine View.eq_of rfl rfl ?_ (fun k => by cases k <;> rfl) (fun k => by cases k <;> rfl)
    show ((s.dve.jobs ++ [j]).map Job.key).find? _ = (s.dve.jobs.map Job.key).find? _
    have hne : ¬ n = m := fun e => hm e.symm
    rw [List.map_append, List.find?_append]
    simp [hkey, hne]
  · rw [updRecord_view_same, Phase.at_same]
    have hold : (s.dve.jobs.map Job.key).find? (fun k => k.1 == n) = none := by
      have := view_job_none (s := s) (mv := mv).mpr hj
      exact this
    have hview : ((s.updDve fun d => { d with jobs := d.jobs ++ [j], nextJob := nextJobAfter j.number }).view mv n).job
        = some (n, r.mode, false) := by
      show ((s.dve.jobs ++ [j]).map Job.key).find? _ = _
      rw [List.map_append, List.find?_append, hold]
      simp [hkey]
    refine ⟨fun x hx => ?_, fun hx => ?_⟩
    · have hx : (s.record n).map (Record.updated fun r => { r with proofState := .pending }) = some x := hx
      rw [hr] at hx
      cases hx
      exact ((h.recordOk hr).withJob hp hs hraw n).congr rfl rfl hview (fun k => by cases k <;> rfl) (fun k => by cases k <;> rfl)
    · have hx : (s.record n).map (Record.updated fun r => { r with proofState := .pending }) = none := hx
      rw [hr] at hx
      cases hx

/-- A new job at the tail of the list, and the pick after it (R112, R114, R115, R117). -/
theorem Books.createJob {n : Nat} {r : Record} (h : Books ph mv o s) (hp : (ph n).plain) (hr : s.record n = some r)
    (hs : r.state = .stored) (hraw : r.raw ≠ none) (hl : s.dve.jobs.length < Config.maxJobs) (hj : s.job n = none)
    (p : DevelopParams) (c : Priority) (og : JobOrigin) :
    Books (Phase.at ph n .calm) mv o (createJob n r.mode p c og s) := by
  unfold Machine.createJob
  extract_lets number job s1 s2
  have h1 : Books (Phase.at ph n .calm) mv o (s1.updRecord n fun r => { r with proofState := .pending }) :=
    h.addJob (j := job) hp hr hs hraw hl hj rfl rfl rfl rfl rfl rfl
  have hpend : ∀ x, (s1.updRecord n fun r => { r with proofState := .pending }).record n = some x → x.proofState = .pending := by
    intro x hx
    rw [updRecord_record_same] at hx
    obtain ⟨y, -, rfl⟩ := Option.map_eq_some_iff.mp hx
    rfl
  have h2 : Books (Phase.at ph n .calm) mv o s2 := h1.ttcJobCreated (Phase.at_same _ _ _) hpend
  split
  · have hu := urgentAppears_shuffle h2.jobs
    exact (h2.shuffle hu).shuffle (pick_shuffle hu.jobs)
  · exact h2.shuffle (pick_shuffle h2.jobs)

theorem claimFor_cat (j : Job) (s : State) : (claimFor j s).cat = s.cat := by
  unfold claimFor
  split
  case _ c t h => obtain ⟨-, -, -, rfl⟩ := claimDevelop_some h; rfl
  case _ => rfl

theorem pick_cat (s : State) : (pick s).cat = s.cat := by
  unfold pick
  split
  · split
    · rfl
    · exact claimFor_cat _ _
  · rfl

theorem requeueWaiting_cat (c : Job → Bool) (s : State) : (requeueWaiting c s).cat = s.cat := by
  unfold requeueWaiting
  split
  · split <;> rfl
  · rfl

theorem ttcJobCreated_cat (n : Nat) (s : State) : (ttcJobCreated n s).cat = s.cat := by
  unfold ttcJobCreated
  split
  · split <;> rfl
  · rfl

/-- A new job makes its record's proof PENDING (R115). -/
theorem createJob_cat (n : Nat) (m : Mode) (p : DevelopParams) (c : Priority) (og : JobOrigin) (s : State) :
    (createJob n m p c og s).cat = (s.updRecord n fun r => { r with proofState := .pending }).cat := by
  unfold createJob
  dsimp only
  rw [pick_cat]
  split
  · rw [urgentAppears, requeueWaiting_cat, ttcJobCreated_cat]
    rfl
  · rw [ttcJobCreated_cat]
    rfl

/-- What an internal request does (R114): nothing, a merge, or a new job. -/
theorem internalRequest_books {n : Nat} (h : Books ph mv o s) (hp : (ph n).plain) (p : DevelopParams) (c : Priority)
    (og : JobOrigin) :
    ((internalRequest n p c og s).1 ≠ .new ∧ (internalRequest n p c og s).1 ≠ .merged ∧ (internalRequest n p c og s).2 = s)
      ∨ ((internalRequest n p c og s).1 = .merged ∧ (s.job n).isSome = true ∧ Shuffle s (internalRequest n p c og s).2)
      ∨ ((internalRequest n p c og s).1 = .new ∧ Books (Phase.at ph n .calm) mv o (internalRequest n p c og s).2
        ∧ (internalRequest n p c og s).2.cat = (s.updRecord n fun r => { r with proofState := .pending }).cat) := by
  unfold internalRequest
  split
  · exact .inl ⟨by simp, by simp, rfl⟩
  case _ r hr =>
    split
    · exact .inl ⟨by simp, by simp, rfl⟩
    case isFalse hst =>
      have hst : r.state = .stored ∧ r.raw ≠ none := by simpa using hst
      split
      case _ j hj =>
        obtain ⟨hm, -⟩ := job_mem hj
        exact .inr (.inl ⟨rfl, by simp [hj], mergeInternal_shuffle c h.jobs hm⟩)
      case _ hj =>
        split
        · exact .inl ⟨by simp, by simp, rfl⟩
        · split
          · exact .inl ⟨by simp, by simp, rfl⟩
          case isFalse hl =>
            exact .inr (.inr ⟨rfl, h.createJob hp hr hst.1 hst.2 (by omega) hj p c og, createJob_cat _ _ _ _ _ _⟩)

/-- An internal request in closed books leaves them closed. -/
theorem Books.internalRequest {n : Nat} (h : Books ph mv o s) (hp : ph n = .calm) (p : DevelopParams) (c : Priority)
    (og : JobOrigin) : Books ph mv o (internalRequest n p c og s).2 := by
  rcases internalRequest_books h (.inl hp) p c og with ⟨-, -, e⟩ | ⟨-, -, e⟩ | ⟨-, e, -⟩
  · rw [e]; exact h
  · exact h.shuffle e
  · rwa [← hp, Phase.at_self] at e

end

end Sys2Proof.Machine
end

section
/-! SUPPORT. The end of a develop job over the books: cancelled, completed, preempted, after a stripe (R122, R123, R128 to R130). -/

namespace Sys2Proof.Machine

section
variable {ph : Nat → Phase} {mv : Hands} {o : List Nat} {s t : State}

/-! ## A job out of the list -/

theorem dropJob_view_ne (s : State) {n m : Nat} (mv : Hands) (h : m ≠ n) : (s.dropJob n).view mv m = s.view mv m := by
  refine View.eq_of rfl rfl ?_ (fun k => by cases k <;> rfl) (fun k => by cases k <;> rfl)
  rw [view_job, view_job]
  unfold State.job
  rw [dropJob_dve]
  dsimp only
  rw [List.find?_filter]
  congr 2
  funext j
  by_cases hj : j.shot = m
  · simp [hj, h]
  · simp [hj]

theorem dropJob_view_same (s : State) (n : Nat) (mv : Hands) :
    (s.dropJob n).view mv n = { s.view mv n with job := none } := by
  refine View.eq_of rfl rfl ?_ (fun k => by cases k <;> rfl) (fun k => by cases k <;> rfl)
  refine view_job_none.mpr (job_none.mpr fun j hj => ?_)
  simpa using (List.mem_filter.mp hj).2

/-- A job taken out of the list, its slabs handed on, and its record changed; what else the engine holds may change at once. -/
theorem Books.dropJob {ph' : Nat → Phase} {o' : List Nat} {j : Job} {r : Record} {f : Record → Record} (g : Dve → Dve)
    (h : Books ph mv o s) (hg : (g s.dve).jobs = s.dve.jobs) (hj : j ∈ s.dve.jobs) (hr : s.record j.shot = some r)
    (hph : ∀ m, m ≠ j.shot → ph' m = ph m) (hd : JobsOk ((s.updDve g).dropJob j.shot).dve)
    (hs : ∀ a, (r.updated f).slabs.count a + o'.count a = r.slabs.count a + (j.slabs.count a + o.count a))
    (hok : RecordOk (ph j.shot) (s.view mv j.shot) r
      → RecordOk (ph' j.shot) { s.view mv j.shot with job := none } (r.updated f)) :
    Books ph' mv o' (((s.updDve g).dropJob j.shot).updRecord j.shot f) := by
  have hview : ∀ m, (s.updDve g).view mv m = s.view mv m := fun m =>
    view_congr (s := s) (t := s.updDve g) rfl rfl (congrArg (List.map Job.key) hg) (fun k => by cases k <;> exact ⟨rfl, rfl⟩) mv m
  refine h.atShot j.shot ((Cascade.record s j.shot f).keeps_catalog h.catalog) h.queue hd
    (h.store.of_count rfl rfl fun a => ?_) h.slots (fun m hm => ⟨hph m hm, ?_⟩) ?_
  · have h1 := updRecord_slabs h.catalog hr f a
    have h2 := dropJob_slabs h.jobs hj a
    have h3 := hs a
    have h4 : ((((s.updDve g).dropJob j.shot).updRecord j.shot f).dve.jobs) = (s.dropJob j.shot).dve.jobs := by
      show (g s.dve).jobs.filter _ = s.dve.jobs.filter _
      rw [hg]
    unfold State.holdings
    rw [h4]
    show s.fsc.freeList.count a + s.fsc.releasing.flatten.count a
      + ((s.updRecord j.shot f).cat.records.map fun x => x.slabs.count a).sum + _ + _ = _
    omega
  · rw [updRecord_view_ne _ _ _ hm, dropJob_view_ne _ _ hm, hview]
  · rw [updRecord_view_same, dropJob_view_same, hview]
    have hrec : ((s.updDve g).dropJob j.shot).record j.shot = some r := hr
    refine ⟨fun x hx => ?_, fun hx => ?_⟩
    · have hx : (((s.updDve g).dropJob j.shot).record j.shot).map (Record.updated f) = some x := hx
      rw [hrec] at hx
      cases hx
      exact (hok (h.recordOk hr)).congr rfl rfl rfl (fun _ => rfl) (fun _ => rfl)
    · have hx : (((s.updDve g).dropJob j.shot).record j.shot).map (Record.updated f) = none := hx
      rw [hrec] at hx
      cases hx

theorem Books.cutRead (h : Books ph mv o s) (c : ReadStream → Bool) : Books ph mv o (cutRead c s) := by
  unfold Machine.cutRead
  split
  · split
    · exact h.same (.ptc s _)
    · exact h
  · exact h

theorem Books.pick (h : Books ph mv o s) : Books ph mv o (pick s) := h.shuffle (pick_shuffle h.jobs)

/-! ## Cancellation (R130) -/

/-- A record that is being deleted, without its job (R45). -/
theorem RecordOk.withoutJob {p : Phase} {v : View} {r : Record} (ok : RecordOk p v r) (hp : p = .calm ∨ p = .dying)
    (hdel : r.state = .deleting) (q : ProofState) : RecordOk .calm { v with job := none } { r with proofState := q } where
  rawPins := ok.rawPins
  proofPins := ok.proofPins
  settled := ok.settled
  unstored := fun h => by rcases h with h | h <;> exact absurd (hdel.symm.trans h) (by decide)
  pending := fun h => absurd (hdel.symm.trans h) (by decide)
  done := fun h => absurd (hdel.symm.trans h) (by decide)
  figures := ok.figures
  queued := ok.queued
  writes := ok.writes
  oneCard := ok.oneCard
  cards := ok.cards
  writing := ok.writing
  job := fun k hk => by cases hk
  items := fun i hi => by
    have h := ok.items i hi
    have cut : i.cut = .delete ∧ i.state = .sending := by
      rcases hp with rfl | rfl
      · obtain ⟨hst, hcut⟩ := (Phase.plain_itemState (.inl rfl)).mp h.state
        have : i.cut = .delete := by
          by_contra hn
          rw [if_neg hn, hdel] at hst
          cases hst
        exact ⟨this, hcut this⟩
      · exact ⟨h.state.2.2, h.state.2.1⟩
    refine ⟨(Phase.plain_itemState (.inl rfl)).mpr ⟨?_, fun _ => cut.2⟩, h.raw, fun _ w => ?_, h.proof⟩
    · simp [cut.1, hdel]
    · rw [cut.2] at w
      cases w

/-- A job of a record that is being deleted leaves the list (R130, R45). -/
theorem Books.endCancelled {j : Job} (g : Dve → Dve) (h : Books ph mv o s) (hg : (g s.dve).jobs = s.dve.jobs)
    (hj : j ∈ s.dve.jobs) (hd : JobsOk ((s.updDve g).dropJob j.shot).dve) (hp : ph j.shot = .calm ∨ ph j.shot = .dying)
    (hdel : ∀ r, s.record j.shot = some r → r.state = .deleting) :
    Books (Phase.at ph j.shot .calm) mv o (endCancelled j (s.updDve g)) := by
  obtain ⟨r, hr, -⟩ := h.record_of_job hj
  have gone : Books (Phase.at ph j.shot .calm) mv (j.slabs ++ o) (((s.updDve g).dropJob j.shot).updRecord j.shot fun r =>
      { r with proofState := if r.proof.isSome then .done else .none }) := by
    refine h.dropJob g hg hj hr (fun m hm => Phase.at_ne ph _ hm) hd (fun a => ?_) fun ok => ?_
    · rw [List.count_append]
      rfl
    · rw [Phase.at_same]
      exact (ok.withoutJob hp (hdel r hr) _).congr rfl rfl rfl (fun _ => rfl) (fun _ => rfl)
  have tail : ∀ u, Books (Phase.at ph j.shot .calm) mv o u
      → Books (Phase.at ph j.shot .calm) mv o (Machine.pick (Machine.testRelease j.shot u)) :=
    fun u hu => (hu.testRelease j.shot (by rw [Phase.at_same]; exact .inl rfl)).pick
  unfold Machine.endCancelled
  dsimp only
  cases hpr : j.progress with
  | none =>
    simp only [Job.slabs, hpr, List.nil_append] at gone
    exact tail _ gone
  | some p =>
    simp only [Job.slabs, hpr] at gone
    exact tail _ gone.releaseChain

theorem cancelMark_jobs {j : Job} (h : JobsOk s.dve) (hj : j ∈ s.dve.jobs) (hr : j.state = .running) :
    JobsOk (s.updJob j.shot fun x => { x with cancel := true }).dve := by
  have ok := h.each j hj
  refine h.updJob hj ⟨ok.number, ok.progress, fun _ => hr, ok.thermal, ok.stripes⟩ (fun hc => .inl hc)
    (fun he => .inl ⟨he, rfl⟩) fun hr => .inl hr

/-- The cancel mark of a RUNNING job (R130). -/
theorem Books.cancelMark {j : Job} (h : Books ph mv o s) (hj : j ∈ s.dve.jobs) (hr : j.state = .running)
    (hp : ph j.shot = .dying) :
    Books (Phase.at ph j.shot .calm) mv o (s.updJob j.shot fun x => { x with cancel := true }) := by
  have hjobs := cancelMark_jobs h.jobs hj hr
  have hrec : ∀ m, (s.updJob j.shot fun x => { x with cancel := true }).record m = s.record m := fun m => rfl
  have hslab : ∀ a, ((s.updJob j.shot fun x => { x with cancel := true }).dve.jobs.map fun x => x.slabs.count a).sum
      = (s.dve.jobs.map fun x => x.slabs.count a).sum := fun a => by
    have := updJob_slabs h.jobs hj (fun x => { x with cancel := true }) a
    have e : (j.updated fun x => { x with cancel := true }).slabs = j.slabs := rfl
    rw [e] at this
    omega
  refine h.atShot j.shot h.catalog h.queue hjobs (h.store.of_count rfl rfl fun a => ?_) h.slots
    (fun m hm => ⟨Phase.at_ne ph _ hm, ?_⟩) ?_
  · unfold State.holdings
    rw [hslab]
    rfl
  · refine View.eq_of rfl rfl ?_ (fun k => by cases k <;> rfl) (fun k => by cases k <;> rfl)
    rw [view_job, view_job]
    unfold State.job
    rw [updJob_dve]
    dsimp only
    rw [List.find?_map]
    have : ((fun x : Job => x.shot == m) ∘ fun x => if x.shot == j.shot then Job.updated (fun x => { x with cancel := true }) x else x)
        = fun x => x.shot == m := by
      funext x
      simp only [Function.comp]
      split <;> rfl
    rw [this]
    cases hm' : s.dve.jobs.find? fun x => x.shot == m with
    | none => rfl
    | some x =>
      have : x.shot = m := by simpa using List.find?_some hm'
      have hne : x.shot ≠ j.shot := this ▸ hm
      simp [hne]
  · have hjob : ((s.updJob j.shot fun x => { x with cancel := true }).view mv j.shot).job
        = some (j.shot, j.mode, true) := by
      rw [view_job, show (s.updJob j.shot fun x => { x with cancel := true }).job j.shot
        = some (j.updated fun x => { x with cancel := true }) from ?_]
      · rfl
      · refine JobsOk.job_eq (j := j.updated fun x => { x with cancel := true }) hjobs ?_
        rw [updJob_dve]
        refine List.mem_map.mpr ⟨j, hj, by simp⟩
    have hold : (s.view mv j.shot).job = some j.key := by rw [view_job, h.jobs.job_eq hj]; rfl
    rw [Phase.at_same]
    refine ⟨fun r hr => ?_, fun hr => ?_⟩
    · have ok := h.recordOk hr
      rw [hp] at ok
      obtain ⟨hm, hraw, hst⟩ := ok.job _ hold
      have hst : r.state = .deleting := hst
      have ok' := (ok.withoutJob (.inr rfl) hst r.proofState)
      refine ⟨ok.rawPins, ok.proofPins, ok.settled, ok.unstored, fun e => absurd (hst.symm.trans e) (by decide), ok.done,
        ok.figures, ok.queued, ok.writes, ok.oneCard, ok.cards, ok.writing, fun k hk => ?_, ok'.items⟩
      rw [hjob] at hk
      cases hk
      exact ⟨hm, hraw, hst⟩
    · have := ((h.shots j.shot).none hr).job
      rw [hold] at this
      cases this

/-- The CAT has a shot's job cancelled (R130). -/
theorem Books.cancelJob {n : Nat} (h : Books ph mv o s) (hp : ph n = .dying) : Books (Phase.at ph n .calm) mv o (cancelJob n s) := by
  unfold Machine.cancelJob
  split
  case _ j hj =>
    obtain ⟨hm, rfl⟩ := job_mem hj
    split
    case isTrue hr => exact h.cancelMark hm (by simpa using hr) hp
    case isFalse hr =>
      have hr : j.state ≠ .running := by simpa using hr
      refine h.endCancelled (fun d => d) rfl hm ?_ (.inr hp) fun r hrec => ?_
      · refine h.jobs.dropJob (.inr fun x hx hs => ?_)
        rw [h.jobs.unique hx hm hs]
        exact hr
      · obtain ⟨r', hr', -, -, hst⟩ := h.record_of_job hm
        rw [hrec] at hr'
        cases hr'
        rw [hp] at hst
        exact hst
  case _ hj =>
    refine h.rephase n .calm fun r hr ok => ?_
    rw [hp] at ok
    refine ok.rephase (fun i _ hi => ?_) fun k hk => ?_
    · refine ⟨(Phase.plain_itemState (.inl rfl)).mpr ⟨?_, fun _ => hi.state.2.1⟩, hi.raw, fun c w => ?_, hi.proof⟩
      · rw [if_pos hi.state.2.2]; exact hi.state.1
      · rw [hi.state.2.1] at w; cases w
    · rw [view_job_none.mpr hj] at hk
      cases hk

/-! ## Completion (R129) -/

/-- A completed proof in place of the one before it (R129). -/
theorem RecordOk.completed {v : View} {r : Record} (ok : RecordOk .calm v r) {x : DoneProof} (hst : r.state = .stored)
    (hx : x.histogram.length = 64 ∧ x.histogram.sum = proofPixels r.mode x.params.scale r.mode.stripes ∧ x.clipCount ≤ r.mode.quads) :
    RecordOk .fresh { v with job := none } { r with proof := some x, proofState := .done } where
  rawPins := ok.rawPins
  proofPins := ok.proofPins
  settled := ok.settled
  unstored := fun h => by rcases h with h | h <;> exact absurd (hst.symm.trans h) (by decide)
  pending := fun _ => by simp
  done := fun _ _ => by simp
  figures := fun y hy => by cases hy; exact hx
  queued := ok.queued
  writes := ok.writes
  oneCard := ok.oneCard
  cards := ok.cards
  writing := ok.writing
  job := fun k hk => by cases hk
  items := fun i hi =>
    have h := ok.items i hi
    ⟨Phase.itemState_congr (by rfl) ((Phase.plain_itemState (.inr (.inl rfl))).mpr ((Phase.plain_itemState (.inl rfl)).mp h.state)),
      h.raw, fun _ _ => by simp [Phase.awaited], fun _ _ => by simp⟩

/-- The TTC hears of a completed job: no item of the shot waits after it (R169). -/
theorem Books.ttcJobCompleted {n : Nat} (h : Books ph mv o s) (hp : ph n = .fresh) (clip : Nat) (m : Mode) :
    Books (Phase.at ph n .calm) mv o (ttcJobCompleted n clip m s) := by
  have plain : (ph n).plain := .inr (.inl hp)
  unfold Machine.ttcJobCompleted
  split
  case _ i hi =>
    obtain ⟨hm, hs, hc⟩ := itemFor_some hi
    have theOne : ∀ x ∈ s.ttc.queue, x.shot = n → x.content = .proof → x = i := fun x hx hxs hxc =>
      h.queue.unique_content hx hm (hxs.trans hs.symm) (hxc.trans hc.symm)
    split
    case isTrue hw =>
      have hw : i.state = .waitingProof := by simpa using hw
      split
      · refine (h.becomeReady hm (by rwa [hs]) (by simp [hw]) fun _ r hr => ?_).toCalm plain fun x hx hxs hxc => ?_
        · have ok := (h.recordOk hr).items i (mem_view_items.mpr ⟨hm, rfl⟩)
          rw [hs, hp] at ok
          exact ok.waits hc hw
        · rw [becomeReady_queue] at hx
          rcases mem_updItem hx with ⟨hx, hne⟩ | ⟨y, -, -, rfl⟩
          · exact absurd (congrArg SendItem.serial (theOne x hx hxs hxc)) hne
          · simp
      · refine (h.leaveAndTest hm .dropped (by rw [hs]; exact .inr (.inl hp))).toCalm plain fun x hx hxs hxc => ?_
        rw [leaveAndTest_queue] at hx
        obtain ⟨hx, hne⟩ := List.mem_filter.mp hx
        rw [theOne x hx hxs hxc] at hne
        simp at hne
    case isFalse hw =>
      refine h.toCalm plain fun x hx hxs hxc => ?_
      rw [theOne x hx hxs hxc]
      simpa using hw
  case _ hi =>
    exact h.toCalm plain fun x hx hxs hxc => absurd hxc (itemFor_none_iff.mp hi x hx hxs)

theorem stripes_quads (m : Mode) : m.stripes * (32 * quadColumns m) = m.quads := by cases m <;> rfl

/-- A job whose last stripe is done completes (R129). -/
theorem Books.completeJob {j : Job} {p : Progress} (g : Dve → Dve) (h : Books ph mv o s) (hg : (g s.dve).jobs = s.dve.jobs)
    (hj : j ∈ s.dve.jobs) (hd : JobsOk ((s.updDve g).dropJob j.shot).dve) (hp : ph j.shot = .calm) (hc : j.cancel = false)
    (hpr : j.progress = some p) (hall : p.next = j.mode.stripes) : Books ph mv o (completeJob j p (s.updDve g)) := by
  obtain ⟨r, hr, hmode, -, hst⟩ := h.record_of_job hj
  have hst : r.state = .stored := by
    rw [hp] at hst
    simpa [Phase.jobState, hc] using hst
  obtain ⟨hlen, hsum, hclip⟩ := (h.jobs.each j hj).stripes p hpr
  rw [hall, ← hmode] at hsum
  rw [hall, stripes_quads, ← hmode] at hclip
  have done : Books (Phase.at ph j.shot .fresh) mv ((r.proof.map DoneProof.chain).getD [] ++ o)
      (((s.updDve g).dropJob j.shot).updRecord j.shot fun r => { r with
        proof := some { params := j.params, chain := p.chain, clipCount := p.clipCount, histogram := p.histogram },
        proofState := .done }) := by
    refine h.dropJob g hg hj hr (fun m hm => Phase.at_ne ph _ hm) hd (fun a => ?_) fun ok => ?_
    · cases hx : r.proof <;> simp only [Record.slabs, Record.updated, Job.slabs, hpr, hx, List.count_append, Option.map_some,
        Option.map_none, Option.getD_some, Option.getD_none, List.count_nil] <;> omega
    · rw [hp] at ok
      rw [Phase.at_same]
      exact (ok.completed (x := { params := j.params, chain := p.chain, clipCount := p.clipCount, histogram := p.histogram })
        hst ⟨hlen, hsum, hclip⟩).congr rfl rfl rfl (fun _ => rfl) (fun _ => rfl)
  have tail : ∀ u, Books (Phase.at ph j.shot .fresh) mv o u → ∀ n, Books ph mv o
      (Machine.pick (Machine.ttcJobCompleted j.shot p.clipCount j.mode ((Machine.testRelease j.shot u).offer .body n))) := by
    intro u hu n
    have h1 := (hu.testRelease j.shot (by rw [Phase.at_same]; exact .inr (.inl rfl))).offer .body n
    have h2 := h1.ttcJobCompleted (Phase.at_same _ _ _) p.clipCount j.mode
    rw [Phase.at_at, ← hp, Phase.at_self] at h2
    exact h2.pick
  unfold Machine.completeJob
  dsimp only
  rw [show (s.updDve g).record j.shot = some r from hr, Option.bind_some]
  cases hold : r.proof with
  | none =>
    rw [hold] at done
    exact tail _ done _
  | some x =>
    rw [hold] at done
    exact tail _ (done.cutRead _).releaseChain _

/-! ## A stripe (R122) -/

theorem toneOf_le (tone : List Byte) (v : Nat) : toneOf tone v ≤ 255 := by
  have := ((tone.getD (v / 16) 0).isLt)
  unfold toneOf
  omega

/-- A pixel of three bytes. -/
def Rgb.Bytes (p : Rgb) : Prop := p.red ≤ 255 ∧ p.green ≤ 255 ∧ p.blue ≤ 255

theorem developQuad_bytes (x : Recipe) (r g1 g2 b : Nat) : (developQuad x r g1 g2 b).Bytes := by
  unfold developQuad
  dsimp only
  split <;> exact ⟨toneOf_le _ _, toneOf_le _ _, toneOf_le _ _⟩

theorem mean4_le {a b c d : Nat} (ha : a ≤ 255) (hb : b ≤ 255) (hc : c ≤ 255) (hd : d ≤ 255) : mean4 a b c d ≤ 255 := by
  unfold mean4
  omega

theorem proofPixel_bytes (d : Memory) (chain : List Nat) (m : Mode) (x : Recipe) (col row : Nat) :
    (proofPixel d chain m x col row).Bytes := by
  have quad : ∀ i j, (quadAt d chain m x i j).Bytes := fun i j => developQuad_bytes x _ _ _ _
  unfold proofPixel
  split
  · exact quad _ _
  · exact ⟨mean4_le (quad _ _).1 (quad _ _).1 (quad _ _).1 (quad _ _).1,
      mean4_le (quad _ _).2.1 (quad _ _).2.1 (quad _ _).2.1 (quad _ _).2.1,
      mean4_le (quad _ _).2.2 (quad _ _).2.2 (quad _ _).2.2 (quad _ _).2.2⟩

theorem luminance_bin {p : Rgb} (h : p.Bytes) : luminance p / 4 < 64 := by
  obtain ⟨hr, hg, hb⟩ := h
  unfold luminance
  omega

theorem countPixel_length (h : List Nat) (p : Rgb) : (countPixel h p).length = h.length := by simp [countPixel]

theorem countPixel_sum {h : List Nat} {p : Rgb} (hl : h.length = 64) (hp : p.Bytes) : (countPixel h p).sum = h.sum + 1 := by
  have hk : luminance p / 4 < h.length := by rw [hl]; exact luminance_bin hp
  unfold countPixel
  dsimp only
  have e := List.sum_set h (luminance p / 4) (h.getD (luminance p / 4) 0 + 1)
  rw [if_pos hk] at e
  have e2 : h.sum = (h.take (luminance p / 4)).sum + (h[luminance p / 4] + (h.drop (luminance p / 4 + 1)).sum) := by
    conv_lhs => rw [← List.take_append_drop (luminance p / 4) h]
    rw [List.sum_append, List.drop_eq_getElem_cons hk, List.sum_cons]
  rw [e, e2, List.getD_eq_getElem _ _ hk]
  omega

/-- Counting pixels keeps the bins and adds one to the sum for each (R128). -/
theorem countPixels {xs : List Rgb} (hx : ∀ p ∈ xs, p.Bytes) {h : List Nat} (hl : h.length = 64) :
    (xs.foldl countPixel h).length = 64 ∧ (xs.foldl countPixel h).sum = h.sum + xs.length := by
  induction xs generalizing h with
  | nil => exact ⟨hl, rfl⟩
  | cons p xs ih =>
    obtain ⟨h1, h2⟩ := ih (fun q hq => hx q (List.mem_cons_of_mem _ hq)) (h := countPixel h p) (by rw [countPixel_length, hl])
    refine ⟨h1, ?_⟩
    rw [List.foldl_cons, h2, countPixel_sum hl (hx p (by simp)), List.length_cons]
    omega

theorem stripePixels_length (d : Memory) (chain : List Nat) (m : Mode) (x : Recipe) (k : Nat) :
    (stripePixels d chain m x k).length = x.params.scale.stripeRows * x.params.scale.columns m := by
  simp [stripePixels, List.length_flatMap]

theorem stripePixels_bytes {d : Memory} {chain : List Nat} {m : Mode} {x : Recipe} {k : Nat} :
    ∀ p ∈ stripePixels d chain m x k, p.Bytes := by
  intro p hp
  simp only [stripePixels, List.mem_flatMap, List.mem_map] at hp
  obtain ⟨r, -, c, -, rfl⟩ := hp
  exact proofPixel_bytes _ _ _ _ _ _

theorem stripeClips_le (d : Memory) (chain : List Nat) (m : Mode) (x : Recipe) (k : Nat) :
    stripeClips d chain m x k ≤ 32 * quadColumns m := by
  unfold stripeClips
  refine (List.sum_le_card_nsmul _ (quadColumns m) fun c hc => ?_).trans (by simp)
  obtain ⟨r, -, rfl⟩ := List.mem_map.mp hc
  exact (List.length_filter_le _ _).trans (by simp)

/-- A stripe keeps what the progress of a job is held to (R122, R128). -/
theorem carryStripe_stripes {j : Job} {r : Record} {p : Progress} {v : Dve} {d : Memory} (hl : p.histogram.length = 64)
    (hs : p.histogram.sum = proofPixels j.mode j.params.scale p.next) (hc : p.clipCount ≤ p.next * (32 * quadColumns j.mode)) :
    let q := (carryStripe j r p v d).2
    q.chain = p.chain ∧ q.histogram.length = 64 ∧ q.histogram.sum = proofPixels j.mode j.params.scale q.next
      ∧ q.clipCount ≤ q.next * (32 * quadColumns j.mode) := by
  obtain ⟨h1, h2⟩ := countPixels (xs := stripePixels d (r.raw.getD []) j.mode (recipeOf j r v) p.next) stripePixels_bytes hl
  refine ⟨rfl, h1, ?_, ?_⟩
  · show List.sum (List.foldl _ _ _) = _
    rw [h2, stripePixels_length, hs]
    show _ = (p.next + 1) * _
    rw [Nat.add_mul, Nat.one_mul]
    rfl
  · have := stripeClips_le d (r.raw.getD []) j.mode (recipeOf j r v) p.next
    show p.clipCount + stripeClips _ _ _ _ _ ≤ (p.next + 1) * _
    rw [Nat.add_mul, Nat.one_mul]
    omega

/-! ### After the stripe -/

/-- While a job is RUNNING, an applied thermal state changes nothing but the state itself (R116). -/
theorem applyThermal_running {j : Job} (h : JobsOk s.dve) (hj : j ∈ s.dve.jobs) (hr : j.state = .running) (th : Thermal) :
    applyThermal th s = s.updDve fun d => { d with applied := th } := by
  have hcur : (s.updDve fun d => { d with applied := th }).currentJob = some j := by
    show s.currentJob = some j
    cases hc : s.currentJob with
    | none =>
      have := currentJob_none.mp hc j hj
      rw [isCurrent_iff.mpr (.inl hr)] at this
      cases this
    | some x =>
      obtain ⟨hx, hxc⟩ := currentJob_some hc
      rw [h.unique hx hj (h.oneCurrent x hx j hj hxc (isCurrent_iff.mpr (.inl hr)))]
  have hre : requeueWaiting (fun j => th == .hot || (th == .warm && j.cls == .normal))
      (s.updDve fun d => { d with applied := th }) = s.updDve fun d => { d with applied := th } := by
    unfold requeueWaiting
    rw [hcur]
    simp [hr]
  unfold applyThermal
  rw [hre]
  unfold Machine.pick
  rw [hcur]

/-- A thermal state applied with nothing pending any more. -/
def Dve.withApplied (t : Thermal) (d : Dve) : Dve := { d with applied := t, pendingThermal := none }

/-- While a job is RUNNING, what R122 does after a stripe starts from the thermal state that waits, applied. -/
theorem afterStripe_thermal {j x : Job} {p : Progress} (h : JobsOk s.dve) (hj : x ∈ s.dve.jobs) (hr : x.state = .running) :
    ∃ th, afterStripe j p s = afterStripe j p (s.updDve (Dve.withApplied th)) := by
  cases hp : s.dve.pendingThermal with
  | none =>
    refine ⟨s.dve.applied, congrArg _ ?_⟩
    show s = { s with dve := { s.dve with applied := s.dve.applied, pendingThermal := none } }
    rw [← hp]
  | some th =>
    have e := applyThermal_running (s := s.updDve fun d => { d with pendingThermal := none }) h.pendingNone hj hr th
    refine ⟨th, ?_⟩
    rw [show s.updDve (Dve.withApplied th) = applyThermal th (s.updDve fun d => { d with pendingThermal := none }) from e.symm]
    have hn : (applyThermal th (s.updDve fun d => { d with pendingThermal := none })).dve.pendingThermal = none := by rw [e]; rfl
    unfold afterStripe
    rw [hp, hn]

section
variable {j : Job} (h : JobsOk s.dve) (hj : j ∈ s.dve.jobs) (hr : j.state = .running) (th : Thermal)
include h hj hr

/-- Every other job than the RUNNING one is not current. -/
theorem JobsOk.others : ∀ x ∈ s.dve.jobs, x.shot ≠ j.shot → x.isCurrent = false := by
  intro x hx hne
  by_contra hc
  exact hne (h.oneCurrent x hx j hj (by simpa using hc) (isCurrent_iff.mpr (.inl hr)))

/-- The list without the RUNNING job is in order under any thermal state. -/
theorem JobsOk.dropRunning : JobsOk ((s.updDve (Dve.withApplied th)).dropJob j.shot).dve := by
  have hd : JobsOk ((s.updDve fun d => { d with pendingThermal := none }).dropJob j.shot).dve :=
    JobsOk.dropJob (s := s.updDve fun d => { d with pendingThermal := none }) h.pendingNone (.inl rfl)
  refine hd.applied (t := th) fun x hx hc => ?_
  obtain ⟨hx, hne⟩ := List.mem_filter.mp hx
  rw [h.others hj hr x hx (by simpa using hne)] at hc
  cases hc

/-- The list with the RUNNING job suspended is in order under any thermal state (R123). -/
theorem JobsOk.suspendRunning (hc : j.cancel = false) :
    JobsOk ((s.updDve (Dve.withApplied th)).updJob j.shot fun x => { x with state := .suspended }).dve := by
  have ok := h.each j hj
  have hd : JobsOk ((s.updDve fun d => { d with pendingThermal := none }).updJob j.shot fun x => { x with state := .suspended }).dve := by
    refine JobsOk.updJob (s := s.updDve fun d => { d with pendingThermal := none }) h.pendingNone hj
      ⟨ok.number, ?_, ?_, ?_, ok.stripes⟩ ?_ ?_ fun _ => .inr rfl
    · have := ok.progress
      simp only [hr] at this
      simpa [Job.updated] using this
    · simp [Job.updated, hc]
    · simp [Job.updated, Job.isCurrent]
    · simp [Job.updated, Job.isCurrent]
    · exact fun _ => .inl ⟨engaged_iff.mpr (.inl (isCurrent_iff.mpr (.inl hr))), rfl⟩
  refine hd.applied (t := th) fun x hx hcur => ?_
  rcases mem_updJob hx with ⟨hx, hne⟩ | ⟨y, -, -, rfl⟩
  · rw [h.others hj hr x hx hne] at hcur
    cases hcur
  · simp [Job.updated, Job.isCurrent] at hcur

/-- A RUNNING job that is not preempted is one the thermal state allows (R123, R116). -/
theorem JobsOk.keepRunning (hp : preempted j (s.updDve (Dve.withApplied th)) = false) :
    JobsOk (s.updDve (Dve.withApplied th)).dve := by
  refine h.pendingNone.applied (t := th) fun x hx hc => ?_
  have hxj : x = j := by
    by_contra hne
    rw [h.others hj hr x hx fun e => hne (h.unique hx hj e)] at hc
    cases hc
  subst hxj
  cases hcls : x.cls with
  | urgent =>
    have : th ≠ .hot := by simpa [preempted, hcls, Dve.withApplied] using hp
    exact ⟨this, fun _ => rfl⟩
  | normal =>
    have : th = .normal := by
      simp only [preempted, hcls, Bool.or_eq_false_iff] at hp
      simpa [Dve.withApplied] using hp.2
    rw [this]
    exact ⟨by decide, by decide⟩

end

/-- Steps 2 to 6 of R122 keep the books. -/
theorem Books.afterStripe {j : Job} {p : Progress} (h : Books calm mv o s) (hj : { j with progress := some p } ∈ s.dve.jobs)
    (hr : j.state = .running) : Books calm mv o (afterStripe j p s) := by
  obtain ⟨th, hth⟩ := afterStripe_thermal (j := j) (p := p) h.jobs hj hr
  rw [hth]
  unfold Machine.afterStripe
  rw [show (s.updDve (Dve.withApplied th)).dve.pendingThermal = none from rfl]
  dsimp only
  have hdrop := h.jobs.dropRunning hj hr th
  split
  case isTrue hc =>
    have := h.endCancelled (Dve.withApplied th) rfl hj hdrop (.inl rfl) fun r hrec => by
      obtain ⟨r', hr', -, -, hst⟩ := h.record_of_job hj
      have hr' : s.record j.shot = some r' := hr'
      have hrec : s.record j.shot = some r := hrec
      rw [hrec] at hr'
      cases hr'
      simpa [calm, Phase.jobState, hc] using hst
    rwa [show Phase.at calm j.shot .calm = calm from Phase.at_self calm j.shot] at this
  case isFalse hc =>
    have hc : j.cancel = false := by simpa using hc
    split
    case isTrue hall => exact h.completeJob (j := { j with progress := some p }) (Dve.withApplied th) rfl hj hdrop rfl hc rfl hall
    case isFalse =>
      split
      case isTrue hpre =>
        have hsus := h.jobs.suspendRunning hj hr th hc
        refine Books.pick (h.shuffle ⟨rfl, rfl, rfl, rfl, rfl, rfl, ?_, fun a => ?_, hsus⟩)
        · exact updJob_map_key (s.updDve (Dve.withApplied th)) _ _ Job.key fun _ _ _ => rfl
        · have e := updJob_map_key (s.updDve (Dve.withApplied th)) j.shot (fun x => { x with state := .suspended })
            (fun x => x.slabs.count a) fun _ _ _ => rfl
          unfold State.holdings
          rw [e]
          rfl
      case isFalse hpre =>
        have hk := h.jobs.keepRunning hj hr th (by simpa [preempted] using hpre)
        exact h.shuffle (Shuffle.dve _ rfl hk)

/-- A stripe done keeps the books (R122). -/
theorem Books.stripeDone (h : Books calm mv o s) : Books calm mv o (stripeDone s) := by
  unfold Machine.stripeDone
  split
  · exact h
  case _ j hrun =>
    have hj : j ∈ s.dve.jobs := List.mem_of_find?_eq_some hrun
    have hr : j.state = .running := by simpa using List.find?_some hrun
    split
    case _ p r hp hrec =>
      have ok := h.jobs.each j hj
      obtain ⟨hl, hs, hc⟩ := ok.stripes p hp
      have stripe := carryStripe_stripes (r := r) (v := s.dve) (d := s.dram) hl hs hc
      generalize carryStripe j r p s.dve s.dram = out at stripe ⊢
      obtain ⟨d, q⟩ := out
      obtain ⟨hchain, hq⟩ := stripe
      have h1 : Books calm mv o (s.updDram fun _ => d) := h.same (.dram s _)
      have hjobs : JobsOk ((s.updDram fun _ => d).updJob j.shot fun x => { x with progress := some q }).dve := by
        refine JobsOk.updJob (s := s.updDram fun _ => d) h.jobs hj ⟨ok.number, ?_, ok.cancel, ok.thermal, ?_⟩ (fun hc => .inl hc)
          (fun he => .inl ⟨he, rfl⟩) fun hr => .inl hr
        · simp [Job.updated, hr]
        · intro x hx
          cases hx
          exact hq
      have h2 := h1.shuffle (Shuffle.updJob (s := s.updDram fun _ => d) (f := fun x => { x with progress := some q })
        h.jobs hj rfl (by simpa [Job.slabs, Job.updated, hp] using hchain) hjobs)
      refine h2.afterStripe ?_ hr
      rw [updJob_dve]
      exact List.mem_map.mpr ⟨j, hj, by simp [Job.updated]⟩
    · exact h

end

end Sys2Proof.Machine
end

section
/-! SUPPORT. The send queue over the books: items that join, are raised, return to the head, and leave when the session ends (R160, R163
to R168, R172). -/

namespace Sys2Proof.Machine

section
variable {ph : Nat → Phase} {mv : Hands} {o : List Nat} {s t : State}

/-! ## A change of one shot's items and pins -/

/-- What of a record the books know beside its pins. -/
def Record.body (r : Record) : Mode × RecordState × Option (List Nat) × ProofState × Option DoneProof × Bool × Requirement
    × Requirement := (r.mode, r.state, r.raw, r.proofState, r.proof, r.hold, r.reqA, r.reqB)

theorem ItemOk.congr {p : Phase} {r x : Record} {i : SendItem} (h : ItemOk p r i) (hs : x.state = r.state) (hr : x.raw = r.raw)
    (hp : x.proofState = r.proofState) (hx : x.proof = r.proof) : ItemOk p x i :=
  ⟨Phase.itemState_congr hs h.state, fun c => hr ▸ h.raw c, fun c w => Phase.awaited_congr hp hx (h.waits c w),
    fun c w => hx ▸ h.proof c w⟩

/-- The law of a record under other items and pins. -/
theorem RecordOk.withItems {p q : Phase} {v : View} {r x : Record} {items : List SendItem} (ok : RecordOk p v r)
    (hb : x.body = r.body) (hraw : x.rawPins = (items.countP fun i => i.content == .raw) + r.hold.toNat)
    (hproof : x.proofPins = (items.countP fun i => i.content == .proof) + r.hold.toNat)
    (hj : ∀ c, p.jobState r c → q.jobState r c) (hi : ∀ i ∈ items, ItemOk q r i) :
    RecordOk q { v with items := items } x := by
  simp only [Record.body, Prod.mk.injEq] at hb
  obtain ⟨h1, h2, h3, h4, h5, h6, h7, h8⟩ := hb
  have base : RecordOk q { v with items := items } { r with rawPins := x.rawPins, proofPins := x.proofPins } :=
    ⟨hraw, hproof, ok.settled, ok.unstored, ok.pending, ok.done, ok.figures, ok.queued, ok.writes, ok.oneCard, ok.cards,
      ok.writing, fun k hk => ⟨(ok.job k hk).1, (ok.job k hk).2.1, Phase.jobState_congr (by rfl) (hj _ (ok.job k hk).2.2)⟩,
      fun i hm => (hi i hm).congr rfl rfl rfl rfl⟩
  refine base.congr ?_ rfl rfl (fun _ => rfl) (fun _ => rfl)
  simp only [Record.core, h1, h2, h3, h4, h5, h6, h7, h8]

theorem Record.slabs_body {r x : Record} (h : x.body = r.body) : x.slabs = r.slabs := by
  simp only [Record.body, Prod.mk.injEq] at h
  obtain ⟨-, -, h3, -, h5, -⟩ := h
  simp only [Record.slabs, h3, h5]

/-- A change of the items of one shot, with the pins and marks of its record. -/
theorem Books.atItems {ph' : Nat → Phase} {n : Nat} {r : Record} {f : Record → Record} (h : Books ph mv o s)
    (hr : s.record n = some r) (hc : t.cat = (s.updRecord n f).cat) (hd : t.dve = s.dve) (hk : t.crw = s.crw)
    (hf : t.fsc = s.fsc) (hq : QueueOk t.ttc) (hb : (r.updated f).body = r.body)
    (hother : ∀ m, m ≠ n → ph' m = ph m
      ∧ (t.ttc.queue.filter fun i => i.shot == m) = s.ttc.queue.filter fun i => i.shot == m)
    (hok : RecordOk (ph n) (s.view mv n) r
      → RecordOk (ph' n) { s.view mv n with items := t.ttc.queue.filter fun i => i.shot == n } (r.updated f)) :
    Books ph' mv o t := by
  have hslot : ∀ k, t.slot k = s.slot k := fun k => by cases k <;> simp only [State.slot, hk]
  have hrec : ∀ m, t.record m = (s.updRecord n f).record m := fun m => by unfold State.record; rw [hc]
  refine h.atShot n (catalogLaw.congr ((Cascade.record s n f).keeps_catalog h.catalog) hc) hq (hd ▸ h.jobs)
    (h.store.of_count (by rw [hf]) (by rw [hf]) fun a => ?_) (fun k => hslot k ▸ h.slots k) (fun m hm => ⟨(hother m hm).1, ?_⟩) ?_
  · have h1 := updRecord_slabs h.catalog hr f a
    rw [Record.slabs_body hb] at h1
    unfold State.holdings
    rw [hf, hc, hd]
    omega
  · refine View.eq_of ((hrec m).trans (updRecord_record_ne s f hm)) (hother m hm).2 ?_ (fun k => ?_) (fun k => ?_)
    · simp only [State.view, hd]
    · cases k <;> simp only [State.view, State.cardQueue, hk]
    · simp only [State.view, hslot]
  · have hsame : t.record n = some (r.updated f) := by rw [hrec, updRecord_record_same, hr]; rfl
    refine ⟨fun x hx => ?_, fun hx => ?_⟩
    · have hx : t.record n = some x := hx
      rw [hsame] at hx
      cases hx
      refine (hok (h.recordOk hr)).congr rfl rfl ?_ (fun k => ?_) (fun k => ?_)
      · simp only [State.view, hd]
      · cases k <;> simp only [State.view, State.cardQueue, hk]
      · simp only [State.view, hslot]
    · have hx : t.record n = none := hx
      rw [hsame] at hx
      cases hx

theorem updRecord_self (s : State) (n : Nat) : (s.updRecord n fun r => r) = s := by
  have : (fun x : Record => if x.shot == n then { x with shot := x.shot } else x) = id := by
    funext x
    simp
  unfold State.updRecord State.updCat
  simp only [this, List.map_id]

/-- A change of the TTC beside its queue. -/
theorem Books.ttc (h : Books ph mv o s) (f : Ttc → Ttc) (hq : (f s.ttc).queue = s.ttc.queue)
    (hn : (f s.ttc).nextSerial = s.ttc.nextSerial) : Books ph mv o (s.updTtc f) :=
  h.same ⟨rfl, rfl, hq, hn, rfl, rfl, rfl, rfl, fun k => by cases k <;> rfl, rfl, rfl, rfl, rfl⟩

theorem itemFor_none_items {n : Nat} {c : Content} (h : s.itemFor n c = none) :
    ∀ i ∈ (s.view mv n).items, i.content ≠ c := fun i hi =>
  have ⟨hm, hs⟩ := mem_view_items.mp hi
  itemFor_none_iff.mp h i hm hs

/-! ## Joining the queue (R167) -/

/-- A record with one pin of a content more and the mark QUEUED. -/
def Record.joined (c : Content) (r : Record) : Record :=
  match c with
  | .raw => { r with rawPins := r.rawPins + 1, markRaw := .queued }
  | .proof => { r with proofPins := r.proofPins + 1, markProof := .queued }

theorem pin_setMark_cat (s : State) (n : Nat) (c : Content) :
    ((s.pin n c).setMark n c .queued) = s.updRecord n (Record.joined c) := by
  unfold State.pin State.setMark
  rw [updRecord_updRecord]
  cases c <;> rfl

/-- A new item at the tail of the queue, with its pin and its mark. -/
def State.itemJoined (s : State) (i : SendItem) : State :=
  ((s.pin i.shot i.content).updTtc fun t =>
    { t with queue := t.queue ++ [i], nextSerial := nextSerialAfter i.serial }).setMark i.shot i.content .queued

theorem itemJoined_record {i : SendItem} {r : Record} (hr : s.record i.shot = some r) :
    (s.itemJoined i).record i.shot = some (r.updated (Record.joined i.content)) := by
  have : (s.itemJoined i).record i.shot = ((s.pin i.shot i.content).setMark i.shot i.content .queued).record i.shot := rfl
  rw [this, pin_setMark_cat, updRecord_record_same, hr]
  rfl

/-- A new item joins: its record takes the pin (R167). -/
theorem Books.itemJoined {i : SendItem} {r : Record} {q : Phase} (h : Books ph mv o s) (hp : ph i.shot = .calm) (hq : q.plain)
    (hr : s.record i.shot = some r) (hn : s.itemFor i.shot i.content = none) (hl : s.ttc.queue.length < Config.maxSendItems)
    (hser : i.serial = s.newSerial) (hst : i.state ≠ .sending) (hnew : ItemOk q r i)
    (hold : ∀ x ∈ (s.view mv i.shot).items, ItemOk .calm r x → ItemOk q r x) :
    Books (Phase.at ph i.shot q) mv o (s.itemJoined i) := by
  have hqueue : QueueOk (s.itemJoined i).ttc := (Cascade.one (.join s i hst hser hn hl)).keeps_queueOk h.queue
  have hfilter : ∀ m, ((s.itemJoined i).ttc.queue.filter fun x => x.shot == m)
      = (s.ttc.queue.filter fun x => x.shot == m) ++ [i].filter fun x => x.shot == m := fun m => List.filter_append _ _
  refine h.atItems (f := Record.joined i.content) hr (show ((s.pin i.shot i.content).setMark i.shot i.content .queued).cat = _ by
    rw [pin_setMark_cat]) rfl rfl rfl hqueue
    (by cases i.content <;> rfl) (fun m hm => ⟨Phase.at_ne ph q hm, ?_⟩) fun ok => ?_
  · have hne : ¬ i.shot = m := fun e => hm e.symm
    simp [hfilter, hne]
  · rw [hp] at ok
    rw [Phase.at_same]
    have hr' := ok.rawPins
    have hp' := ok.proofPins
    unfold View.naming at hr' hp'
    refine ok.withItems (by cases i.content <;> rfl) ?_ ?_ ?_ ?_
    · rw [hfilter]
      show _ = ((s.view mv i.shot).items ++ _).countP _ + _
      cases hc : i.content <;> simp [Record.updated, Record.joined, hc, List.countP_append, hr']
      omega
    · rw [hfilter]
      show _ = ((s.view mv i.shot).items ++ _).countP _ + _
      cases hc : i.content <;> simp [Record.updated, Record.joined, hc, List.countP_append, hp']
      omega
    · exact fun c hj => (Phase.plain_jobState hq).mpr ((Phase.plain_jobState (.inl rfl)).mp hj)
    · intro x hx
      rw [hfilter] at hx
      rcases List.mem_append.mp hx with hx | hx
      · exact hold x hx (ok.items x hx)
      · simp only [BEq.rfl, List.filter_cons_of_pos, List.filter_nil, List.mem_singleton] at hx
        rw [hx]
        exact hnew

/-- Steps 4 and 5 of R167, for a content that is available and, if it is a proof, there or PENDING. -/
theorem Books.joinQueue {n : Nat} {c : Content} {r : Record} (h : Books ph mv o s) (hp : ph n = .calm)
    (hr : s.record n = some r) (hav : r.available c = true) (hpr : c = .proof → r.proofState ≠ .none)
    (hn : s.itemFor n c = none) (hl : s.ttc.queue.length < Config.maxSendItems) (cls : Priority) (og : Option Nat) (m : Nat)
    (sc : Scale) : Books ph mv o (joinQueue n c cls og m sc s) := by
  have ok := h.recordOk hr
  have hst : r.state = .stored := by cases c <;> simp_all [Record.available]
  unfold Machine.joinQueue
  extract_lets serial item u
  have hu : u = s.itemJoined item := rfl
  have self : Phase.at ph n .calm = ph := hp ▸ Phase.at_self ph n
  have state : ∀ q : Phase, q.plain → q.itemState r item := fun q hq =>
    (Phase.plain_itemState hq).mpr ⟨by simpa [item] using hst, fun e => by simp [item] at e⟩
  have hmem : ∀ v : State, v.ttc = u.ttc → item ∈ v.ttc.queue := fun v hv => by
    rw [hv]
    exact List.mem_append_right _ (by simp)
  have join : ∀ q : Phase, q.plain → ItemOk q r item
      → (∀ x ∈ (s.view mv n).items, ItemOk .calm r x → ItemOk q r x) → Books (Phase.at ph n q) mv o u :=
    fun q hq hnew hold => h.itemJoined (i := item) hp hq hr hn hl rfl (by simp [item]) hnew hold
  split
  case _ =>
    have hraw : r.raw ≠ none := by
      rw [← Option.isSome_iff_ne_none]
      simpa [Record.available, hst] using hav
    have joined := join .calm (.inl rfl) ⟨state _ (.inl rfl), fun _ => hraw, fun c => by simp [item] at c, fun c => by simp [item] at c⟩
      fun _ _ => id
    rw [self] at joined
    exact joined.becomeReady (hmem u rfl) (by rw [show item.shot = n from rfl, hp]; exact .inl rfl) (by simp [item])
      fun c => by simp [item] at c
  case _ r' hr' =>
    have hrec : u.record n = some (r.updated (Record.joined .proof)) := itemJoined_record (i := item) hr
    rw [hrec] at hr'
    cases hr'
    have hpr := hpr rfl
    split
    case isTrue hd =>
      have hd : r.proofState = .done := by simpa [Record.updated, Record.joined] using hd
      have hx : r.proof ≠ none := ok.done hst hd
      have joined := join .fresh (.inr (.inl rfl))
        ⟨state _ (.inr (.inl rfl)), fun c => by simp [item] at c, fun _ _ => hx, fun _ _ => hx⟩
        fun x hx' hi => ⟨(Phase.plain_itemState (.inr (.inl rfl))).mpr ((Phase.plain_itemState (.inl rfl)).mp hi.state), hi.raw,
          fun c => absurd c (itemFor_none_items hn x hx'), hi.proof⟩
      have ready := joined.becomeReady (hmem u rfl) (by rw [show item.shot = n from rfl, Phase.at_same]; exact .inr (.inl rfl))
        (by simp [item])
        fun _ y hy => by
          rw [show item.shot = n from rfl, hrec] at hy
          cases hy
          exact hx
      have calm := ready.toCalm (n := n) (by rw [Phase.at_same]; exact .inr (.inl rfl)) fun x hx' hs hc => by
        rw [becomeReady_queue] at hx'
        rcases mem_updItem hx' with ⟨hx', hne⟩ | ⟨y, -, -, rfl⟩
        · rcases List.mem_append.mp hx' with hx' | hx'
          · exact absurd hc (itemFor_none_iff.mp hn x hx' hs)
          · exact absurd (congrArg SendItem.serial (List.mem_singleton.mp hx')) hne
        · simp
      rwa [Phase.at_at, self] at calm
    case isFalse hd =>
      have hd : r.proofState ≠ .done := by simpa [Record.updated, Record.joined] using hd
      have hpend : r.proofState = .pending := by cases hq : r.proofState <;> simp_all
      have joined := join .calm (.inl rfl) ⟨state _ (.inl rfl), fun c => by simp [item] at c, fun _ _ => hpend,
        fun _ w => by simp [item] at w⟩ fun _ _ => id
      rwa [self] at joined
  case _ hr' =>
    rw [show u.record n = some (r.updated (Record.joined .proof)) from itemJoined_record (i := item) hr] at hr'
    cases hr'

/-- Enqueueing keeps the books (R167). -/
theorem Books.enqueueItem {n : Nat} {c : Content} (h : Books ph mv o s) (hp : ph n = .calm) (hn : s.itemFor n c = none)
    (cls : Priority) (og : Option Nat) (m : Nat) (sc : Scale) : Books ph mv o (enqueueItem n c cls og m sc s).2 := by
  unfold Machine.enqueueItem
  split
  · exact h
  case _ r hr =>
    split
    · exact h
    case isFalse hav =>
      have hav : r.available c = true := by simpa using hav
      split
      · exact h
      case isFalse hl =>
        have hl : s.ttc.queue.length < Config.maxSendItems := by omega
        split
        case isTrue hc =>
          obtain ⟨hc, hnone⟩ : c = .proof ∧ r.proofState = .none := by simpa using hc
          subst hc
          have hst : r.state = .stored := by
            have := hav
            simp only [Record.available, Bool.and_eq_true, beq_iff_eq] at this
            exact this.1
          have queue := internalRequest_queue n { r.snapshot with scale := sc } cls (if og.isSome then .rule else .tether) s
          have books := h.internalRequest hp { r.snapshot with scale := sc } cls (if og.isSome then .rule else .tether)
          have cases3 := internalRequest_books h (.inl hp) { r.snapshot with scale := sc } cls (if og.isSome then .rule else .tether)
          generalize Machine.internalRequest n { r.snapshot with scale := sc } cls (if og.isSome then .rule else .tether) s = out
            at queue books cases3
          obtain ⟨ans, u⟩ := out
          rcases cases3 with ⟨hne, hne', -⟩ | ⟨-, hj, -⟩ | ⟨hnew, hb, hcat⟩
          · cases ans with
            | new => exact absurd rfl hne
            | merged => exact absurd rfl hne'
            | notReady | proofBusy | queueFull => exact books
          · have := ((h.recordOk hr).pending hst).mpr fun e => by
              rw [view_job_none.mp e] at hj
              cases hj
            rw [hnone] at this
            cases this
          · cases hnew
            have hrec : u.record n = some (r.updated fun r => { r with proofState := .pending }) := by
              have : u.record n = (s.updRecord n fun r => { r with proofState := .pending }).record n := by
                unfold State.record
                rw [hcat]
              rw [this, updRecord_record_same, hr]
              rfl
            exact books.joinQueue (c := .proof) (r := r.updated fun r => { r with proofState := .pending }) hp hrec hav
              (fun _ => by simp [Record.updated]) (queue.1 n .proof hn)
              (by simpa only [queue.2] using hl) cls og m sc
        case isFalse hc =>
          refine h.joinQueue hp hr hav (fun e => ?_) hn hl cls og m sc
          subst e
          simpa using hc

/-! ## Classes and rules (R163 to R165) -/

/-- An item raised keeps the books (R165, R168). -/
theorem Books.raiseItem {i : SendItem} (h : Books ph mv o s) (hp : ph i.shot = .calm) (hi : i ∈ s.ttc.queue) (cls : Priority) :
    Books ph mv o (raiseItem i cls s) := by
  have hq : QueueOk (s.updItem i.serial fun x => { x with cls := i.cls.higher cls }).ttc :=
    (Cascade.item s i.serial (f := fun x => { x with cls := i.cls.higher cls }) fun _ => ⟨rfl, rfl, id⟩).keeps_queueOk h.queue
  have hu : Books ph mv o (s.updItem i.serial fun x => { x with cls := i.cls.higher cls }) := by
    refine h.updItem hi (fun _ => ⟨rfl, rfl⟩) hq (fun _ _ => rfl) fun r hr ok => ⟨?_, fun _ _ _ _ => id, fun _ => id⟩
    have := ok.items i (mem_view_items.mpr ⟨hi, rfl⟩)
    rw [hp] at this ⊢
    exact ⟨this.state, this.raw, this.waits, this.proof⟩
  unfold Machine.raiseItem
  dsimp only
  split
  · split
    · exact hu.internalRequest hp _ _ _
    · exact hu
  · exact hu

theorem Books.actOnMatch {n : Nat} (h : Books ph mv o s) (hp : ph n = .calm) (k : Nat) (u : SendRule) :
    Books ph mv o (actOnMatch k u n s) := by
  unfold Machine.actOnMatch
  split
  case _ i hi =>
    obtain ⟨hm, hs, -⟩ := itemFor_some hi
    exact h.raiseItem (by rw [hs]; exact hp) hm _
  case _ hi =>
    split
    · exact h
    · split
      · exact h
      · have he := h.enqueueItem hp hi u.cls (some k) u.maxClip u.scale
        split
        case _ hx => rw [hx] at he; exact he
        case _ hx =>
          rw [hx] at he
          exact (he.setMark _ _ _).ttc _ rfl rfl
        case _ hx => rw [hx] at he; exact he.setMark _ _ _
        case _ hx => rw [hx] at he; exact he

theorem Books.applyRules {n : Nat} (us : List SendRule) (k : Nat) (h : Books ph mv o s) (hp : ph n = .calm) :
    Books ph mv o (applyRules n k us s) := by
  induction us generalizing k s with
  | nil => exact h
  | cons u us ih =>
    unfold Machine.applyRules
    split
    · split
      · exact ih _ (h.actOnMatch hp k u)
      · exact ih _ h
    · exact ih _ h

/-- Evaluating the send rules for a shot keeps the books (R163). -/
theorem Books.evaluateRules (h : Books ph mv o s) {n : Nat} (hp : ph n = .calm) : Books ph mv o (evaluateRules n s) := by
  unfold Machine.evaluateRules
  split
  · exact Books.applyRules _ 0 h hp
  · exact h

theorem Books.evaluateAll (ns : List Nat) (h : Books calm mv o s) : Books calm mv o (evaluateAll ns s) := by
  induction ns generalizing s with
  | nil => exact h
  | cons n ns ih => exact ih (h.evaluateRules rfl)

/-! ## Back to the head, out of the queue (R160, R172) -/

theorem becomeReady_blocks (n : Nat) (s : State) :
    (becomeReady n s).cat = s.cat ∧ (becomeReady n s).dve = s.dve ∧ (becomeReady n s).crw = s.crw
      ∧ (becomeReady n s).fsc = s.fsc := by
  unfold becomeReady
  dsimp only
  split <;> exact ⟨rfl, rfl, rfl, rfl⟩

/-- An item as it stands at the head after its transfer has ended (R160, R172). -/
def SendItem.returned (i : SendItem) : SendItem := { i with state := .ready, transfer := none, cut := .clear, cancelTag := none }

theorem returnToHead_queue (i : SendItem) (s : State) :
    (returnToHead i s).ttc.queue = i.returned :: s.ttc.queue.filter fun x => x.serial != i.serial := by
  rw [returnToHead, becomeReady_queue, updItem_queue]
  show List.map _ (_ :: List.filter _ _) = _
  rw [List.map_cons]
  congr 1
  · simp [SendItem.returned]
  · refine (List.map_congr_left fun x hx => ?_).trans (List.map_id _)
    have := (List.mem_filter.mp hx).2
    simp_all

/-- A SENDING item that is not cut returns to the head as READY (R160, R172). -/
theorem Books.returnToHead {i x : SendItem} (h : Books ph mv o s) (hp : ph x.shot = .calm) (hx : x ∈ s.ttc.queue)
    (hser : x.serial = i.serial) (hshot : x.shot = i.shot) (hcont : x.content = i.content) (hst : x.state = .sending)
    (hcut : x.cut ≠ .delete) : Books ph mv o (returnToHead i s) := by
  obtain ⟨r, hr, item⟩ := h.record_of_item hx
  obtain ⟨hc, hd, hk, hf⟩ := becomeReady_blocks i.serial ((s.dropItem i.serial).updTtc fun t =>
    { t with queue := { i with state := .waitingProof, transfer := none, cut := .clear, cancelTag := none } :: t.queue })
  have hq : QueueOk (Machine.returnToHead i s).ttc := (returnToHead_cascade i s ⟨x, hx, hser, hshot, hcont⟩).keeps_queueOk h.queue
  have hfilter : ∀ m, ((Machine.returnToHead i s).ttc.queue.filter fun y => y.shot == m)
      = ([i.returned].filter fun y => y.shot == m) ++ ((s.dropItem x.serial).view mv m).items := fun m => by
    rw [returnToHead_queue, ← hser, ← List.singleton_append, List.filter_append]
    rfl
  refine h.atItems (f := fun r => r) hr (hc.trans (by rw [updRecord_self]; rfl)) hd hk hf hq rfl (fun m hm => ⟨rfl, ?_⟩) fun ok => ?_
  · rw [hfilter, dropItem_view_ne h.queue hx hm]
    have : ¬ i.returned.shot = m := fun e => hm (e ▸ hshot.symm)
    simp only [beq_iff_eq, this, not_false_eq_true, List.filter_cons_of_neg, List.filter_nil, List.nil_append]
    rfl
  · have hone : ([i.returned].filter fun y => y.shot == x.shot) = [i.returned] := by simp [SendItem.returned, hshot]
    have hn := fun c => naming_dropItem (mv := mv) h.queue hx c
    have hr' := ok.rawPins
    have hp' := ok.proofPins
    have hret : i.returned.content = x.content := hcont.symm
    refine ok.withItems rfl ?_ ?_ (fun _ => id) fun y hy => ?_
    · rw [hfilter, hone, List.countP_append]
      have := hn .raw
      unfold View.naming at this hr'
      simp only [List.countP_cons, List.countP_nil, hret, beq_iff_eq] at this ⊢
      show r.rawPins = _
      omega
    · rw [hfilter, hone, List.countP_append]
      have := hn .proof
      unfold View.naming at this hp'
      simp only [List.countP_cons, List.countP_nil, hret, beq_iff_eq] at this ⊢
      show r.proofPins = _
      omega
    · rw [hfilter, hone] at hy
      rcases List.mem_append.mp hy with hy | hy
      · obtain rfl := List.mem_singleton.mp hy
        rw [hp] at item ⊢
        obtain ⟨hs, -⟩ := (Phase.plain_itemState (.inl rfl)).mp item.state
        rw [if_neg hcut] at hs
        refine ⟨(Phase.plain_itemState (.inl rfl)).mpr
            ⟨by simpa [SendItem.returned] using hs, fun e => by simp [SendItem.returned] at e⟩,
          fun c => item.raw (hret ▸ c), fun _ w => by simp [SendItem.returned] at w, fun c _ => item.proof (hret ▸ c) (by simp [hst])⟩
      · rw [dropItem_items] at hy
        exact ok.items y (List.mem_filter.mp hy).1

theorem Books.abandonFrame (h : Books ph mv o s) (i : SendItem) : Books ph mv o (abandonFrame i s) := by
  unfold Machine.abandonFrame
  split
  · split
    · exact h
    · exact (h.same (.ptc s _)).endAccess _ _
  · exact h

theorem Books.settleSending (h : Books calm mv o s) (k : Bool) : Books calm mv o (settleSending k s) := by
  unfold Machine.settleSending
  split
  · exact h
  case _ i hi =>
    obtain ⟨hm, hs⟩ := sendingItem_some hi
    have ha := h.abandonFrame i
    have hm : i ∈ (Machine.abandonFrame i s).ttc.queue := by rw [abandonFrame_ttc]; exact hm
    dsimp only
    split
    · exact ha.endDeleted hm (.inl rfl)
    · exact ha.endCanceled hm (.inl rfl)
    case _ hc =>
      split
      · exact ha.returnToHead rfl hm rfl rfl rfl hs (by simp [hc])
      · exact ha

/-- Items that leave one after another (R160). -/
theorem Books.dropItems {is : List SendItem} (h : Books calm mv o s) (hm : ∀ i ∈ is, i ∈ s.ttc.queue)
    (hk : (is.map SendItem.serial).Nodup) : Books calm mv o (dropItems is s) := by
  induction is generalizing s with
  | nil => exact h
  | cons i is ih =>
    rw [List.map_cons, List.nodup_cons] at hk
    refine ih (h.leaveAndTest (hm i (by simp)) .dropped (.inl rfl)) (fun x hx => ?_) hk.2
    rw [leaveAndTest_queue]
    refine List.mem_filter.mpr ⟨hm x (by simp [hx]), ?_⟩
    simpa using fun e : x.serial = i.serial => hk.1 (e ▸ List.mem_map_of_mem hx)

/-- The end of the session keeps the books (R160). -/
theorem Books.detachSession (h : Books calm mv o s) : Books calm mv o (detachSession s) := by
  unfold Machine.detachSession
  extract_lets u v
  have hv : Books calm mv o v := (h.ttc (fun t => { t with attached := false, silence := none }) rfl rfl).settleSending _
  split
  · exact hv
  · exact hv.dropItems (fun _ => id) hv.queue.serials

theorem Books.startSilence (h : Books ph mv o s) : Books ph mv o (startSilence s) := h.ttc _ rfl rfl

theorem Books.suspendAutosend (h : Books ph mv o s) : Books ph mv o (suspendAutosend s) :=
  ((h.ttc (fun t => { t with armed := false }) rfl rfl).offer _ _).offerClass _ _

end

end Sys2Proof.Machine
end

section
/-! SUPPORT. Downgrades and pressure relief over the books (R61, R62). -/

namespace Sys2Proof.Machine

theorem countP_eq_sum {α : Type} (l : List α) (p : α → Bool) : l.countP p = (l.map fun x => if p x then 1 else 0).sum := by
  induction l with
  | nil => rfl
  | cons x l ih => rw [List.countP_cons, List.map_cons, List.sum_cons, ih, Nat.add_comm]

/-- One element changed changes the count by itself. -/
theorem countP_map_change {α : Type} {l : List α} {k : α → Nat} (hk : (l.map k).Nodup) {a : α} (ha : a ∈ l) (f : α → α)
    (p : α → Bool) :
    (l.map fun x => if k x == k a then f x else x).countP p + (if p a then 1 else 0) = l.countP p + if p (f a) then 1 else 0 := by
  rw [countP_eq_sum, countP_eq_sum]
  exact sum_map_change hk ha f fun x => if p x then 1 else 0

section
variable {ph : Nat → Phase} {mv : Hands} {o : List Nat} {s t : State}

/-- A record whose RAW item has become its PROOF item (R62). -/
def Record.downgraded (r : Record) : Record :=
  { r with rawPins := r.rawPins - 1, markRaw := .dropped, proofPins := r.proofPins + 1, markProof := .queued }

/-- The raw unpinned and its mark DROPPED: the first step of a downgrade (R62). -/
def State.rawDropped (s : State) (n : Nat) : State := (s.unpin n .raw).setMark n .raw .dropped

theorem rawDropped_eq (s : State) (n : Nat) :
    s.rawDropped n = s.updRecord n fun r => { r with rawPins := r.rawPins - 1, markRaw := .dropped } := by
  unfold State.rawDropped State.unpin State.setMark
  rw [updRecord_updRecord]
  rfl

theorem rawDropped_record (s : State) (n : Nat) :
    (s.rawDropped n).record n = (s.record n).map fun r => { r with rawPins := r.rawPins - 1, markRaw := .dropped } := by
  rw [rawDropped_eq, updRecord_record_same]
  rfl

theorem renameToProof_cat (i : SendItem) (st : ItemState) (s : State) :
    (renameToProof i st (s.rawDropped i.shot)).cat = (s.updRecord i.shot Record.downgraded).cat := by
  have : (renameToProof i st (s.rawDropped i.shot)).cat
      = (((s.rawDropped i.shot).pin i.shot .proof).setMark i.shot .proof .queued).cat := rfl
  rw [this, rawDropped_eq]
  unfold State.pin State.setMark
  rw [updRecord_updRecord, updRecord_updRecord]
  rfl

/-- The item as a downgrade leaves it (R62). -/
def SendItem.asProof (st : ItemState) (i : SendItem) : SendItem := { i with content := .proof, state := st }

theorem renameToProof_queue (i : SendItem) (st : ItemState) (s : State) (n : Nat) :
    ((renameToProof i st (s.rawDropped i.shot)).ttc.queue.filter fun x => x.shot == n)
      = (s.view mv n).items.map fun x => if x.serial == i.serial then x.asProof st else x :=
  updItem_items s i.serial (SendItem.asProof st) (fun _ => rfl) n

/-- A RAW item that is not SENDING turned into the one PROOF item of its shot, the pins and marks with it (R62). -/
theorem Books.renameToProof {i : SendItem} {r : Record} {q : Phase} {st : ItemState} (h : Books ph mv o s)
    (hp : ph i.shot = .calm) (hq : q.plain) (hi : i ∈ s.ttc.queue) (hr : s.record i.shot = some r) (hc : i.content = .raw)
    (hn : s.itemFor i.shot .proof = none) (hst : st ≠ .sending) (hcut : i.cut ≠ .delete)
    (hw : st = .waitingProof → q.awaited r) (hd : st ≠ .waitingProof → r.proof ≠ none) :
    Books (Phase.at ph i.shot q) mv o (renameToProof i st (s.rawDropped i.shot)) := by
  have hqueue : QueueOk (Machine.renameToProof i st (s.rawDropped i.shot)).ttc :=
    (renameToProof_cascade i st (s.rawDropped i.shot) hi hn hst).keeps_queueOk h.queue
  refine h.atItems hr (renameToProof_cat i st s) rfl rfl rfl hqueue rfl (fun m hm => ⟨Phase.at_ne ph q hm, ?_⟩) fun ok => ?_
  · rw [renameToProof_queue (mv := mv)]
    refine (List.map_congr_left fun x hx => if_neg fun e => ?_).trans (List.map_id _)
    obtain ⟨hx, hs⟩ := mem_view_items.mp hx
    exact hm (by rw [← hs, h.queue.unique hx hi (by simpa using e)])
  · rw [hp] at ok
    rw [Phase.at_same, renameToProof_queue (mv := mv)]
    have hm : i ∈ (s.view mv i.shot).items := mem_view_items.mpr ⟨hi, rfl⟩
    have hk : ((s.view mv i.shot).items.map SendItem.serial).Nodup := h.queue.serials.sublist (List.filter_sublist.map _)
    have hr' := ok.rawPins
    have hp' := ok.proofPins
    have c1 := countP_map_change hk hm (SendItem.asProof st) fun x => x.content == .raw
    have c2 := countP_map_change hk hm (SendItem.asProof st) fun x => x.content == .proof
    unfold View.naming at hr' hp'
    simp only [hc, SendItem.asProof, BEq.rfl, if_true, show (Content.raw == Content.proof) = false from rfl,
      show (Content.proof == Content.raw) = false from rfl, Bool.false_eq_true, if_false] at c1 c2
    refine ok.withItems rfl ?_ ?_ (fun c hj => (Phase.plain_jobState hq).mpr ((Phase.plain_jobState (.inl rfl)).mp hj)) fun x hx => ?_
    · show r.rawPins - 1 = _
      simp only [SendItem.asProof]
      omega
    · show r.proofPins + 1 = _
      simp only [SendItem.asProof]
      omega
    · obtain ⟨y, hy, rfl⟩ := List.mem_map.mp hx
      have item := ok.items y hy
      obtain ⟨hstate, hcuts⟩ := (Phase.plain_itemState (.inl rfl)).mp item.state
      split
      case isTrue e =>
        obtain ⟨hyq, -⟩ := mem_view_items.mp hy
        obtain rfl := h.queue.unique hyq hi (by simpa using e)
        exact ⟨(Phase.plain_itemState hq).mpr ⟨hstate, fun e => absurd e hcut⟩, fun e => by simp [SendItem.asProof] at e,
          fun _ => hw, fun _ => hd⟩
      case isFalse =>
        exact ⟨(Phase.plain_itemState hq).mpr ⟨hstate, hcuts⟩, item.raw, fun e => absurd e (itemFor_none_items hn y hy), item.proof⟩

theorem renameToProof_record {i : SendItem} {r : Record} (st : ItemState) (hr : s.record i.shot = some r) :
    (renameToProof i st (s.rawDropped i.shot)).record i.shot = some r.downgraded := by
  have moved : (renameToProof i st (s.rawDropped i.shot)).record i.shot = (s.updRecord i.shot Record.downgraded).record i.shot := by
    unfold State.record
    rw [renameToProof_cat]
  rw [moved, updRecord_record_same, hr]
  rfl

theorem renameToProof_mem {i : SendItem} (st : ItemState) (hi : i ∈ s.ttc.queue) :
    i.asProof st ∈ (renameToProof i st (s.rawDropped i.shot)).ttc.queue := by
  show _ ∈ (s.updItem i.serial (SendItem.asProof st)).ttc.queue
  rw [updItem_queue]
  exact List.mem_map.mpr ⟨i, hi, by simp [SendItem.asProof]⟩

/-- A downgraded item that gets no job leaves the queue, and the books of its shot are closed (R62). -/
theorem Books.dropBare {y : SendItem} (h : Books (Phase.at ph y.shot .bare) mv o s) (hp : ph y.shot = .calm) (hy : y ∈ s.ttc.queue)
    (hc : y.content = .proof) :
    Books ph mv o (((s.dropItem y.serial).unpin y.shot .proof).setMark y.shot .proof .dropped) := by
  have dropped := h.dropItemUnpinned hy (fun r => { r with proofPins := r.proofPins - 1, markProof := .dropped })
    fun r => by rw [hc]; rfl
  have closed := dropped.toCalm (n := y.shot) (by rw [Phase.at_same]; exact .inr (.inr rfl)) fun x hx hs hxc => by
    obtain ⟨hx, hne⟩ := List.mem_filter.mp hx
    rw [h.queue.unique_content hx hy hs (hxc.trans hc.symm)] at hne
    simp at hne
  rw [Phase.at_at, ← hp, Phase.at_self] at closed
  unfold State.unpin State.setMark
  rw [updRecord_updRecord]
  exact closed

/-- A downgrade keeps the books (R62). -/
theorem Books.downgrade {i : SendItem} (h : Books ph mv o s) (hp : ph i.shot = .calm) (hi : i ∈ s.ttc.queue)
    (hready : i.state = .ready) (hc : i.content = .raw) : Books ph mv o (downgrade i s) := by
  obtain ⟨r, hr, item⟩ := h.record_of_item hi
  have ok := h.recordOk hr
  rw [hp] at item ok
  obtain ⟨hstate, hcuts⟩ := (Phase.plain_itemState (.inl rfl)).mp item.state
  have hcut : i.cut ≠ .delete := fun e => by
    have := hcuts e
    rw [hready] at this
    cases this
  have hst : r.state = .stored := by rwa [if_neg hcut] at hstate
  have self : Phase.at ph i.shot .calm = ph := hp ▸ Phase.at_self ph i.shot
  have gone : Books ph mv o ((s.rawDropped i.shot).dropItem i.serial) := by
    rw [rawDropped_eq]
    exact h.dropItemUnpinned hi (fun r => { r with rawPins := r.rawPins - 1, markRaw := .dropped }) fun r => by rw [hc]; rfl
  have rename : ∀ {q st}, q.plain → s.itemFor i.shot .proof = none → st ≠ .sending → (st = .waitingProof → q.awaited r)
      → (st ≠ .waitingProof → r.proof ≠ none)
      → Books (Phase.at ph i.shot q) mv o (Machine.renameToProof i st (s.rawDropped i.shot)) :=
    fun hq hn hst hw hd => h.renameToProof hp hq hi hr hc hn hst hcut hw hd
  unfold Machine.downgrade
  extract_lets had u
  have hrec : u.record i.shot = some { r with rawPins := r.rawPins - 1, markRaw := .dropped } := by
    show (s.rawDropped i.shot).record i.shot = _
    rw [rawDropped_record, hr]
    rfl
  refine Books.testRelease ?_ _ (.inl hp)
  rw [hrec]
  dsimp only
  split
  case isTrue => exact gone
  case isFalse hno =>
    have hn : s.itemFor i.shot .proof = none := by simpa [had] using hno
    split
    case _ hd =>
      have := rename (q := .calm) (st := .ready) (.inl rfl) hn (by decide) (by simp) fun _ => ok.done hst hd
      rwa [self] at this
    case _ hd =>
      have := rename (q := .calm) (st := .waitingProof) (.inl rfl) hn (by decide) (fun _ => hd) fun e => absurd rfl e
      rwa [self] at this
    case _ hd =>
      have bare := rename (q := .bare) (st := .waitingProof) (.inr (.inr rfl)) hn (by decide) (fun _ => trivial)
        fun e => absurd rfl e
      have outcome := internalRequest_books bare (by rw [Phase.at_same]; exact .inr (.inr rfl))
        { r.snapshot with scale := .quarter } .normal .relief
      rw [show Machine.renameToProof i .waitingProof u = Machine.renameToProof i .waitingProof (s.rawDropped i.shot) from rfl]
      generalize Machine.internalRequest i.shot { r.snapshot with scale := .quarter } .normal .relief
        (Machine.renameToProof i .waitingProof (s.rawDropped i.shot)) = out at outcome
      obtain ⟨ans, v⟩ := out
      rcases outcome with ⟨hnew, hmerged, hv⟩ | ⟨-, hjob, -⟩ | ⟨hnew, hbooks, -⟩
      · have refused := bare.dropBare (y := i.asProof .waitingProof) hp (renameToProof_mem .waitingProof hi) rfl
        rw [← show v = _ from hv] at refused
        cases ans with
        | new => exact absurd rfl hnew
        | merged => exact absurd rfl hmerged
        | notReady | proofBusy | queueFull => exact refused
      · have pending := ((bare.recordOk (renameToProof_record .waitingProof hr)).pending hst).mpr fun e => by
          rw [view_job_none.mp e] at hjob
          cases hjob
        exact absurd (hd.symm.trans pending) (by decide)
      · cases hnew
        rwa [Phase.at_at, self] at hbooks

/-- Pressure relief keeps the books (R61). -/
theorem Books.relieve (k fuel : Nat) (h : Books calm mv o s) : Books calm mv o (relieve k fuel s) := by
  induction fuel generalizing s with
  | zero => exact h
  | succ fuel ih =>
    unfold Machine.relieve
    split
    · exact h
    · split
      case _ i hi =>
        have hm := List.mem_of_find?_eq_some hi
        have hp := List.find?_some hi
        simp only [Bool.and_eq_true, beq_iff_eq] at hp
        exact ih (h.downgrade rfl hm hp.1.1 hp.2)
      · exact h

end

end Sys2Proof.Machine
end

section
/-! SUPPORT. The law of one slot under the changes of the card writer: fragments from the pool, the states, the operation in flight
(R132, R133, R141 to R147). -/

namespace Sys2Proof.Machine

/-! ## Extents -/

theorem Extent.overlaps_comm (x y : Extent) : x.overlaps y = y.overlaps x := by
  simp only [Extent.overlaps]
  rw [Bool.and_comm]

theorem disjointExtents_iff {l : List Extent} : disjointExtents l = true ↔ l.Pairwise fun x y => x.overlaps y = false := by
  induction l with
  | nil => simp [disjointExtents]
  | cons e es ih => simp [disjointExtents, List.pairwise_cons, ih]

theorem disjointExtents_perm {l m : List Extent} (h : l.Perm m) : disjointExtents l = true ↔ disjointExtents m = true := by
  rw [disjointExtents_iff, disjointExtents_iff]
  exact h.pairwise_iff fun {x y} => by rw [Extent.overlaps_comm]; exact id

/-- A part of an extent, and not an empty one. -/
def Extent.Within (x e : Extent) : Prop := e.first ≤ x.first ∧ x.first + x.count ≤ e.first + e.count ∧ 1 ≤ x.count

theorem Extent.Within.not_overlaps {x e y : Extent} (h : x.Within e) (ho : e.overlaps y = false) : x.overlaps y = false := by
  obtain ⟨h1, h2, h3⟩ := h
  simp only [Extent.overlaps, Bool.and_eq_false_iff, decide_eq_false_iff_not] at ho ⊢
  omega

/-- What building fragments gives: extents that cover the need, and with the pool that is left parts of the pool's extents, none
sharing a block (R143). -/
theorem buildFragments_spec {limit need : Nat} {pool fs rest : List Extent} (h : buildFragments limit pool need = some (fs, rest))
    (hd : disjointExtents pool = true) (hv : ∀ e ∈ pool, 1 ≤ e.count) :
    (fs.map Extent.count).sum = need ∧ fs.length ≤ limit ∧ rest.length ≤ pool.length ∧ disjointExtents (fs ++ rest) = true
      ∧ ∀ x ∈ fs ++ rest, ∃ e ∈ pool, x.Within e := by
  induction limit generalizing pool need fs rest with
  | zero =>
    cases need with
    | zero =>
      obtain ⟨rfl, rfl⟩ : fs = [] ∧ rest = pool := by simpa [buildFragments, eq_comm] using h
      exact ⟨rfl, le_refl _, le_refl _, hd, fun x hx => ⟨x, hx, le_refl _, le_refl _, hv x hx⟩⟩
    | succ need => simp [buildFragments] at h
  | succ limit ih =>
    cases need with
    | zero =>
      obtain ⟨rfl, rfl⟩ : fs = [] ∧ rest = pool := by simpa [buildFragments, eq_comm] using h
      exact ⟨rfl, Nat.zero_le _, le_refl _, hd, fun x hx => ⟨x, hx, le_refl _, le_refl _, hv x hx⟩⟩
    | succ need =>
      cases pool with
      | nil => simp [buildFragments] at h
      | cons e pool =>
        obtain ⟨he, hd'⟩ := List.pairwise_cons.mp (disjointExtents_iff.mp hd)
        simp only [buildFragments] at h
        split at h
        case isTrue hlt =>
          cases h
          have part : Extent.Within { first := e.first, count := need + 1 } e := ⟨le_refl _, by simp; omega, by simp⟩
          have left : Extent.Within { first := e.first + (need + 1), count := e.count - (need + 1) } e :=
            ⟨by simp, by simp; omega, by simp; omega⟩
          refine ⟨by simp, by simp, by simp, disjointExtents_iff.mpr ?_, fun x hx => ?_⟩
          · refine List.pairwise_cons.mpr ⟨fun y hy => ?_, List.pairwise_cons.mpr ⟨fun y hy => left.not_overlaps (he y hy), hd'⟩⟩
            rcases List.mem_cons.mp hy with rfl | hy
            · simp [Extent.overlaps]
            · exact part.not_overlaps (he y hy)
          · rcases List.mem_cons.mp hx with rfl | hx
            · exact ⟨e, by simp, part⟩
            · rcases List.mem_cons.mp hx with rfl | hx
              · exact ⟨e, by simp, left⟩
              · exact ⟨x, by simp [hx], le_refl _, le_refl _, hv x (by simp [hx])⟩
        case isFalse hlt =>
          obtain ⟨⟨gs, left⟩, hb, hr⟩ := Option.map_eq_some_iff.mp h
          cases hr
          obtain ⟨h1, h2, h3, h4, h5⟩ := ih hb (disjointExtents_iff.mpr hd') fun x hx => hv x (by simp [hx])
          refine ⟨?_, ?_, ?_, disjointExtents_iff.mpr ?_, fun x hx => ?_⟩
          · simp only [List.map_cons, List.sum_cons, h1]
            omega
          · simpa using h2
          · simp only [List.length_cons]
            omega
          · refine List.pairwise_cons.mpr ⟨fun y hy => ?_, disjointExtents_iff.mp h4⟩
            obtain ⟨z, hz, hw⟩ := h5 y hy
            rw [Extent.overlaps_comm]
            exact hw.not_overlaps (by rw [Extent.overlaps_comm]; exact he z hz)
          · rcases List.mem_cons.mp hx with rfl | hx
            · exact ⟨x, by simp, le_refl _, le_refl _, hv x (by simp)⟩
            · obtain ⟨z, hz, hw⟩ := h5 x hx
              exact ⟨z, by simp [hz], hw⟩

theorem itemBlocks_pos (m : Mode) : 0 < m.itemBlocks := by cases m <;> decide
theorem itemChunks_pos (m : Mode) : 0 < m.itemChunks := by cases m <;> decide

/-! ## The law by its parts -/

/-- The law of a slot with its parts named. -/
structure Slot.Ok (x : Slot) : Prop where
  pool : x.pool.length ≤ 32
  blocks : x.blocks.length ≤ 4
  disjoint : disjointExtents x.taken = true
  extents : ∀ e ∈ x.taken, 1 ≤ e.count ∧ e.first + e.count ≤ 4294967296
  item : ∀ w, x.writing = some w → 1 ≤ w.fragments.length ∧ w.fragments.length ≤ 8
    ∧ (w.fragments.map Extent.count).sum = w.item.mode.itemBlocks ∧ w.next < w.item.mode.itemChunks
  writes : x.state = .writing ↔ x.writing.isSome = true
  absent : x.state = .absent ↔ x.detect = false
  holds : x.pool ≠ [] → x.takesItems = true
  full : x.fullPending = true → x.state = .writing ∨ x.state = .full
  closed : x.state.isOpen = false → x.blocks = [] ∧ x.op = none
  op : ∀ o, x.op = some o → (o.kind = .chunk → x.writing.isSome = true) ∧ (o.kind ≠ .chunk → x.blocks ≠ [])

theorem Slot.law_iff {x : Slot} : x.law ↔ x.Ok := by
  constructor
  · rintro ⟨h1, h2, h3, h4, h5, h6, h7, h8, h9, h10, h11⟩
    exact ⟨h1, h2, h3, h4, fun w hw => h5 w hw, h6, h7, h8, h9, h10, fun o ho => h11 o ho⟩
  · rintro ⟨h1, h2, h3, h4, h5, h6, h7, h8, h9, h10, h11⟩
    exact ⟨h1, h2, h3, h4, fun w hw => h5 w hw, h6, h7, h8, h9, h10, fun o ho => h11 o ho⟩

/-! ## States -/

section
variable {x : Slot}

theorem Slot.Ok.notWriting (h : x.Ok) (hs : x.state ≠ .writing) : x.writing = none := by
  by_contra hn
  exact hs (h.writes.mpr (Option.isSome_iff_ne_none.mpr hn))

/-- A slot that does not write and holds no chunk may take a state that is open and takes items (R133). -/
theorem Slot.Ok.toOpen (h : x.Ok) {st : SlotState} (hw : x.writing = none) (hf : x.fullPending = false)
    (hop : ∀ o, x.op = some o → o.kind ≠ .chunk) (hd : x.detect = true) (hst : st = .idle ∨ st = .waitExtents) :
    Slot.Ok { x with state := st } where
  pool := h.pool
  blocks := h.blocks
  disjoint := h.disjoint
  extents := h.extents
  item := h.item
  writes := by rcases hst with rfl | rfl <;> simp [hw]
  absent := by rcases hst with rfl | rfl <;> simp [hd]
  holds := fun _ => by rcases hst with rfl | rfl <;> simp [Slot.takesItems]
  full := fun e => by simp [hf] at e
  closed := fun e => by rcases hst with rfl | rfl <;> simp [SlotState.isOpen] at e
  op := fun o ho => ⟨fun hk => absurd hk (hop o ho), (h.op o ho).2⟩

/-- A slot without a pool that does not write and holds no chunk may be FULL (R137). -/
theorem Slot.Ok.toFull (h : x.Ok) (hw : x.writing = none) (hp : x.pool = []) (hop : ∀ o, x.op = some o → o.kind ≠ .chunk)
    (hd : x.detect = true) : Slot.Ok { x with state := .full } where
  pool := h.pool
  blocks := h.blocks
  disjoint := h.disjoint
  extents := h.extents
  item := h.item
  writes := by simp [hw]
  absent := by simp [hd]
  holds := fun e => absurd hp e
  full := fun _ => .inr rfl
  closed := fun e => by simp [SlotState.isOpen] at e
  op := fun o ho => ⟨fun hk => absurd hk (hop o ho), (h.op o ho).2⟩

/-- A slot that holds nothing may take a state that is not WRITING (R136, R149, R150). -/
theorem Slot.Ok.empty {st : SlotState} (hw : x.writing = none) (hp : x.pool = []) (hb : x.blocks = []) (ho : x.op = none)
    (hf : x.fullPending = false) (hs : st ≠ .writing) (hd : st = .absent ↔ x.detect = false) : Slot.Ok { x with state := st } where
  pool := by simp [hp]
  blocks := by simp [hb]
  disjoint := by simp [Slot.taken, hp, hw, disjointExtents]
  extents := by simp [Slot.taken, hp, hw]
  item := by simp [hw]
  writes := by simp [hw, hs]
  absent := hd
  holds := fun e => absurd hp e
  full := fun e => by simp [hf] at e
  closed := fun _ => ⟨hb, ho⟩
  op := by simp [ho]

theorem Slot.Ok.detected (h : x.Ok) (hs : x.state ≠ .absent) : x.detect = true := by
  by_contra hn
  exact hs (h.absent.mpr (by simpa using hn))

/-- Without the writing item a slot's extents are still apart. -/
theorem Slot.Ok.withoutWriting (h : x.Ok) (hop : ∀ o, x.op = some o → o.kind ≠ .chunk) (hs : x.state = .writing) :
    (x.fullPending = false → Slot.Ok { x with writing := none, state := .idle })
      ∧ (x.fullPending = true → Slot.Ok { x with writing := none, state := .full }) := by
  have hsub : Slot.taken { x with writing := none, state := .idle } = x.pool := by simp [Slot.taken]
  have hd := h.detected (by rw [hs]; decide)
  have hpool : ∀ e ∈ x.pool, e ∈ x.taken := fun e he => List.mem_append_left _ he
  have hdis : disjointExtents x.pool = true :=
    disjointExtents_iff.mpr ((disjointExtents_iff.mp h.disjoint).sublist (List.sublist_append_left _ _))
  constructor
  · intro hf
    refine ⟨h.pool, h.blocks, by rw [hsub]; exact hdis, by rw [hsub]; exact fun e he => h.extents e (hpool e he), by simp,
      by simp, by simp [hd], by simp [Slot.takesItems], by simp [hf], by simp [SlotState.isOpen],
      fun o ho => ⟨fun hk => ?_, (h.op o ho).2⟩⟩
    exact absurd hk (hop o ho)
  · intro hf
    have hp : x.pool = [] := by
      by_contra hn
      have := h.holds hn
      simp [Slot.takesItems, hs, hf] at this
    refine ⟨h.pool, h.blocks, by simp [Slot.taken, hp, disjointExtents], by simp [Slot.taken, hp], by simp, by simp, by simp [hd],
      by simp [hp], by simp, by simp [SlotState.isOpen], fun o ho => ⟨fun hk => ?_, (h.op o ho).2⟩⟩
    exact absurd hk (hop o ho)

/-- An operation taken by an open slot (R146). -/
theorem Slot.Ok.withOp (h : x.Ok) (hopen : x.state.isOpen = true) (p : CardOp) (b : Bool)
    (hc : p.kind = .chunk → x.writing.isSome = true) (hb : p.kind ≠ .chunk → x.blocks ≠ []) :
    Slot.Ok { x with op := some p, lastWasBlock := b } where
  pool := h.pool
  blocks := h.blocks
  disjoint := h.disjoint
  extents := h.extents
  item := h.item
  writes := h.writes
  absent := h.absent
  holds := h.holds
  full := h.full
  closed := fun e => by
    have e : x.state.isOpen = false := e
    rw [hopen] at e
    cases e
  op := fun o ho => by
    cases ho
    exact ⟨hc, hb⟩

/-- The head item started: its fragments come out of the pool (R143). -/
theorem Slot.Ok.start (h : x.Ok) (hs : x.state = .idle ∨ x.state = .waitExtents) {item : CardItem} {fs pool : List Extent}
    (hb : buildFragments Config.maxFragments x.pool item.mode.itemBlocks = some (fs, pool)) (q : List CardItem) :
    Slot.Ok { x with queue := q, pool := pool, writing := some { item := item, fragments := fs, next := 0, written := 0, abort := false },
                     state := .writing } := by
  have hw : x.writing = none := h.notWriting (by rcases hs with e | e <;> simp [e])
  have htaken : x.taken = x.pool := by simp [Slot.taken, hw]
  have hext := h.extents
  have hdis := h.disjoint
  rw [htaken] at hext hdis
  obtain ⟨hsum, hlen, hpool, hd, hin⟩ := buildFragments_spec hb hdis fun e he => (hext e he).1
  have hfull : x.fullPending = false := by
    by_contra hn
    have := h.full (by simpa using hn)
    rcases hs with e | e <;> simp [e] at this
  refine ⟨hpool.trans h.pool, h.blocks, (disjointExtents_perm List.perm_append_comm).mp hd, fun e he => ?_, fun w hw => ?_,
    by simp, ?_, by simp [Slot.takesItems, hfull], by simp, by simp [SlotState.isOpen], fun o ho => ⟨by simp, (h.op o ho).2⟩⟩
  · obtain ⟨y, hy, h1, h2, h3⟩ := hin e (by
      simp only [Slot.taken, List.mem_append] at he ⊢
      exact he.symm)
    have := (hext y hy).2
    exact ⟨h3, by omega⟩
  · cases hw
    refine ⟨?_, hlen, hsum, itemChunks_pos _⟩
    by_contra hn
    have : fs = [] := List.eq_nil_of_length_eq_zero (by simpa using hn)
    have hpos := itemBlocks_pos item.mode
    simp [this] at hsum
    omega
  · have : x.detect = true := h.detected (by rcases hs with e | e <;> simp [e])
    simp [this]

end

end Sys2Proof.Machine
end

section
/-! SUPPORT. The card writer over the books: requirements and slots changed together, the head item, the arbiter, migration, the end of an
item, faults (R133, R139, R140, R143, R146, R149 to R151). -/

namespace Sys2Proof.Machine

section
variable {ph : Nat → Phase} {mv mv' : Hands} {o : List Nat} {s t : State}

/-! ## What is known of a slot -/

/-- A slot seen as it stands. -/
def Hands.seeing (mv : Hands) (i : SlotId) (x : Slot) : Hands := { mv with law := Function.update mv.law i fun y => y = x }

@[simp] theorem Hands.seeing_same (mv : Hands) (i : SlotId) (x : Slot) : (mv.seeing i x).law i = fun y => y = x := by
  simp [Hands.seeing]
theorem Hands.seeing_ne (mv : Hands) {i k : SlotId} (x : Slot) (h : k ≠ i) : (mv.seeing i x).law k = mv.law k := by
  simp [Hands.seeing, h]
@[simp] theorem Hands.seeing_seeing (mv : Hands) (i : SlotId) (x y : Slot) : (mv.seeing i x).seeing i y = mv.seeing i y := by
  simp [Hands.seeing]

/-- The items in motion that count as a slot's. -/
def Hands.ahead (mv : Hands) : SlotId → List CardItem
  | .a => mv.moving
  | .b => []

theorem view_cards (s : State) (mv : Hands) (n : Nat) (k : SlotId) :
    (s.view mv n).cards k = (mv.ahead k ++ (s.slot k).queue).filter fun x => x.shot == n := by
  cases k <;> rfl

theorem view_writing (s : State) (mv : Hands) (n : Nat) (k : SlotId) :
    (s.view mv n).writing k = (s.slot k).item.filter fun x => x.shot == n := rfl

theorem view_moving (h : mv'.moving = mv.moving) (s : State) (n : Nat) : s.view mv' n = s.view mv n :=
  View.eq_of rfl rfl rfl (fun k => by cases k <;> simp only [State.view, State.cardQueue, h]) fun _ => rfl

theorem view_seeing (s : State) (mv : Hands) (i : SlotId) (x : Slot) (n : Nat) : s.view (mv.seeing i x) n = s.view mv n :=
  view_moving rfl s n

/-- Other knowledge of the slots, of the same state. -/
theorem Books.relaw (h : Books ph mv o s) (hm : mv'.moving = mv.moving) (hk : ∀ k, mv'.law k (s.slot k)) : Books ph mv' o s :=
  ⟨h.catalog, h.queue, h.jobs, h.store, hk, fun n => view_moving hm s n ▸ h.shots n⟩

theorem Books.see (h : Books ph mv o s) (i : SlotId) : Books ph (mv.seeing i (s.slot i)) o s := by
  refine h.relaw rfl fun k => ?_
  by_cases hk : k = i
  · subst hk; simp
  · rw [Hands.seeing_ne _ _ hk]; exact h.slots k

theorem Books.seen {i : SlotId} {x : Slot} (h : Books ph (mv.seeing i x) o s) : s.slot i = x := by
  have := h.slots i
  rwa [Hands.seeing_same] at this

/-- A slot that is as its law asks need not be seen any longer. -/
theorem Books.unsee {i : SlotId} {x : Slot} (h : Books ph (mv.seeing i x) o s) (hx : mv.law i x) : Books ph mv o s := by
  refine h.relaw rfl fun k => ?_
  by_cases hk : k = i
  · subst hk; rw [h.seen]; exact hx
  · have := h.slots k
    rwa [Hands.seeing_ne _ _ hk] at this

/-- A slot changed beside its queue and its writing item. -/
theorem Books.editSlot (h : Books ph mv o s) (i : SlotId) (f : Slot → Slot) (hq : (f (s.slot i)).queue = (s.slot i).queue)
    (hw : (f (s.slot i)).item = (s.slot i).item) : Books ph (mv.seeing i (f (s.slot i))) o (s.updSlot i f) := by
  have parts : ∀ k, ((s.updSlot i f).slot k).queue = (s.slot k).queue ∧ ((s.updSlot i f).slot k).item = (s.slot k).item := by
    intro k
    by_cases hk : k = i
    · subst hk; rw [State.updSlot_slot]; exact ⟨hq, hw⟩
    · rw [State.updSlot_slot_ne _ _ (Ne.symm hk)]; exact ⟨rfl, rfl⟩
  refine ⟨h.catalog, h.queue, h.jobs, h.store.of_count rfl rfl fun _ => rfl, fun k => ?_, fun n => ?_⟩
  · by_cases hk : k = i
    · subst hk; rw [Hands.seeing_same, State.updSlot_slot]
    · rw [Hands.seeing_ne _ _ hk, State.updSlot_slot_ne _ _ (Ne.symm hk)]; exact h.slots k
  · rw [view_seeing, view_congr (s := s) (t := s.updSlot i f) rfl rfl rfl parts mv n]
    exact h.shots n

/-- The same, for a slot that was seen. -/
theorem Books.editSeen {i : SlotId} {x : Slot} (h : Books ph (mv.seeing i x) o s) (f : Slot → Slot) (hq : (f x).queue = x.queue)
    (hw : (f x).item = x.item) : Books ph (mv.seeing i (f x)) o (s.updSlot i f) := by
  have e := h.seen
  have := h.editSlot i f (by rw [e]; exact hq) (by rw [e]; exact hw)
  rwa [e, Hands.seeing_seeing] at this

/-- A slot takes a state (R133). -/
theorem Books.moveSlot {i : SlotId} {x : Slot} (h : Books ph (mv.seeing i x) o s) (new : SlotState) :
    Books ph (mv.seeing i { x with state := new }) o (moveSlot i new s) := by
  have hu := h.editSeen (fun y => { y with state := new }) rfl rfl
  unfold Machine.moveSlot
  dsimp only
  split
  · exact hu
  · exact hu.offerClass _ _

/-! ## A requirement and its slot -/

/-- A record with a requirement set. -/
def Record.withReq (i : SlotId) (q : Requirement) (r : Record) : Record :=
  match i with
  | .a => { r with reqA := q }
  | .b => { r with reqB := q }

theorem setReq_eq (s : State) (n : Nat) (i : SlotId) (q : Requirement) : s.setReq n i q = s.updRecord n (Record.withReq i q) := by
  cases i <;> rfl

theorem Record.withReq_same (i : SlotId) (q : Requirement) (r : Record) : (r.withReq i q).req i = q := by cases i <;> rfl

theorem Record.withReq_ne {i k : SlotId} (h : k ≠ i) (q : Requirement) (r : Record) : (r.withReq i q).req k = r.req k := by
  cases i with
  | a => cases k with
    | a => exact absurd rfl h
    | b => rfl
  | b => cases k with
    | a => rfl
    | b => exact absurd rfl h

theorem Record.withReq_slabs (i : SlotId) (q : Requirement) (r : Record) : (r.withReq i q).slabs = r.slabs := by cases i <;> rfl

/-- What a slot holds of a shot, and what the shot's record says of it (R139). -/
structure CardOk (r : Record) (q : Requirement) (cards : List CardItem) (writing : Option CardItem) : Prop where
  queued : q = .queued ↔ cards ≠ []
  writes : q = .writing ↔ writing ≠ none
  oneCard : cards.length ≤ 1
  cards : ∀ x ∈ cards, x.mode = r.mode ∧ r.raw ≠ none
  writing : ∀ x, writing = some x → x.mode = r.mode ∧ r.raw ≠ none

theorem RecordOk.card {p : Phase} {v : View} {r : Record} (ok : RecordOk p v r) (k : SlotId) :
    CardOk r (r.req k) (v.cards k) (v.writing k) := ⟨ok.queued k, ok.writes k, ok.oneCard k, ok.cards k, ok.writing k⟩

/-- One requirement of a record set, with what its slot holds. -/
theorem RecordOk.withReq {p : Phase} {v : View} {r : Record} (ok : RecordOk p v r) {i : SlotId} {q : Requirement}
    {cards : SlotId → List CardItem} {writing : SlotId → Option CardItem}
    (hst : r.state ≠ .exposing ∧ r.state ≠ .provisional) (hset : r.raw = none → q.settled = true)
    (hsame : ∀ k, k ≠ i → cards k = v.cards k ∧ writing k = v.writing k) (hi : CardOk r q (cards i) (writing i)) :
    RecordOk p { v with cards := cards, writing := writing } (r.withReq i q) := by
  have all : ∀ k, CardOk r ((r.withReq i q).req k) (cards k) (writing k) := by
    intro k
    by_cases hk : k = i
    · subst hk; rw [Record.withReq_same]; exact hi
    · rw [Record.withReq_ne hk, (hsame k hk).1, (hsame k hk).2]; exact ok.card k
  have fields : (r.withReq i q).mode = r.mode ∧ (r.withReq i q).raw = r.raw ∧ (r.withReq i q).state = r.state
      ∧ (r.withReq i q).proof = r.proof ∧ (r.withReq i q).proofState = r.proofState ∧ (r.withReq i q).hold = r.hold
      ∧ (r.withReq i q).rawPins = r.rawPins ∧ (r.withReq i q).proofPins = r.proofPins := by
    cases i <;> exact ⟨rfl, rfl, rfl, rfl, rfl, rfl, rfl, rfl⟩
  obtain ⟨h1, h2, h3, h4, h5, h6, h7, h8⟩ := fields
  refine ⟨?_, ?_, fun hr => ?_, fun e => ?_, ?_, ?_, ?_, fun k => (all k).queued, fun k => (all k).writes, fun k => (all k).oneCard,
    fun k => ?_, fun k => ?_, fun k hk => ?_, fun j hj => ?_⟩
  · rw [h7, h6]; exact ok.rawPins
  · rw [h8, h6]; exact ok.proofPins
  · rw [h2] at hr
    have settled : ∀ k, ((r.withReq i q).req k).settled = true := by
      intro k
      by_cases hk : k = i
      · subst hk; rw [Record.withReq_same]; exact hset hr
      · rw [Record.withReq_ne hk]
        cases k
        · exact (ok.settled hr).1
        · exact (ok.settled hr).2
    exact ⟨settled .a, settled .b⟩
  · rw [h3] at e
    rcases e with e | e
    · exact absurd e hst.1
    · exact absurd e hst.2
  · rw [h3, h5]; exact ok.pending
  · rw [h3, h5, h4]; exact ok.done
  · rw [h4, h1]; exact ok.figures
  · rw [h1, h2]; exact (all k).cards
  · rw [h1, h2]; exact (all k).writing
  · rw [h1, h2]
    exact ⟨(ok.job k hk).1, (ok.job k hk).2.1, Phase.jobState_congr h3 (ok.job k hk).2.2⟩
  · have item := ok.items j hj
    exact ⟨Phase.itemState_congr h3 item.state, by rw [h2]; exact item.raw,
      fun c w => Phase.awaited_congr h5 h4 (item.waits c w), by rw [h4]; exact item.proof⟩

/-- A requirement set together with a change of its slot. -/
theorem Books.atCards {i : SlotId} {n : Nat} {r : Record} {q : Requirement} (h : Books ph mv o s) (hr : s.record n = some r)
    (hc : t.cat = (s.setReq n i q).cat) (hd : t.dve = s.dve) (hq : t.ttc = s.ttc) (hf : t.fsc = s.fsc)
    (hlaw : ∀ k, mv'.law k (t.slot k))
    (hsame : ∀ m k, m ≠ n ∨ k ≠ i → (t.view mv' m).cards k = (s.view mv m).cards k
      ∧ (t.view mv' m).writing k = (s.view mv m).writing k)
    (hst : r.state ≠ .exposing ∧ r.state ≠ .provisional) (hset : r.raw = none → q.settled = true)
    (hi : CardOk r q ((t.view mv' n).cards i) ((t.view mv' n).writing i)) : Books ph mv' o t := by
  rw [setReq_eq] at hc
  have hrec : ∀ m, t.record m = (s.updRecord n (Record.withReq i q)).record m := fun m => by unfold State.record; rw [hc]
  refine h.atShot n (catalogLaw.congr ((Cascade.record s n _).keeps_catalog h.catalog) hc) (hq ▸ h.queue) (hd ▸ h.jobs)
    (h.store.of_count (by rw [hf]) (by rw [hf]) fun a => ?_) hlaw (fun m hm => ⟨rfl, ?_⟩) ?_
  · have h1 := updRecord_slabs h.catalog hr (Record.withReq i q) a
    have e : (r.updated (Record.withReq i q)).slabs = r.slabs := Record.withReq_slabs i q r
    rw [e] at h1
    unfold State.holdings
    rw [hf, hc, hd]
    omega
  · refine View.eq_of ((hrec m).trans (updRecord_record_ne s _ hm)) ?_ ?_ (fun k => (hsame m k (.inl hm)).1)
      (fun k => (hsame m k (.inl hm)).2)
    · simp only [State.view, hq]
    · simp only [State.view, hd]
  · have hnew : t.record n = some (r.updated (Record.withReq i q)) := by rw [hrec, updRecord_record_same, hr]; rfl
    refine ⟨fun x hx => ?_, fun hx => ?_⟩
    · have hx : t.record n = some x := hx
      rw [hnew] at hx
      cases hx
      refine ((h.recordOk hr).withReq (cards := (t.view mv' n).cards) (writing := (t.view mv' n).writing) hst hset
        (fun k hk => hsame n k (.inr hk)) hi).congr rfl ?_ ?_ (fun _ => rfl) (fun _ => rfl)
      · simp only [State.view, hq]
      · simp only [State.view, hd]
    · have hx : t.record n = none := hx
      rw [hnew] at hx
      cases hx

theorem Requirement.settled_none : ∀ {q : Requirement}, q.settled = false → q ≠ .notRequired
  | .queued, _ => by decide
  | .writing, _ => by decide
  | .failed, _ => by decide

/-- A record with a requirement that is not settled is one that has been STORED, with its raw. -/
theorem RecordOk.open {p : Phase} {v : View} {r : Record} (ok : RecordOk p v r) {i : SlotId} (h : (r.req i).settled = false) :
    r.raw ≠ none ∧ r.state ≠ .exposing ∧ r.state ≠ .provisional := by
  have hreq := Requirement.settled_none h
  have hnot : ¬ (r.state = .exposing ∨ r.state = .provisional) := by
    intro e
    obtain ⟨-, -, -, -, ha, hb⟩ := ok.unstored e
    cases i
    · exact hreq ha
    · exact hreq hb
  refine ⟨fun hr => ?_, fun e => hnot (.inl e), fun e => hnot (.inr e)⟩
  obtain ⟨ha, hb⟩ := ok.settled hr
  cases i
  · exact absurd (h.symm.trans ha) (by decide)
  · exact absurd (h.symm.trans hb) (by decide)

/-- With its requirement neither QUEUED nor WRITING a slot holds nothing of the shot. -/
theorem CardOk.nothing {r : Record} {q : Requirement} {cs : List CardItem} {w : Option CardItem} (h : CardOk r q cs w)
    (hq : q ≠ .queued) (hw : q ≠ .writing) : cs = [] ∧ w = none := by
  refine ⟨?_, ?_⟩
  · by_contra hn
    exact hq (h.queued.mpr hn)
  · by_contra hn
    exact hw (h.writes.mpr hn)

/-- Nothing held, and a requirement that says so. -/
theorem CardOk.empty {r : Record} {q : Requirement} (hq : q ≠ .queued) (hw : q ≠ .writing) : CardOk r q [] none :=
  ⟨by simp [hq], by simp [hw], by simp, by simp, by simp⟩

theorem filter_one {l : List CardItem} {x : CardItem} {n : Nat} (h : x.shot = n) :
    ((x :: l).filter fun y => y.shot == n) = x :: l.filter fun y => y.shot == n := by
  rw [List.filter_cons_of_pos (by simpa using h)]

theorem filter_other {l : List CardItem} {x : CardItem} {n : Nat} (h : x.shot ≠ n) :
    ((x :: l).filter fun y => y.shot == n) = l.filter fun y => y.shot == n := by
  rw [List.filter_cons_of_neg (by simpa using h)]

/-! ## Queueing an item (R139, R153) -/

theorem Books.queueItem {i : SlotId} {item : CardItem} {r : Record} (h : Books ph mv o s) (hr : s.record item.shot = some r)
    (hst : r.state ≠ .exposing ∧ r.state ≠ .provisional) (hraw : r.raw ≠ none) (hm : item.mode = r.mode)
    (hq : r.req i ≠ .queued) (hw : r.req i ≠ .writing) :
    Books ph (mv.seeing i { s.slot i with queue := (s.slot i).queue ++ [item] }) o (queueItem i item s) := by
  have hslot : ∀ k, (Machine.queueItem i item s).slot k
      = (s.updSlot i fun x => { x with queue := x.queue ++ [item] }).slot k := fun k => by cases k <;> rfl
  have hcards : ∀ k m, ((Machine.queueItem i item s).view (mv.seeing i { s.slot i with queue := (s.slot i).queue ++ [item] }) m).cards k
      = (mv.ahead k ++ ((s.updSlot i fun x => { x with queue := x.queue ++ [item] }).slot k).queue).filter fun x => x.shot == m := by
    intro k m
    rw [view_seeing, view_cards, hslot]
  have hwriting : ∀ k m,
      ((Machine.queueItem i item s).view (mv.seeing i { s.slot i with queue := (s.slot i).queue ++ [item] }) m).writing k
      = ((s.updSlot i fun x => { x with queue := x.queue ++ [item] }).slot k).item.filter fun x => x.shot == m := by
    intro k m
    rw [view_writing, hslot]
  refine h.atCards (i := i) (q := .queued) hr rfl rfl rfl rfl (fun k => ?_) (fun m k hmk => ?_) hst (fun e => absurd e hraw) ?_
  · rw [hslot]
    by_cases hk : k = i
    · subst hk; rw [Hands.seeing_same, State.updSlot_slot]
    · rw [Hands.seeing_ne _ _ hk, State.updSlot_slot_ne _ _ (Ne.symm hk)]; exact h.slots k
  · rw [hcards, hwriting]
    by_cases hk : k = i
    · subst hk
      have hmn : item.shot ≠ m := by
        rcases hmk with e | e
        · exact fun e' => e e'.symm
        · exact absurd rfl e
      rw [State.updSlot_slot, ← List.append_assoc, List.filter_append, filter_other hmn, view_cards, view_writing]
      exact ⟨by simp, rfl⟩
    · rw [State.updSlot_slot_ne _ _ (Ne.symm hk), view_cards, view_writing]
      exact ⟨rfl, rfl⟩
  · obtain ⟨h1, h2⟩ := ((h.recordOk hr).card i).nothing hq hw
    rw [view_cards] at h1
    rw [view_writing] at h2
    rw [hcards, hwriting, State.updSlot_slot, ← List.append_assoc, List.filter_append, h1, filter_one rfl]
    have h2' : Option.filter (fun x => x.shot == item.shot) (Slot.item { s.slot i with queue := (s.slot i).queue ++ [item] }) = none := h2
    rw [h2']
    refine ⟨by simp, by simp, by simp, fun x hx => ?_, fun x hx => by cases hx⟩
    simp only [List.filter_nil, List.nil_append, List.mem_singleton] at hx
    rw [hx]
    exact ⟨hm, hraw⟩

/-! ## The arbiter and the head item (R143, R146) -/

theorem Books.slotOk {l : List CardItem} (h : Books ph (.holding l) o s) (i : SlotId) : (s.slot i).Ok := Slot.law_iff.mp (h.slots i)

theorem Books.unseeOk {l : List CardItem} {i : SlotId} {x : Slot} (h : Books ph ((Hands.holding l).seeing i x) o s) (hx : x.Ok) :
    Books ph (.holding l) o s := h.unsee (Slot.law_iff.mpr hx)

theorem Books.arbitrate {l : List CardItem} (h : Books ph (.holding l) o s) (i : SlotId) : Books ph (.holding l) o (arbitrate i s) := by
  have ok := h.slotOk i
  have block : ∀ b rest, (s.slot i).blocks = b :: rest → (s.slot i).state.isOpen = true
      → Books ph (.holding l) o (takeBlock i b s) := by
    intro b rest hb hopen
    refine (h.editSlot i _ rfl rfl).unseeOk (ok.withOp hopen _ _ (fun e => ?_) fun _ => by simp [hb])
    cases hw : b.write <;> simp [hw] at e
  have chunk : ∀ w, (s.slot i).writing = some w → (s.slot i).state.isOpen = true → Books ph (.holding l) o (takeChunk i w s) := by
    intro w hw hopen
    have hs : (Machine.beginAccess (.card i) (((s.record w.item.shot).bind Record.raw).getD []) s).slot i = s.slot i := by
      cases i <;> rfl
    have hb := h.beginAccess (.card i) (((s.record w.item.shot).bind Record.raw).getD [])
    have started := hb.editSlot i (fun x => { x with
      op := some { kind := .chunk, issued := false, timer := s.crw.stallLimit, runs := chunkRuns w, payload := chunkBytes w s }
      lastWasBlock := false }) rfl rfl
    rw [hs] at started
    exact started.unseeOk (ok.withOp hopen _ _ (fun _ => by simp [hw]) fun e => absurd rfl e)
  unfold Machine.arbitrate
  dsimp only
  split
  · exact h
  case isFalse hop =>
    have hopen : (s.slot i).state.isOpen = true := by
      simp only [Bool.or_eq_true, not_or, Bool.not_eq_true, Bool.not_eq_false'] at hop
      exact hop.2
    split
    case _ b rest w hb hw =>
      split
      · exact chunk w hw hopen
      · exact block b rest hb hopen
    case _ b rest hb hw => exact block b rest hb hopen
    case _ w hb hw =>
      split
      · exact chunk w hw hopen
      · exact h
    · exact h

/-- The head item becomes the writing item, its requirement WRITING (R143). -/
theorem Books.startHead {i : SlotId} {x : Slot} {item : CardItem} {rest : List CardItem} {w : WritingItem}
    (h : Books ph (mv.seeing i x) o s)
    (ha : mv.ahead i = []) (hq : x.queue = item :: rest) (hx : x.writing = none) (hw : w.item = item) (pool : List Extent) :
    Books ph (mv.seeing i { x with queue := rest, pool := pool, writing := some w }) o
      ((s.updSlot i fun y => { y with queue := rest, pool := pool, writing := some w }).setReq item.shot i .writing) := by
  have hs := h.seen
  set t := (s.updSlot i fun y => { y with queue := rest, pool := pool, writing := some w }).setReq item.shot i .writing with ht
  have hslot : ∀ k, t.slot k = (s.updSlot i fun y => { y with queue := rest, pool := pool, writing := some w }).slot k :=
    fun k => by cases k <;> rfl
  have old : ∀ m, (s.view (mv.seeing i x) m).cards i = (item :: rest).filter fun y => y.shot == m := fun m => by
    rw [view_seeing, view_cards, ha, hs, hq]
    rfl
  have oldw : ∀ m, (s.view (mv.seeing i x) m).writing i = none := fun m => by
    rw [view_writing, hs]
    simp [Slot.item, hx]
  have new : ∀ m, (t.view (mv.seeing i { x with queue := rest, pool := pool, writing := some w }) m).cards i
      = rest.filter fun y => y.shot == m := fun m => by
    rw [view_seeing, view_cards, ha, hslot, State.updSlot_slot]
    rfl
  have neww : ∀ m, (t.view (mv.seeing i { x with queue := rest, pool := pool, writing := some w }) m).writing i
      = (some item).filter fun y => y.shot == m := fun m => by
    rw [view_writing, hslot, State.updSlot_slot]
    simp only [Slot.item, Option.map_some, hw]
  have hmem : item ∈ (s.view (mv.seeing i x) item.shot).cards i := by rw [old, filter_one rfl]; simp
  cases hr : s.record item.shot with
  | none =>
    rw [((h.shots item.shot).none hr).cards i] at hmem
    cases hmem
  | some r =>
    have ok := h.recordOk hr
    have card := ok.card i
    have hreq : r.req i = .queued := card.queued.mpr fun e => by rw [e] at hmem; cases hmem
    obtain ⟨hraw, hst⟩ := ok.open (i := i) (by rw [hreq]; rfl)
    have hone := card.oneCard
    rw [old, filter_one rfl, List.length_cons] at hone
    have hrest : (rest.filter fun y => y.shot == item.shot) = [] := List.eq_nil_of_length_eq_zero (by omega)
    refine h.atCards (i := i) (q := .writing) hr rfl rfl rfl rfl (fun k => ?_) (fun m k hmk => ?_) hst (fun e => absurd e hraw) ?_
    · rw [hslot]
      by_cases hk : k = i
      · subst hk; rw [Hands.seeing_same, State.updSlot_slot, hs]
      · have := h.slots k
        rw [Hands.seeing_ne _ _ hk] at this ⊢
        rw [State.updSlot_slot_ne _ _ (Ne.symm hk)]
        exact this
    · by_cases hk : k = i
      · subst hk
        have hmn : item.shot ≠ m := by
          rcases hmk with e | e
          · exact fun e' => e e'.symm
          · exact absurd rfl e
        rw [old, oldw, new, neww, filter_other hmn]
        exact ⟨rfl, by simp [Option.filter, hmn]⟩
      · rw [view_seeing, view_seeing, view_cards, view_cards, view_writing, view_writing, hslot,
          State.updSlot_slot_ne _ _ (Ne.symm hk)]
        exact ⟨rfl, rfl⟩
    · rw [new, neww, hrest]
      refine ⟨by simp, by simp, by simp, by simp, fun y hy => ?_⟩
      have hy : item = y := by simpa [Option.filter] using hy
      rw [← hy]
      exact card.cards item hmem

theorem Books.tryHead (h : Books ph (.holding []) o s) (i : SlotId) : Books ph (.holding []) o (tryHead i s) := by
  have ok := h.slotOk i
  unfold Machine.tryHead
  dsimp only
  split
  case isTrue hs =>
    have hs : (s.slot i).state = .idle ∨ (s.slot i).state = .waitExtents := by simpa using hs
    have hw : (s.slot i).writing = none := ok.notWriting (by rcases hs with e | e <;> simp [e])
    have hf : (s.slot i).fullPending = false := by
      by_contra hn
      have := ok.full (by simpa using hn)
      rcases hs with e | e <;> simp [e] at this
    have hop : ∀ p, (s.slot i).op = some p → p.kind ≠ .chunk := fun p hp hk => by
      have := (ok.op p hp).1 hk
      rw [hw] at this
      cases this
    have hd : (s.slot i).detect = true := ok.detected (by rcases hs with e | e <;> simp [e])
    have move : ∀ st, st = .idle ∨ st = .waitExtents → Books ph (.holding []) o (Machine.moveSlot i st s) := fun st hst =>
      ((h.see i).moveSlot st).unseeOk (ok.toOpen hw hf hop hd hst)
    split
    · split
      · exact move _ (.inl rfl)
      · exact h
    case _ item rest hq =>
      split
      case _ fs pool hb =>
        have started := (h.see i).startHead (w := { item := item, fragments := fs, next := 0, written := 0, abort := false })
          (by cases i <;> rfl) hq hw rfl pool
        exact ((started.moveSlot .writing).unseeOk (ok.start hs hb rest)).arbitrate i
      · exact move _ (.inr rfl)
  · exact h

theorem Books.tryIdle (h : Books ph (.holding []) o s) (i : SlotId) : Books ph (.holding []) o (tryIdle i s) := by
  unfold Machine.tryIdle
  split
  · exact h.tryHead i
  · exact h

/-- An item queued in a slot whose law is kept. -/
theorem Books.queueItemHeld {l : List CardItem} {i : SlotId} {item : CardItem} {r : Record} (h : Books ph (.holding l) o s)
    (hr : s.record item.shot = some r) (hst : r.state ≠ .exposing ∧ r.state ≠ .provisional) (hraw : r.raw ≠ none)
    (hm : item.mode = r.mode) (hq : r.req i ≠ .queued) (hw : r.req i ≠ .writing) :
    Books ph (.holding l) o (Machine.queueItem i item s) := by
  obtain ⟨h1, h2, h3, h4, h5, h6, h7, h8, h9, h10, h11⟩ := h.slotOk i
  exact (h.queueItem hr hst hraw hm hq hw).unseeOk ⟨h1, h2, h3, h4, h5, h6, h7, h8, h9, h10, h11⟩

end

end Sys2Proof.Machine
end

section
/-! SUPPORT. The end of an item, migration, faults and waivers over the books (R59, R140, R149 to R154). -/

namespace Sys2Proof.Machine

section
variable {ph : Nat → Phase} {mv mv' : Hands} {o : List Nat} {s t : State}

/-! ## What a release test leaves of a record -/

/-- What of a record no release touches. -/
def Record.fixed (r : Record) : Mode × RecordState × Requirement × Requirement := (r.mode, r.state, r.reqA, r.reqB)

theorem announceSlabs_cat (s : State) : (announceSlabs s).cat = s.cat := by
  unfold announceSlabs
  split
  · split
    · exact claimFor_cat _ _
    · rfl
  · rfl

theorem releaseChain_cat (c : List Nat) (s : State) : (releaseChain c s).cat = s.cat := by
  unfold releaseChain
  split
  · rfl
  · exact announceSlabs_cat _

theorem record_of_cat {n : Nat} (h : t.cat = s.cat) : t.record n = s.record n := by
  unfold State.record
  rw [h]

theorem updRecord_fixed {n m : Nat} {f : Record → Record} {r : Record} (hf : ∀ x : Record, (f x).fixed = x.fixed)
    (h : (s.updRecord n f).record m = some r) : ∃ x, s.record m = some x ∧ r.fixed = x.fixed := by
  rw [updRecord_record] at h
  obtain ⟨x, hx, rfl⟩ := Option.map_eq_some_iff.mp h
  refine ⟨x, hx, ?_⟩
  split
  · exact hf x
  · rfl

theorem releaseRaw_fixed {n m : Nat} {r : Record} (h : (releaseRaw n s).record m = some r) :
    ∃ x, s.record m = some x ∧ r.fixed = x.fixed := by
  unfold releaseRaw at h
  split at h
  · split at h
    · split at h
      · rw [record_of_cat (releaseChain_cat _ _)] at h
        exact updRecord_fixed (f := fun x => { x with raw := none }) (fun _ => rfl) h
      · exact ⟨r, h, rfl⟩
    · exact ⟨r, h, rfl⟩
  · exact ⟨r, h, rfl⟩

theorem releaseProof_fixed {n m : Nat} {r : Record} (h : (releaseProof n s).record m = some r) :
    ∃ x, s.record m = some x ∧ r.fixed = x.fixed := by
  unfold releaseProof at h
  split at h
  · split at h
    · split at h
      · rw [record_of_cat (releaseChain_cat _ _)] at h
        exact updRecord_fixed (f := fun x => { x with proof := none, proofState := .none }) (fun _ => rfl) h
      · exact ⟨r, h, rfl⟩
    · exact ⟨r, h, rfl⟩
  · exact ⟨r, h, rfl⟩

theorem freeRecord_record {n m : Nat} {r : Record} (h : (freeRecord n s).record m = some r) : s.record m = some r := by
  have drop : ∀ u : State, u.cat = (s.dropRecord n).cat → u.record m = some r → s.record m = some r := by
    intro u hu hr
    rw [record_of_cat (t := u) (s := s.dropRecord n) hu] at hr
    by_cases hm : m = n
    · rw [hm, dropRecord_record_same] at hr
      cases hr
    · rwa [dropRecord_record_ne _ hm] at hr
  unfold freeRecord at h
  split at h
  · split at h
    · dsimp only at h
      split at h
      · exact drop _ rfl h
      · exact drop _ rfl h
    · exact h
  · exact h

/-- A release test leaves mode, state and requirements of every record it leaves. -/
theorem testRelease_fixed {n m : Nat} {r : Record} (h : (testRelease n s).record m = some r) :
    ∃ x, s.record m = some x ∧ r.fixed = x.fixed := by
  obtain ⟨x, hx, e⟩ := releaseProof_fixed (freeRecord_record h)
  obtain ⟨y, hy, e'⟩ := releaseRaw_fixed hx
  exact ⟨y, hy, e.trans e'⟩

/-! ## Migration (R140) -/

/-- The second half of a move from A to B: the item joins B where B has none, and the record is tested (R140). -/
theorem Books.migrateRest {l : List CardItem} {item : CardItem} {r : Record}
    (h : Books ph (.holding l) o (s.setReq item.shot .a .notRequired)) (hr : s.record item.shot = some r)
    (hst : r.state ≠ .exposing ∧ r.state ≠ .provisional) (hraw : r.raw ≠ none) (hm : item.mode = r.mode)
    (hp : (ph item.shot).testable) : Books ph (.holding l) o (migrateItem item s) := by
  unfold Machine.migrateItem
  rw [hr]
  dsimp only
  refine Books.testRelease ?_ _ hp
  split
  case isTrue hb =>
    have hb : r.reqB = .notRequired := by simpa using hb
    have hrec : (s.setReq item.shot .a .notRequired).record item.shot = some (r.withReq .a .notRequired) := by
      rw [setReq_eq, updRecord_record_same, hr]
      rfl
    have hreq : (r.withReq .a .notRequired).req .b = .notRequired := hb
    exact h.queueItemHeld hrec hst hraw hm (by rw [hreq]; decide) (by rw [hreq]; decide)
  case isFalse => exact h

/-- The first item in motion moves (R140). -/
theorem Books.migrateHead {l : List CardItem} {item : CardItem} (h : Books ph (.holding (item :: l)) o s)
    (hp : (ph item.shot).testable) : Books ph (.holding l) o (migrateItem item s) := by
  have old : ∀ m, (s.view (.holding (item :: l)) m).cards .a = (item :: (l ++ s.crw.slotA.queue)).filter fun x => x.shot == m :=
    fun m => rfl
  have hmem : item ∈ (s.view (.holding (item :: l)) item.shot).cards .a := by rw [old, filter_one rfl]; simp
  cases hr : s.record item.shot with
  | none =>
    rw [((h.shots item.shot).none hr).cards .a] at hmem
    cases hmem
  | some r =>
    have ok := h.recordOk hr
    have card := ok.card .a
    have hreq : r.req .a = .queued := card.queued.mpr fun e => by rw [e] at hmem; cases hmem
    obtain ⟨hraw, hst⟩ := ok.open (i := .a) (by rw [hreq]; rfl)
    have hone := card.oneCard
    rw [old, filter_one rfl, List.length_cons] at hone
    have hrest : ((l ++ s.crw.slotA.queue).filter fun x => x.shot == item.shot) = [] := List.eq_nil_of_length_eq_zero (by omega)
    have hnow : (s.view (.holding (item :: l)) item.shot).writing .a = none := by
      by_contra hn
      have := card.writes.mpr hn
      rw [hreq] at this
      cases this
    have hset : Books ph (.holding l) o (s.setReq item.shot .a .notRequired) := by
      refine h.atCards (i := .a) (q := .notRequired) hr rfl rfl rfl rfl (fun k => by
        cases k with
        | a => exact h.slots .a
        | b => exact h.slots .b) (fun m k hmk => ?_) hst
        (fun e => absurd e hraw) ?_
      · cases k with
        | a =>
          have hmn : item.shot ≠ m := by
            rcases hmk with e | e
            · exact fun e' => e e'.symm
            · exact absurd rfl e
          rw [old, filter_other hmn]
          exact ⟨rfl, rfl⟩
        | b => exact ⟨rfl, rfl⟩
      · have h1 : ((s.setReq item.shot .a .notRequired).view (.holding l) item.shot).cards .a = [] := hrest
        have h2 : ((s.setReq item.shot .a .notRequired).view (.holding l) item.shot).writing .a = none := hnow
        rw [h1, h2]
        exact .empty (by decide) (by decide)
    exact hset.migrateRest hr hst hraw (card.cards item hmem).1 hp

/-- An item that slot A has failed moves (R140). -/
theorem Books.migrateFailed {l : List CardItem} {item : CardItem} (h : Books ph (.holding l) o s)
    (hf : ∀ r, s.record item.shot = some r → r.mode = item.mode ∧ r.reqA = .failed) (hp : (ph item.shot).testable) :
    Books ph (.holding l) o (migrateItem item s) := by
  cases hr : s.record item.shot with
  | none =>
    unfold Machine.migrateItem
    rw [hr]
    exact h
  | some r =>
    obtain ⟨hm, hreq⟩ := hf r hr
    have hreq : r.req .a = .failed := hreq
    have ok := h.recordOk hr
    obtain ⟨hraw, hst⟩ := ok.open (i := .a) (by rw [hreq]; rfl)
    obtain ⟨h1, h2⟩ := (ok.card .a).nothing (by rw [hreq]; decide) (by rw [hreq]; decide)
    have hset : Books ph (.holding l) o (s.setReq item.shot .a .notRequired) := by
      refine h.atCards (i := .a) (q := .notRequired) hr rfl rfl rfl rfl (fun k => by cases k <;> exact h.slots _)
        (fun m k _ => by cases k <;> exact ⟨rfl, rfl⟩) hst (fun e => absurd e hraw) ?_
      have h1 : ((s.setReq item.shot .a .notRequired).view (.holding l) item.shot).cards .a = [] := h1
      have h2 : ((s.setReq item.shot .a .notRequired).view (.holding l) item.shot).writing .a = none := h2
      rw [h1, h2]
      exact .empty (by decide) (by decide)
    exact hset.migrateRest hr hst hraw hm.symm hp

theorem Books.migrateItems {l : List CardItem} (h : Books ph (.holding l) o s) (hp : ∀ n, (ph n).testable) :
    Books ph (.holding []) o (migrateItems l s) := by
  induction l generalizing s with
  | nil => exact h
  | cons x l ih => exact ih (h.migrateHead (hp _))

/-- A's queue taken up for its migration. -/
theorem Books.takeQueue (h : Books ph (.holding []) o s) :
    Books ph (.holding s.crw.slotA.queue) o (s.updSlot .a fun x => { x with queue := [] }) := by
  refine ⟨h.catalog, h.queue, h.jobs, h.store.of_count rfl rfl fun _ => rfl, fun k => ?_, fun n => ?_⟩
  · cases k with
    | a => exact h.slots .a
    | b => exact h.slots .b
  · have : (s.updSlot .a fun x => { x with queue := [] }).view (.holding s.crw.slotA.queue) n = s.view (.holding []) n := by
      refine View.eq_of rfl rfl rfl (fun k => ?_) (fun k => by cases k <;> rfl)
      cases k with
      | a =>
        rw [view_cards, view_cards]
        show (s.crw.slotA.queue ++ []).filter _ = ([] ++ s.crw.slotA.queue).filter _
        simp
      | b => rfl
    rw [this]
    exact h.shots n

/-- A's entry into FULL, FAULT or ABSENT (R140): with at most one failed item. -/
theorem Books.migrateFrom (h : Books ph (.holding []) o s) (hp : ∀ n, (ph n).testable) (i : SlotId) (failed : Option CardItem)
    (hf : i = .a → ∀ x, failed = some x → ∀ r, s.record x.shot = some r → r.mode = x.mode ∧ r.reqA = .failed) :
    Books ph (.holding []) o (migrateFrom i failed.toList s) := by
  unfold Machine.migrateFrom
  split
  case isTrue hi =>
    have hi : i = .a := by
      simp only [Bool.and_eq_true, beq_iff_eq] at hi
      exact hi.1
    refine Books.tryIdle ?_ .b
    cases failed with
    | none => exact h.takeQueue.migrateItems hp
    | some x => exact (h.takeQueue.migrateFailed (hf hi x rfl) (hp _)).migrateItems hp
  · exact h

/-! ## The end of the writing item (R151) -/

/-- The requirement an end leaves (R151). -/
def ItemStatus.requirement : ItemStatus → Requirement
  | .written => .written
  | .failed => .failed
  | .aborted => .waived

theorem endItem_eq (i : SlotId) (w : WritingItem) (st : ItemStatus) (s : State) :
    endItem i w st s = testRelease w.item.shot
      (((s.updSlot i fun x => { x with writing := none }).offer .body
        (.cardItemDone w.item.shot i st w.item.mode.itemBlocks w.written w.fragments)).setReq w.item.shot i st.requirement) := by
  cases st <;> rfl

/-- The writing item ends: its requirement takes the outcome, and the record is tested (R151). -/
theorem Books.endItem {i : SlotId} {x : Slot} {w : WritingItem} (h : Books ph (mv.seeing i x) o s) (hw : x.writing = some w)
    (hp : (ph w.item.shot).testable) (st : ItemStatus) :
    Books ph (mv.seeing i { x with writing := none }) o (endItem i w st s) := by
  rw [endItem_eq]
  refine Books.testRelease ?_ _ hp
  have hs := h.seen
  set t := ((s.updSlot i fun x => { x with writing := none }).offer .body
    (.cardItemDone w.item.shot i st w.item.mode.itemBlocks w.written w.fragments)).setReq w.item.shot i st.requirement with ht
  have hslot : ∀ k, t.slot k = (s.updSlot i fun y => { y with writing := none }).slot k := fun k => by cases k <;> rfl
  have hold : (s.view (mv.seeing i x) w.item.shot).writing i = some w.item := by
    rw [view_writing, hs]
    simp [Slot.item, hw, Option.filter]
  cases hr : s.record w.item.shot with
  | none =>
    rw [((h.shots w.item.shot).none hr).writing i] at hold
    cases hold
  | some r =>
    have ok := h.recordOk hr
    have card := ok.card i
    have hreq : r.req i = .writing := card.writes.mpr (by rw [hold]; simp)
    obtain ⟨hraw, hst⟩ := ok.open (i := i) (by rw [hreq]; rfl)
    have hnone : (s.view (mv.seeing i x) w.item.shot).cards i = [] := by
      by_contra hn
      have := card.queued.mpr hn
      rw [hreq] at this
      cases this
    have cards : ∀ m k, (t.view (mv.seeing i { x with writing := none }) m).cards k = (s.view (mv.seeing i x) m).cards k := by
      intro m k
      rw [view_seeing, view_seeing, view_cards, view_cards, hslot]
      by_cases hk : k = i
      · subst hk; rw [State.updSlot_slot]
      · rw [State.updSlot_slot_ne _ _ (Ne.symm hk)]
    refine h.atCards (i := i) (q := st.requirement) hr (by cases i <;> rfl) rfl rfl rfl (fun k => ?_) (fun m k hmk => ?_) hst
      (fun e => absurd e hraw) ?_
    · rw [hslot]
      by_cases hk : k = i
      · subst hk; rw [Hands.seeing_same, State.updSlot_slot, hs]
      · have := h.slots k
        rw [Hands.seeing_ne _ _ hk] at this ⊢
        rw [State.updSlot_slot_ne _ _ (Ne.symm hk)]
        exact this
    · refine ⟨cards m k, ?_⟩
      rw [view_writing, view_writing, hslot]
      by_cases hk : k = i
      · subst hk
        have hmn : w.item.shot ≠ m := by
          rcases hmk with e | e
          · exact fun e' => e e'.symm
          · exact absurd rfl e
        rw [State.updSlot_slot, hs]
        simp [Slot.item, hw, Option.filter, hmn]
      · rw [State.updSlot_slot_ne _ _ (Ne.symm hk)]
    · rw [cards, hnone, view_writing, hslot, State.updSlot_slot]
      cases st <;> exact .empty (by decide) (by decide)

theorem endItem_fixed {i : SlotId} {w : WritingItem} {st : ItemStatus} {r : Record}
    (h : (endItem i w st s).record w.item.shot = some r) :
    ∃ x, s.record w.item.shot = some x ∧ r.mode = x.mode ∧ r.req i = st.requirement := by
  rw [endItem_eq] at h
  obtain ⟨x, hx, e⟩ := testRelease_fixed h
  rw [setReq_eq, updRecord_record_same] at hx
  obtain ⟨y, hy, rfl⟩ := Option.map_eq_some_iff.mp hx
  simp only [Record.fixed, Prod.mk.injEq] at e
  obtain ⟨h1, -, h3, h4⟩ := e
  refine ⟨y, hy, h1.trans (by cases i <;> rfl), ?_⟩
  cases i
  · exact h3
  · exact h4

/-- The writing item ends WRITTEN or ABORTED, and the slot goes on (R146, R151). -/
theorem Books.finishItem {i : SlotId} {x : Slot} {w : WritingItem} (h : Books ph ((Hands.holding []).seeing i x) o s)
    (hp : ∀ n, (ph n).testable) (hw : x.writing = some w)
    (hidle : x.fullPending = false → Slot.Ok { x with writing := none, state := .idle })
    (hfull : x.fullPending = true → Slot.Ok { x with writing := none, state := .full }) (st : ItemStatus) :
    Books ph (.holding []) o (finishItem i w st s) := by
  have he := h.endItem hw (hp _) st
  refine Books.arbitrate ?_ i
  unfold Machine.slotAfterItem
  rw [he.seen]
  split
  case isTrue hf => exact Books.migrateFrom ((he.moveSlot .full).unseeOk (hfull hf)) hp i none (fun _ x hx => by cases hx)
  case isFalse hf => exact Books.tryHead ((he.moveSlot .idle).unseeOk (hidle (by simpa using hf))) i

/-! ## Faults and removal (R149, R150) -/

theorem Books.failBlocks (bs : List BlockRequest) (h : Books ph mv o s) : Books ph mv o (failBlocks bs s) := by
  induction bs generalizing s with
  | nil => exact h
  | cons b bs ih => exact ih (h.respond _ _ _ _ _ _)

theorem failBlocks_cat (bs : List BlockRequest) (s : State) : (failBlocks bs s).cat = s.cat := by
  induction bs generalizing s with
  | nil => rfl
  | cons b bs ih => exact ih _

theorem moveSlot_cat (i : SlotId) (st : SlotState) (s : State) : (moveSlot i st s).cat = s.cat := by
  unfold moveSlot
  dsimp only
  split
  · rfl
  · unfold State.offerClass
    split <;> rfl

/-- The item a fault leaves to migrate: the writing item, unless it was being aborted (R149). -/
def Slot.failedItem (x : Slot) : Option CardItem := x.writing.bind fun w => if w.abort then none else some w.item

/-- The state after steps 1 and 2 of R149: the operation is gone, and the writing item with it. -/
def State.writingFailed (s : State) (i : SlotId) : State :=
  match (s.slot i).writing with
  | some w => endItem i w (if w.abort then .aborted else .failed) (s.updSlot i fun y => { y with op := none })
  | none => s.updSlot i fun y => { y with op := none }

theorem faultSlot_eq (i : SlotId) (new : SlotState) (s : State) :
    faultSlot i new s = migrateFrom i (s.slot i).failedItem.toList
      (moveSlot i new ((failBlocks (s.slot i).blocks (s.writingFailed i)).updSlot i fun y =>
        { y with blocks := [], pool := [], fullPending := false })) := by
  unfold faultSlot State.writingFailed Slot.failedItem
  dsimp only
  cases (s.slot i).writing with
  | none => rfl
  | some w =>
    dsimp only [Option.bind_some]
    cases w.abort <;> rfl

/-- Steps 1 and 2 of R149: the slot without operation and writing item, and what is known of the item that has failed. -/
theorem Books.writingFailed {i : SlotId} (h : Books ph ((Hands.holding []).seeing i (s.slot i)) o s) (hp : ∀ n, (ph n).testable) :
    Books ph ((Hands.holding []).seeing i { s.slot i with op := none, writing := none }) o (s.writingFailed i)
      ∧ (i = .a → ∀ x, (s.slot i).failedItem = some x
        → ∀ r, (s.writingFailed i).record x.shot = some r → r.mode = x.mode ∧ r.reqA = .failed) := by
  have h1 := h.editSeen (fun y => { y with op := none }) rfl rfl
  unfold State.writingFailed
  cases hw : (s.slot i).writing with
  | none =>
    refine ⟨?_, fun _ x hx => by simp [Slot.failedItem, hw] at hx⟩
    have e : ({ s.slot i with op := none, writing := none } : Slot) = { s.slot i with op := none } := by rw [← hw]
    rw [e]
    exact h1
  | some w =>
    refine ⟨h1.endItem hw (hp _) _, fun hi x hx r hr => ?_⟩
    simp only [Slot.failedItem, hw, Option.bind_some] at hx
    split at hx
    · cases hx
    case isFalse hab =>
      cases hx
      obtain ⟨y, hy, hm, hq⟩ := endItem_fixed hr
      rw [if_neg hab] at hq
      refine ⟨hm.trans ?_, by subst hi; exact hq⟩
      have hy : s.record w.item.shot = some y := hy
      have hv : (s.view ((Hands.holding []).seeing i (s.slot i)) w.item.shot).writing i = some w.item := by
        rw [view_writing]
        simp [Slot.item, hw, Option.filter]
      exact ((h.recordOk hy).writing i _ hv).1.symm

/-- A slot that faults, or loses its card, keeps the books (R149, R150). -/
theorem Books.faultSlot {i : SlotId} {new : SlotState} (h : Books ph ((Hands.holding []).seeing i (s.slot i)) o s)
    (hp : ∀ n, (ph n).testable) (hnew : new ≠ .writing) (hd : new = .absent ↔ (s.slot i).detect = false) :
    Books ph (.holding []) o (faultSlot i new s) := by
  obtain ⟨hb, hf⟩ := h.writingFailed hp
  have h3 := (hb.failBlocks (s.slot i).blocks).editSeen (fun y => { y with blocks := [], pool := [], fullPending := false }) rfl rfl
  have h4 := (h3.moveSlot new).unseeOk (Slot.Ok.empty rfl rfl rfl rfl rfl hnew hd)
  rw [faultSlot_eq]
  refine h4.migrateFrom hp i _ fun hi x hx r hr => hf hi x hx r ?_
  rwa [record_of_cat (moveSlot_cat _ _ _), record_of_cat (t := (Machine.failBlocks (s.slot i).blocks (s.writingFailed i)).updSlot i _)
    (s := s.writingFailed i) (failBlocks_cat _ _)] at hr

/-! ## Waivers (R59, R152, R154) -/

/-- A QUEUED or FAILED requirement waived, its item out of the queue (R152, R154). -/
theorem Books.waive {i : SlotId} {n : Nat} {r : Record} (h : Books ph (.holding []) o s) (hr : s.record n = some r)
    (hreq : r.req i = .queued ∨ r.req i = .failed) :
    Books ph (.holding []) o ((s.updSlot i fun x => { x with queue := x.queue.filter fun y => y.shot != n }).setReq n i .waived) := by
  have ok := h.recordOk hr
  obtain ⟨hraw, hst⟩ := ok.open (i := i) (by rcases hreq with e | e <;> rw [e] <;> rfl)
  have hnow : (s.view (.holding []) n).writing i = none := by
    by_contra hn
    have := (ok.card i).writes.mpr hn
    rcases hreq with e | e <;> rw [e] at this <;> cases this
  set t := (s.updSlot i fun x => { x with queue := x.queue.filter fun y => y.shot != n }).setReq n i .waived with ht
  have hslot : ∀ k, t.slot k = (s.updSlot i fun x => { x with queue := x.queue.filter fun y => y.shot != n }).slot k :=
    fun k => by cases k <;> rfl
  have ahead : ∀ k, (Hands.holding []).ahead k = [] := fun k => by cases k <;> rfl
  have hcards : ∀ m, (t.view (.holding []) m).cards i = (((s.slot i).queue.filter fun y => y.shot != n).filter fun y => y.shot == m) := by
    intro m
    rw [view_cards, hslot, State.updSlot_slot, ahead]
    rfl
  refine h.atCards (i := i) (q := .waived) hr (by cases i <;> rfl) rfl rfl rfl (fun k => ?_) (fun m k hmk => ?_) hst
    (fun e => absurd e hraw) ?_
  · rw [hslot]
    by_cases hk : k = i
    · subst hk; rw [State.updSlot_slot]; exact h.slots k
    · rw [State.updSlot_slot_ne _ _ (Ne.symm hk)]; exact h.slots k
  · by_cases hk : k = i
    · subst hk
      have hmn : m ≠ n := by
        rcases hmk with e | e
        · exact e
        · exact absurd rfl e
      refine ⟨?_, by rw [view_writing, view_writing, hslot, State.updSlot_slot]; rfl⟩
      rw [hcards, view_cards, ahead, List.nil_append, List.filter_filter]
      refine List.filter_congr fun y _ => ?_
      by_cases hy : y.shot = m
      · simp [hy, hmn]
      · simp [hy]
    · rw [view_cards, view_cards, view_writing, view_writing, hslot, State.updSlot_slot_ne _ _ (Ne.symm hk)]
      exact ⟨rfl, rfl⟩
  · have h1 : (t.view (.holding []) n).cards i = [] := by
      rw [hcards, List.filter_filter]
      refine List.filter_eq_nil_iff.mpr fun y _ => ?_
      by_cases hy : y.shot = n <;> simp [hy]
    have h2 : (t.view (.holding []) n).writing i = none := by
      rw [view_writing, hslot, State.updSlot_slot]
      exact hnow
    rw [h1, h2]
    exact .empty (by decide) (by decide)

/-- Step 4 of R59 at one slot. -/
theorem Books.waiveDeleted (h : Books ph (.holding []) o s) (i : SlotId) (n : Nat) : Books ph (.holding []) o (waiveDeleted i n s) := by
  unfold Machine.waiveDeleted
  split
  case _ r hr =>
    split
    case _ hq =>
      have hw := h.waive (i := i) hr (.inl hq)
      have e : (s.setReq n i .waived).updSlot i (fun x => { x with queue := x.queue.filter fun y => y.shot != n })
          = (s.updSlot i fun x => { x with queue := x.queue.filter fun y => y.shot != n }).setReq n i .waived := by cases i <;> rfl
      unfold Machine.removeQueued
      dsimp only
      rw [e]
      exact .either _ (hw.tryHead i) hw
    case _ hq =>
      have ok := h.recordOk hr
      obtain ⟨hraw, hst⟩ := ok.open (i := i) (by rw [hq]; rfl)
      obtain ⟨h1, h2⟩ := (ok.card i).nothing (by rw [hq]; decide) (by rw [hq]; decide)
      have hv : ∀ m k, ((s.setReq n i .waived).view (.holding []) m).cards k = (s.view (.holding []) m).cards k
          ∧ ((s.setReq n i .waived).view (.holding []) m).writing k = (s.view (.holding []) m).writing k := fun m k => by
        cases k <;> exact ⟨rfl, rfl⟩
      refine h.atCards (i := i) (q := .waived) hr rfl rfl rfl rfl (fun k => by cases k <;> exact h.slots _)
        (fun m k _ => hv m k) hst (fun e => absurd e hraw) ?_
      rw [(hv n i).1, (hv n i).2, h1, h2]
      exact .empty (by decide) (by decide)
    · exact h
  · exact h

theorem Slot.Ok.marked {x : Slot} {w : WritingItem} (h : x.Ok) (hw : x.writing = some w) :
    Slot.Ok { x with writing := some { w with abort := true } } := by
  have ht : Slot.taken { x with writing := some { w with abort := true } } = x.taken := by simp [Slot.taken, hw]
  refine ⟨h.pool, h.blocks, by rw [ht]; exact h.disjoint, by rw [ht]; exact h.extents, fun v hv => ?_, ?_, h.absent, h.holds, h.full,
    h.closed, fun p hp => ⟨fun _ => rfl, (h.op p hp).2⟩⟩
  · cases hv
    exact h.item w hw
  · have := h.writes
    rw [hw] at this
    simpa using this

/-- Step 5 of R59 at one slot. -/
theorem Books.abortWriting (h : Books ph (.holding []) o s) (hp : ∀ n, (ph n).testable) (i : SlotId) (n : Nat) :
    Books ph (.holding []) o (abortWriting i n s) := by
  have ok := h.slotOk i
  unfold Machine.abortWriting
  split
  case _ w hw =>
    split
    · split
      · exact (h.editSlot i _ rfl (by simp [Slot.item, hw])).unseeOk (ok.marked hw)
      case isFalse hop =>
        have hop : ∀ p, (s.slot i).op = some p → p.kind ≠ .chunk := fun p hpo hk => hop (by simp [Slot.chunkInFlight, hpo, hk])
        obtain ⟨hidle, hfull⟩ := ok.withoutWriting hop (ok.writes.mpr (by simp [hw]))
        exact (h.see i).finishItem hp hw hidle hfull .aborted
    · exact h
  · exact h

end

end Sys2Proof.Machine
end

section
/-! SUPPORT. The catalog over the books: records made, stored, discarded and deleted; holds (R35, R37, R41, R47 to R52, R58, R59). -/

namespace Sys2Proof.Machine

section
variable {ph : Nat → Phase} {mv : Hands} {o : List Nat} {s t : State}

/-! ## A record that nothing refers to yet -/

/-- A record that has not become STORED is referred to by nothing (R42). -/
theorem RecordOk.unreferred {v : View} {r : Record} (ok : RecordOk .calm v r) (h : r.state = .exposing ∨ r.state = .provisional) :
    v.Empty := by
  obtain ⟨-, -, -, -, ha, hb⟩ := ok.unstored h
  have hreq : ∀ k, r.req k = .notRequired := fun k => by
    cases k
    · exact ha
    · exact hb
  have hcard := fun k => (ok.card k).nothing (by rw [hreq k]; decide) (by rw [hreq k]; decide)
  refine ⟨List.eq_nil_iff_forall_not_mem.mpr fun i hi => ?_, ?_, fun k => (hcard k).1, fun k => (hcard k).2⟩
  · obtain ⟨hs, -⟩ := (Phase.plain_itemState (.inl rfl)).mp (ok.items i hi).state
    split at hs <;> rcases h with h | h <;> rw [h] at hs <;> cases hs
  · by_contra hn
    obtain ⟨k, hk⟩ := Option.ne_none_iff_exists'.mp hn
    have hs := (Phase.plain_jobState (.inl rfl)).mp (ok.job k hk).2.2
    split at hs <;> rcases h with h | h <;> rw [h] at hs <;> cases hs

/-- The law of a record that nothing refers to. -/
theorem RecordOk.ofEmpty {p : Phase} {v : View} {r : Record} (he : v.Empty) (hraw : r.raw ≠ none) (hproof : r.proof = none)
    (hstate : r.proofState = .none) (hhold : r.hold = false) (hreq : r.reqA = .notRequired ∧ r.reqB = .notRequired)
    (hpins : r.rawPins = 0 ∧ r.proofPins = 0) : RecordOk p v r := by
  obtain ⟨h1, h2, h3, h4⟩ := he
  have req : ∀ k, r.req k = .notRequired := fun k => by
    cases k
    · exact hreq.1
    · exact hreq.2
  refine ⟨?_, ?_, fun e => absurd e hraw, fun _ => ⟨hraw, hproof, hstate, hhold, hreq⟩, fun _ => ?_, fun _ e => ?_, fun x e => ?_,
    fun k => ?_, fun k => ?_, fun k => ?_, fun k x hx => ?_, fun k x hx => ?_, fun k hk => ?_, fun i hi => ?_⟩
  · simp [View.naming, h1, hpins.1, hhold]
  · simp [View.naming, h1, hpins.2, hhold]
  · simp [hstate, h2]
  · rw [hstate] at e; cases e
  · rw [hproof] at e; cases e
  · simp [req k, h3 k]
  · simp [req k, h4 k]
  · simp [h3 k]
  · rw [h3 k] at hx; cases hx
  · rw [h4 k] at hx; cases hx
  · rw [h2] at hk; cases hk
  · rw [h1] at hi; cases hi

/-! ## Creating a record (R41) -/

theorem catalogLaw.next_absent (h : catalogLaw s) : s.record s.cat.nextShot = none := by
  refine record_none.mpr fun r hr e => ?_
  have := (h.2.1 r hr).2
  omega

/-- A record made for a taken frame has its chain (R41). -/
theorem Books.createRecord {c : List Nat} (h : Books ph mv (c ++ o) s) (hs : s.catalogSpace = true) (k : CaptureKind) (m : Mode)
    (n : Nat) : Books ph mv o (createRecord k m n c s) := by
  have absent := h.catalog.next_absent
  have records : (Machine.createRecord k m n c s).cat.records = s.cat.records ++ [newRecord s k m n c] := rfl
  have others : ∀ x, x ≠ s.cat.nextShot → (Machine.createRecord k m n c s).record x = s.record x := fun x hx => by
    have hne : ¬ s.cat.nextShot = x := fun e => hx e.symm
    unfold State.record
    rw [records, List.find?_append]
    simp [newRecord, hne]
  have new : (Machine.createRecord k m n c s).record s.cat.nextShot = some (newRecord s k m n c) := by
    have : s.cat.records.find? (fun r => r.shot == s.cat.nextShot) = none := absent
    unfold State.record
    rw [records, List.find?_append, this]
    simp [newRecord]
  refine h.atShot s.cat.nextShot (createRecord_keeps_catalog k m n c hs h.catalog) h.queue h.jobs
    (h.store.of_count rfl rfl fun a => ?_) (fun k => by cases k <;> exact h.slots _) (fun x hx => ⟨rfl, ?_⟩) ?_
  · have e : (newRecord s k m n c).slabs = c := by simp [newRecord, Record.slabs]
    unfold State.holdings
    rw [records, List.map_append, List.sum_append, List.map_singleton, List.sum_singleton, e, List.count_append]
    show s.fsc.freeList.count a + s.fsc.releasing.flatten.count a + (_ + c.count a) + (s.dve.jobs.map fun j => j.slabs.count a).sum
      + o.count a = _
    omega
  · exact View.eq_of (others x hx) rfl rfl (fun k => by cases k <;> rfl) (fun k => by cases k <;> rfl)
  · refine ⟨fun r hr => ?_, fun hr => ?_⟩
    · have hr : (Machine.createRecord k m n c s).record s.cat.nextShot = some r := hr
      rw [new] at hr
      cases hr
      refine (RecordOk.ofEmpty ((h.shots s.cat.nextShot).none absent) (by simp [newRecord]) rfl rfl rfl ⟨rfl, rfl⟩ ⟨rfl, rfl⟩).congr
        rfl rfl rfl (fun k => by cases k <;> rfl) (fun k => by cases k <;> rfl)
    · have hr : (Machine.createRecord k m n c s).record s.cat.nextShot = none := hr
      rw [new] at hr
      cases hr

/-! ## Discarding a record (R42, R47, R49) -/

theorem updRecord_dropRecord (s : State) (n : Nat) (f : Record → Record) : (s.updRecord n f).dropRecord n = s.dropRecord n := by
  unfold State.dropRecord
  rw [updRecord_cat]
  unfold State.updCat
  dsimp only
  have hshot : ∀ r : Record, (r.changeAt n f).shot = r.shot := fun r => by
    unfold Record.changeAt
    split <;> rfl
  have : ∀ l : List Record, (l.map (Record.changeAt n f)).filter (fun r => r.shot != n) = l.filter fun r => r.shot != n := by
    intro l
    rw [List.filter_map]
    have e : ((fun r : Record => r.shot != n) ∘ Record.changeAt n f) = fun r => r.shot != n := by
      funext r
      simp only [Function.comp, hshot]
    rw [e]
    refine (List.map_congr_left fun r hr => ?_).trans (List.map_id _)
    have := (List.mem_filter.mp hr).2
    unfold Record.changeAt
    rw [if_neg (by simpa using this)]
    rfl
  rw [this]

/-- The catalog changes the same way on both sides of a shuffle. -/
theorem Shuffle.dropRecord (f : Shuffle s t) (n : Nat) : Shuffle (s.dropRecord n) (t.dropRecord n) := by
  refine ⟨by simp only [State.dropRecord, State.updCat, f.cat], f.ttc, f.crw, f.configured, f.slabCount, f.releasing, f.keys,
    fun a => ?_, f.jobs⟩
  have := f.slabs a
  unfold State.holdings at this ⊢
  rw [f.cat] at this
  have e : (t.dropRecord n).cat = (s.dropRecord n).cat := by simp only [State.dropRecord, State.updCat, f.cat]
  rw [e]
  simp only [State.dropRecord_fsc, State.dropRecord_dve]
  omega

/-- A record that has not become STORED is discarded with its raw (R49). -/
theorem Books.removeRecord {n : Nat} {r : Record} (h : Books calm mv o s) (hr : s.record n = some r)
    (hst : r.state = .exposing ∨ r.state = .provisional) : Books calm mv o (removeRecord n s) := by
  have ok := h.recordOk hr
  obtain ⟨hraw, hproof, -⟩ := ok.unstored hst
  obtain ⟨c, hc⟩ := Option.ne_none_iff_exists'.mp hraw
  have gone : Books calm mv (c ++ o) (s.dropRecord n) := h.dropRecord hr (fun a => by
    simp [Record.slabs, hc, hproof, List.count_append]) (ok.unreferred hst)
  unfold Machine.removeRecord
  rw [hr]
  dsimp only
  rw [hc]
  dsimp only
  unfold Machine.releaseChain
  split
  · have := gone.fsc (o' := o) (fun f => { f with releasing := f.releasing ++ [c] }) rfl rfl fun a => by
      simp only [List.count_append, List.flatten_append, List.flatten_cons, List.flatten_nil, List.append_nil]
      omega
    rw [← updRecord_dropRecord s n fun x => { x with raw := none }] at this
    exact this
  · have := gone.fsc (o' := o) (fun f => { f with freeList := f.freeList ++ c }) rfl rfl fun a => by
      simp only [List.count_append]
      omega
    rw [← updRecord_dropRecord s n fun x => { x with raw := none }] at this
    have sh := announceSlabs_shuffle (s := (s.updRecord n fun x => { x with raw := none }).updFsc fun f =>
      { f with freeList := f.freeList ++ c }) h.jobs
    exact this.shuffle (sh.dropRecord n)

theorem Books.discardMember (h : Books calm mv o s) (n : Nat) : Books calm mv o (discardMember n s) := by
  unfold Machine.discardMember
  split
  · exact h
  case _ r hr =>
    split
    case isTrue hp => exact h.removeRecord hr (.inr (by simpa using hp))
    case isFalse => exact h.inert fun _ => rfl

theorem Books.discardMembers (ns : List Nat) (h : Books calm mv o s) : Books calm mv o (discardMembers ns s) := by
  induction ns generalizing s with
  | nil => exact h
  | cons n ns ih => exact ih (h.discardMember n)

/-! ## Storing a record (R48, R139) -/

theorem arbitrate_cat (i : SlotId) (s : State) : (arbitrate i s).cat = s.cat := by
  unfold arbitrate
  dsimp only
  split
  · rfl
  · split
    · split <;> rfl
    · rfl
    · split <;> rfl
    · rfl

/-- Trying a head item changes no record beside one requirement of its slot (R143). -/
theorem tryIdle_cat (i : SlotId) (s : State) :
    (tryIdle i s).cat = s.cat ∨ ∃ n, (tryIdle i s).cat = (s.setReq n i .writing).cat := by
  unfold tryIdle tryHead
  dsimp only
  split
  · split
    · split
      · split
        · exact .inl (moveSlot_cat _ _ _)
        · exact .inl rfl
      · split
        · exact .inr ⟨_, by rw [arbitrate_cat, moveSlot_cat]; cases i <;> rfl⟩
        · exact .inl (moveSlot_cat _ _ _)
    · exact .inl rfl
  · exact .inl rfl

/-- What of a record a change at slot A leaves as it is. -/
def Record.besideA (r : Record) : Mode × RecordState × Option (List Nat) × Requirement := (r.mode, r.state, r.raw, r.reqB)

theorem besideA_of_setReq {n m : Nat} {q : Requirement} {r : Record} (h : s.record n = some r) :
    ∃ x, (s.setReq m .a q).record n = some x ∧ x.besideA = r.besideA := by
  rw [setReq_eq, updRecord_record, h]
  refine ⟨_, rfl, ?_⟩
  dsimp only
  split <;> rfl

theorem queueItem_tryIdle_besideA {n : Nat} {item : CardItem} {r : Record} (h : s.record n = some r) :
    ∃ x, (tryIdle .a (queueItem .a item s)).record n = some x ∧ x.besideA = r.besideA := by
  obtain ⟨y, hy, e⟩ := besideA_of_setReq (m := item.shot) (q := .queued) h
  have hy : (queueItem .a item s).record n = some y := hy
  rcases tryIdle_cat .a (queueItem .a item s) with hc | ⟨m, hc⟩
  · exact ⟨y, (record_of_cat hc).trans hy, e⟩
  · obtain ⟨x, hx, e'⟩ := besideA_of_setReq (m := m) (q := .writing) hy
    exact ⟨x, (record_of_cat hc).trans hx, e'.trans e⟩

/-- The card items of a record that becomes STORED (R139). -/
theorem Books.enqueueCard {r x : Record} (h : Books ph (.holding []) o s) (hx : s.record r.shot = some x) (hm : x.mode = r.mode)
    (hst : x.state = .stored) (hraw : x.raw ≠ none) (ha : x.reqA = .notRequired) (hb : x.reqB = .notRequired) :
    Books ph (.holding []) o (enqueueCard r s) := by
  have plain : x.state ≠ .exposing ∧ x.state ≠ .provisional := by rw [hst]; exact ⟨by decide, by decide⟩
  have put : ∀ i, Books ph (.holding []) o (Machine.tryIdle i (Machine.queueItem i { shot := r.shot, mode := r.mode } s)) := fun i => by
    have hreq : x.req i = .notRequired := by
      cases i
      · exact ha
      · exact hb
    exact (h.queueItemHeld (item := { shot := r.shot, mode := r.mode }) hx plain hraw hm.symm (by rw [hreq]; decide)
      (by rw [hreq]; decide)).tryIdle i
  unfold Machine.enqueueCard
  dsimp only
  split
  · exact .either _ (put .a) (put .b)
  · have first : ∀ u, Books ph (.holding []) o u → (∃ y, u.record r.shot = some y ∧ y.besideA = x.besideA) →
        Books ph (.holding []) o
          (if u.crw.contentB then Machine.tryIdle .b (Machine.queueItem .b { shot := r.shot, mode := r.mode } u) else u) := by
      rintro u hu ⟨y, hy, e⟩
      simp only [Record.besideA, Prod.mk.injEq] at e
      obtain ⟨e1, e2, e3, e4⟩ := e
      have hreq : y.req .b = .notRequired := e4.trans hb
      refine .either _ ((hu.queueItemHeld (item := { shot := r.shot, mode := r.mode }) hy ?_ (e3 ▸ hraw) (e1.trans hm).symm
        (by rw [hreq]; decide) (by rw [hreq]; decide)).tryIdle .b) hu
      rw [e2]
      exact plain
    split
    · exact first _ (put .a) (queueItem_tryIdle_besideA hx)
    · exact first _ h ⟨x, hx, rfl⟩

/-- A record becomes STORED, with the follow-on work (R48). -/
theorem Books.storeRecord {n : Nat} {r : Record} (h : Books calm (.holding []) o s) (hr : s.record n = some r)
    (hst : r.state = .exposing ∨ r.state = .provisional) : Books calm (.holding []) o (storeRecord n s) := by
  have ok := h.recordOk hr
  obtain ⟨hraw, hproof, hstate, hhold, ha, hb⟩ := ok.unstored hst
  have empty := ok.unreferred hst
  have stored : Books calm (.holding []) o (s.updRecord n fun x => { x with state := .stored }) :=
    h.updRecord hr (fun _ _ => rfl) (fun _ => rfl) fun ok => by
      have hn : ∀ c, (s.view (.holding []) n).naming c = 0 := fun c => by simp [View.naming, empty.items]
      have h1 := ok.rawPins
      have h2 := ok.proofPins
      rw [hn, hhold] at h1 h2
      exact RecordOk.ofEmpty empty hraw hproof hstate hhold ⟨ha, hb⟩ ⟨h1, h2⟩
  have hx : (s.updRecord n fun x => { x with state := .stored }).record n = some (r.updated fun x => { x with state := .stored }) := by
    rw [updRecord_record_same, hr]
    rfl
  have hshot : r.shot = n := record_shot hr
  unfold Machine.storeRecord
  rw [hr]
  dsimp only
  have card := stored.enqueueCard (r := r) (x := r.updated fun x => { x with state := .stored }) (by rw [hshot]; exact hx) rfl rfl
    hraw ha hb
  have rules := card.evaluateRules (n := n) rfl
  refine Books.testRelease (Books.offer ?_ _ _) n (.inl rfl)
  exact .either _ (rules.internalRequest rfl _ _ _) rules

theorem Books.promoteMember (h : Books calm (.holding []) o s) (n : Nat) : Books calm (.holding []) o (promoteMember n s) := by
  unfold Machine.promoteMember
  split
  · exact h
  case _ r hr =>
    split
    case isTrue hp => exact h.storeRecord hr (.inr (by simpa using hp))
    case isFalse => exact h.inert fun _ => rfl

theorem Books.promoteMembers (ns : List Nat) (h : Books calm (.holding []) o s) : Books calm (.holding []) o (promoteMembers ns s) := by
  induction ns generalizing s with
  | nil => exact h
  | cons n ns ih => exact ih (h.promoteMember n)

theorem Books.promoteRing (h : Books calm (.holding []) o s) : Books calm (.holding []) o (promoteRing s) :=
  .either _ (h.promoteMembers _) h

/-- A raw completion reported to the CAT (R24, R47). -/
theorem Books.reportRaw (h : Books calm (.holding []) o s) (e : EndedFrame) : Books calm (.holding []) o (reportRaw e s) := by
  unfold Machine.reportRaw
  dsimp only
  split
  · exact h
  case _ r hr =>
    set f : Record → Record := fun x => { x with bl := some e.bl, truncated := e.truncated }
    have h1 : Books calm (.holding []) o (s.updRecord e.capture.shot f) := h.inert fun _ => rfl
    have hx : (s.updRecord e.capture.shot f).record e.capture.shot = some (r.updated f) := by
      rw [updRecord_record_same, hr]
      rfl
    split
    · exact h1
    case isFalse hst =>
      have hst : r.state = .exposing := by simpa using hst
      split
      · exact h1.storeRecord hx (.inl hst)
      · exact h1.storeRecord hx (.inl hst)
      · exact h1.removeRecord hx (.inl hst)
      · refine h1.updRecord hx (fun _ _ => rfl) (fun _ => rfl) fun ok => ?_
        obtain ⟨hraw, hproof, hstate, hhold, ha, hb⟩ := ok.unstored (.inl hst)
        have empty := ok.unreferred (.inl hst)
        have hn : ∀ c, ((s.updRecord e.capture.shot f).view (.holding []) e.capture.shot).naming c = 0 := fun c => by
          simp [View.naming, empty.items]
        have h1 := ok.rawPins
        have h2 := ok.proofPins
        rw [hn, hhold] at h1 h2
        exact RecordOk.ofEmpty empty hraw hproof hstate hhold ⟨ha, hb⟩ ⟨h1, h2⟩

/-! ## Holds (R52) -/

/-- A record held: one pin more on each content. -/
theorem Books.hold {n : Nat} {r : Record} (h : Books calm mv o s) (hr : s.record n = some r) (hst : r.state = .stored)
    (hh : r.hold = false) : Books calm mv o (((s.updRecord n fun x => { x with hold := true }).pin n .raw).pin n .proof) := by
  unfold State.pin
  rw [updRecord_updRecord, updRecord_updRecord]
  refine h.updRecord hr (fun _ _ => rfl) (fun _ => rfl) fun ok => ?_
  have h1 := ok.rawPins
  have h2 := ok.proofPins
  rw [hh] at h1 h2
  refine ⟨?_, ?_, ok.settled, fun e => ?_, ok.pending, ok.done, ok.figures, ok.queued, ok.writes, ok.oneCard, ok.cards, ok.writing,
    fun k hk => ⟨(ok.job k hk).1, (ok.job k hk).2.1, Phase.jobState_congr (by rfl) (ok.job k hk).2.2⟩,
    fun i hi => (ok.items i hi).congr rfl rfl rfl rfl⟩
  · show r.rawPins + 1 = _ + 1
    rw [h1]; rfl
  · show r.proofPins + 1 = _ + 1
    rw [h2]; rfl
  · rcases e with e | e <;> exact absurd (hst.symm.trans e) (by decide)

/-- A hold given up: one pin less on each content. -/
theorem Books.unhold {n : Nat} {r : Record} (h : Books calm mv o s) (hr : s.record n = some r) (hh : r.hold = true) :
    Books calm mv o (((s.updRecord n fun x => { x with hold := false }).unpin n .raw).unpin n .proof) := by
  unfold State.unpin
  rw [updRecord_updRecord, updRecord_updRecord]
  refine h.updRecord hr (fun _ _ => rfl) (fun _ => rfl) fun ok => ?_
  have h1 := ok.rawPins
  have h2 := ok.proofPins
  rw [hh] at h1 h2
  refine ⟨?_, ?_, ok.settled, fun e => ?_, ok.pending, ok.done, ok.figures, ok.queued, ok.writes, ok.oneCard, ok.cards, ok.writing,
    fun k hk => ⟨(ok.job k hk).1, (ok.job k hk).2.1, Phase.jobState_congr (by rfl) (ok.job k hk).2.2⟩,
    fun i hi => (ok.items i hi).congr rfl rfl rfl rfl⟩
  · show r.rawPins - 1 = _ + 0
    rw [h1]; rfl
  · show r.proofPins - 1 = _ + 0
    rw [h2]; rfl
  · have := (ok.unstored e).2.2.2.1
    rw [hh] at this
    cases this

end

end Sys2Proof.Machine
end

section
/-! SUPPORT. Deletion over the books (R58, R59). -/

namespace Sys2Proof.Machine

section
variable {ph : Nat → Phase} {mv : Hands} {o : List Nat} {s t : State}

/-! ## The send items of a shot that is being deleted (R59 steps 2 and 3) -/

theorem deleteItems_waiting {i : SendItem} (is : List SendItem) (s : State) (h : i.state ≠ .sending) :
    deleteItems (i :: is) s = deleteItems is (leaveQueue i .dropped s) := by
  unfold deleteItems
  cases hs : i.state with
  | sending => exact absurd hs h
  | waitingProof | ready => rw [deleteItems.eq_def]

theorem mem_deleteItems {is : List SendItem} (hst : ∀ i ∈ is, i.state ≠ .sending) {x : SendItem} :
    x ∈ (deleteItems is s).ttc.queue ↔ x ∈ s.ttc.queue ∧ ∀ i ∈ is, x.serial ≠ i.serial := by
  induction is generalizing s with
  | nil => simp [deleteItems]
  | cons i is ih =>
    rw [deleteItems_waiting is s (hst i (by simp)), ih fun j hj => hst j (by simp [hj]), leaveQueue_queue]
    simp only [List.mem_filter, bne_iff_ne, List.forall_mem_cons]
    tauto

/-- READY and WAITING_PROOF items leave at once (R59 step 2). -/
theorem Books.deleteWaiting {is : List SendItem} (h : Books ph mv o s) (hm : ∀ i ∈ is, i ∈ s.ttc.queue)
    (hk : (is.map SendItem.serial).Nodup) (hst : ∀ i ∈ is, i.state ≠ .sending) : Books ph mv o (deleteItems is s) := by
  induction is generalizing s with
  | nil => exact h
  | cons i is ih =>
    rw [List.map_cons, List.nodup_cons] at hk
    rw [deleteItems_waiting is s (hst i (by simp))]
    refine ih (h.leaveQueue (hm i (by simp)) .dropped) (fun x hx => ?_) hk.2 fun j hj => hst j (by simp [hj])
    rw [leaveQueue_queue]
    refine List.mem_filter.mpr ⟨hm x (by simp [hx]), ?_⟩
    simpa using fun e : x.serial = i.serial => hk.1 (e ▸ List.mem_map_of_mem hx)

/-- With no item left, a doomed shot waits for its job alone. -/
theorem Books.noItems {n : Nat} (h : Books ph mv o s) (hp : ph n = .doomed) (hno : ∀ i ∈ s.ttc.queue, i.shot ≠ n) :
    Books (Phase.at ph n .dying) mv o s := by
  refine h.rephase n .dying fun r hr ok => ?_
  rw [hp] at ok
  refine ok.rephase (fun i hi _ => ?_) fun _ _ hj => hj
  obtain ⟨hi, hs⟩ := mem_view_items.mp hi
  exact absurd hs (hno i hi)

/-- The SENDING item of a doomed shot ends or is cut (R59 step 3, R173). -/
theorem Books.deleteSending {n : Nat} {is : List SendItem} (h : Books ph mv o s) (hp : ph n = .doomed)
    (hm : ∀ i ∈ is, i ∈ s.ttc.queue ∧ i.shot = n ∧ i.state = .sending) (hall : ∀ i ∈ s.ttc.queue, i.shot = n → i ∈ is)
    (hk : (is.map SendItem.serial).Nodup) : Books (Phase.at ph n .dying) mv o (deleteItems is s) := by
  cases is with
  | nil => exact h.noItems hp fun i hi hs => by cases hall i hi hs
  | cons i rest =>
    obtain ⟨hi, rfl, hs⟩ := hm i (by simp)
    -- at most one item is SENDING
    have alone : rest = [] := by
      refine List.eq_nil_iff_forall_not_mem.mpr fun x hx => ?_
      obtain ⟨hxq, -, hxs⟩ := hm x (by simp [hx])
      rw [List.map_cons, List.nodup_cons] at hk
      exact hk.1 (h.queue.oneSending i hi x hxq hs hxs ▸ List.mem_map_of_mem hx)
    subst alone
    have only : ∀ x ∈ s.ttc.queue, x.shot = i.shot → x = i := fun x hx hxs => by simpa using hall x hx hxs
    have ended : Books (Phase.at ph i.shot .dying) mv o (Machine.endDeleted i s) := by
      have gone := (h.leaveQueue hi .dropped).noItems (n := i.shot) hp fun x hx hxs => by
        rw [leaveQueue_queue] at hx
        obtain ⟨hx, hne⟩ := List.mem_filter.mp hx
        rw [only x hx hxs] at hne
        simp at hne
      exact ((gone.offer _ _).answerCancel i).testRelease _ (by rw [Phase.at_same]; exact .inr (.inr rfl))
    have cut : Books (Phase.at ph i.shot .dying) mv o (s.updItem i.serial fun x => { x with cut := .delete }) := by
      have hq : QueueOk (s.updItem i.serial fun x => { x with cut := .delete }).ttc :=
        (Cascade.item s i.serial (f := fun x => { x with cut := .delete }) fun _ => ⟨rfl, rfl, id⟩).keeps_queueOk h.queue
      refine h.updItem hi (fun _ => ⟨rfl, rfl⟩) hq (fun m hm => Phase.at_ne ph _ hm) fun r hr ok =>
        ⟨?_, fun x hx hxs hne _ => ?_, fun c hj => ?_⟩
      · have item := ok.items i (mem_view_items.mpr ⟨hi, rfl⟩)
        rw [hp] at item
        rw [Phase.at_same]
        have notWaiting : i.state ≠ .waitingProof := by rw [hs]; decide
        exact ⟨⟨item.state, hs, rfl⟩, item.raw, fun _ w => absurd w notWaiting, item.proof⟩
      · exact absurd (congrArg SendItem.serial (only x hx hxs)) hne
      · rw [Phase.at_same]
        rw [hp] at hj
        exact hj
    unfold Machine.deleteItems Machine.deleteItems
    rw [hs]
    dsimp only
    split
    · exact .either _ ended cut
    · exact ended

/-! ## A record becomes DELETING (R59) -/

/-- The record of a shot whose deletion begins (R59 step 1). -/
def Record.doomed (tag : Byte) (r : Record) : Record :=
  { r with state := .deleting, deleteTag := some tag, hold := false,
           rawPins := if r.hold then r.rawPins - 1 else r.rawPins,
           proofPins := if r.hold then r.proofPins - 1 else r.proofPins }

theorem RecordOk.doomed {v : View} {r : Record} (ok : RecordOk .calm v r) (tag : Byte) :
    RecordOk .doomed v (r.doomed tag) := by
  have h1 := ok.rawPins
  have h2 := ok.proofPins
  refine ⟨?_, ?_, ok.settled, fun e => ?_, fun e => ?_, fun e => ?_, ok.figures, ok.queued, ok.writes, ok.oneCard, ok.cards, ok.writing,
    fun k hk => ⟨(ok.job k hk).1, (ok.job k hk).2.1, rfl⟩, fun i hi => ?_⟩
  · show (if r.hold then r.rawPins - 1 else r.rawPins) = _ + 0
    cases hh : r.hold <;> simp [hh] at h1 ⊢ <;> omega
  · show (if r.hold then r.proofPins - 1 else r.proofPins) = _ + 0
    cases hh : r.hold <;> simp [hh] at h2 ⊢ <;> omega
  · rcases e with e | e <;> cases e
  · cases e
  · cases e
  · have item := ok.items i hi
    exact ⟨rfl, item.raw, item.waits, item.proof⟩

theorem testable_calm (n : Nat) : (calm n).testable := .inl rfl

theorem testable_at {n : Nat} : ∀ m, (Phase.at calm n .dying m).testable := fun m => by
  by_cases h : m = n
  · rw [h, Phase.at_same]; exact .inr (.inr rfl)
  · rw [Phase.at_ne _ _ h]; exact .inl rfl

/-- A deletion begun keeps the books (R59). -/
theorem Books.beginDeleting {n : Nat} {r : Record} (h : Books calm (.holding []) o s) (hr : s.record n = some r)
    (tag : Byte) : Books calm (.holding []) o (beginDeleting n tag s) := by
  have h1 : Books (Phase.at calm n .doomed) (.holding []) o (s.updRecord n (Record.doomed tag)) :=
    h.updRecord hr (fun m hm => Phase.at_ne calm _ hm) (fun _ => rfl) fun ok => by
      rw [Phase.at_same]
      exact (ok.doomed tag).congr rfl rfl rfl (fun _ => rfl) fun _ => rfl
  set u := s.updRecord n (Record.doomed tag) with hu
  set mine := u.ttc.queue.filter fun i => i.shot == n with hmine
  have hserials : ∀ p : SendItem → Bool, ((mine.filter p).map SendItem.serial).Nodup := fun p =>
    h1.queue.serials.sublist ((List.filter_sublist.trans List.filter_sublist).map _)
  have waiting : ∀ i ∈ mine.filter (fun i => i.state != .sending), i.state ≠ .sending := fun i hi => by
    simpa using (List.mem_filter.mp hi).2
  have h2 := h1.deleteWaiting (fun i hi => (List.mem_filter.mp (List.mem_filter.mp hi).1).1) (hserials _) waiting
  have h3 := h2.deleteSending (n := n) (Phase.at_same _ _ _) (is := mine.filter fun i => i.state == .sending) (fun i hi => ?_)
    (fun i hi hs => ?_) (hserials _)
  · rw [Phase.at_at] at h3
    have h4 := (h3.waiveDeleted .a n).waiveDeleted .b n
    have h5 := (h4.abortWriting testable_at .a n).abortWriting testable_at .b n
    have h6 := h5.cancelJob (n := n) (Phase.at_same _ _ _)
    rw [Phase.at_at, show Phase.at calm n .calm = calm from Phase.at_self calm n] at h6
    exact (h6.cutRead _).testRelease n (.inl rfl)
  · obtain ⟨hm, hs⟩ := List.mem_filter.mp hi
    have hs : i.state = .sending := by simpa using hs
    obtain ⟨hq, hn⟩ := List.mem_filter.mp hm
    refine ⟨(mem_deleteItems waiting).mpr ⟨hq, fun j hj e => ?_⟩, by simpa using hn, hs⟩
    have := h1.queue.unique hq (List.mem_filter.mp (List.mem_filter.mp hj).1).1 e
    exact waiting j hj (this ▸ hs)
  · obtain ⟨hq, hne⟩ := (mem_deleteItems waiting).mp hi
    have hm : i ∈ mine := List.mem_filter.mpr ⟨hq, by simpa using hs⟩
    refine List.mem_filter.mpr ⟨hm, ?_⟩
    by_contra hn
    exact hne i (List.mem_filter.mpr ⟨hm, by simpa using hn⟩) rfl

end

end Sys2Proof.Machine
end

section
/-! SUPPORT. Frames, captures and the focus engine over the books (R16 to R37, R44, R90). -/

namespace Sys2Proof.Machine

section
variable {ph : Nat → Phase} {mv : Hands} {o : List Nat} {s t : State}

/-! ## The focus engine (R44, R75, R90) -/

theorem Books.fillFocus (h : Books ph mv o s) (f : FocusSummary) : Books ph mv o (fillFocus f s) := by
  unfold Machine.fillFocus
  split
  · exact h.inert fun _ => rfl
  · exact h

theorem Books.offerWatch (h : Books ph mv o s) (n : Notice) : Books ph mv o (offerWatch n s) := by
  unfold Machine.offerWatch
  split
  · exact h
  · exact (h.offer _ _).same (.fe _ _)
  · exact h.offer _ _

theorem Books.readyEvent (h : Books ph mv o s) (r : FrameResult) : Books ph mv o (readyEvent r s) := by
  unfold Machine.readyEvent
  dsimp only
  exact ((h.same (.fe s _)).fillFocus _).offerWatch _

theorem Books.feFrameEnd (h : Books ph mv o s) (n : Nat) (b : Bool) : Books ph mv o (feFrameEnd n b s) := by
  unfold Machine.feFrameEnd
  dsimp only
  refine Books.same ?_ (.fe _ _)
  split
  · exact (h.same (.fe s _)).readyEvent _
  · exact h

theorem Books.focusReady (h : Books ph mv o s) : Books ph mv o (focusReady s) := by
  unfold Machine.focusReady
  split
  · exact (h.same (.fe s _)).readyEvent _
  · exact h

theorem Books.fePacket (h : Books ph mv o s) (z : Nat) (p : AfPacket) : Books ph mv o (fePacket z p s) :=
  .either _ (h.same (.fe s _)) h

/-! ## The frame in progress (R15 to R21, R24) -/

theorem Books.setFrame (h : Books ph mv o s) (f : Option Frame) : Books ph mv o (s.setFrame f) := h.same (.siu s _)

theorem Books.lineArrives (h : Books ph mv o s) (index : Nat) (xs : List Sample) : Books ph mv o (lineArrives index xs s) := by
  unfold Machine.lineArrives
  split
  · exact h.same (.siu s _)
  · split
    · exact h
    · exact (h.same (.siu s _)).same (.dram _ _)

theorem Books.endFrame (h : Books ph mv o s) (f : Frame) (b : Bool) : Books ph mv o (endFrame f b s) := by
  unfold Machine.endFrame
  split
  · exact (h.feFrameEnd _ _).same (.siu _ _)
  · exact ((((h.same (.dram s _)).same (.siu _ _)).feFrameEnd _ _)).same (.siu _ _)

theorem Books.frameEnds (h : Books ph mv o s) : Books ph mv o (frameEnds s) := by
  unfold Machine.frameEnds
  split
  · exact h.endFrame _ _
  · exact h.same (.siu s _)

theorem Books.rawCompletes (h : Books calm (.holding []) o s) : Books calm (.holding []) o (rawCompletes s) := by
  unfold Machine.rawCompletes
  split
  · exact h
  · exact ((h.same (.siu s _)).settleReleases (List.Subperm.refl _)).reportRaw _

/-! ## Taking a frame (R7, R32, R33, R36) -/

theorem Books.claimCapture {k : Nat} {c : List Nat} (h : Books ph mv o s) (hc : claimCapture k s = some (c, t)) :
    Books ph mv (c ++ o) t := by
  unfold Machine.claimCapture at hc
  split at hc
  · cases hc
    refine h.fsc (fun f => { f with freeList := f.freeList.drop k }) rfl rfl fun a => ?_
    have : (s.fsc.freeList.take k).count a + (s.fsc.freeList.drop k).count a = s.fsc.freeList.count a := by
      rw [← List.count_append, List.take_append_drop]
    rw [List.count_append]
    show (s.fsc.freeList.drop k).count a + s.fsc.releasing.flatten.count a + _ = _
    omega
  · cases hc

/-- A chain claimed for a raw, with a place for its record (R32). -/
theorem Books.spaceAndSlabs {m : Mode} {c : List Nat} (h : Books ph mv o s) (hc : spaceAndSlabs m s = some (c, t)) :
    Books ph mv (c ++ o) t ∧ t.catalogSpace = true := by
  unfold Machine.spaceAndSlabs at hc
  split at hc
  case isTrue hs =>
    refine ⟨h.claimCapture hc, ?_⟩
    have : t.cat = s.cat := by
      unfold Machine.claimCapture at hc
      split at hc <;> cases hc
      rfl
    unfold State.catalogSpace at hs ⊢
    rw [this]
    exact hs
  case isFalse => cases hc

theorem Books.takeFrame {c : List Nat} (h : Books ph mv (c ++ o) s) (hs : s.catalogSpace = true) (k : CaptureKind) (f : Frame)
    (m : Mode) : Books ph mv o (takeFrame k f m c s) := (h.createRecord hs k m f.number).setFrame _

/-- What a verdict leaves: a claimed chain and a place for the record, or closed books. -/
def Verdict.Books (ph : Nat → Phase) (mv : Hands) (o : List Nat) (x : Verdict × State) : Prop :=
  match x with
  | (.taken c, t) => Machine.Books ph mv (c ++ o) t ∧ t.catalogSpace = true
  | (.failed _, t) => Machine.Books ph mv o t

theorem testCandidate_books (h : Books calm mv o s) (focus locked : Bool) (m : Mode) :
    Verdict.Books calm mv o (testCandidate focus locked m s) := by
  unfold testCandidate
  split
  · exact h
  · unfold testSpace
    split
    case _ hc => exact h.spaceAndSlabs hc
    case _ =>
      have hr := h.relieve m.rawSlabs s.ttc.queue.length
      dsimp only
      split
      case _ hc => exact hr.spaceAndSlabs hc
      case _ => exact hr

theorem Books.failShoot (h : Books ph mv o s) (p : PendingShoot) : Books ph mv o (failShoot p s) :=
  (h.same (.siu s _)).respond _ _ _ _ _ _

theorem Books.endBurst (h : Books ph mv o s) : Books ph mv o (endBurst s) := h.same (.siu s _)

theorem Books.decideShoot (h : Books calm mv o s) (locked : Bool) (p : PendingShoot) (f : Frame) (m : Mode) :
    Books calm mv o (decideShoot locked p f m s) := by
  have hv := testCandidate_books h p.focus locked m
  unfold Machine.decideShoot
  split
  case _ hc =>
    rw [hc] at hv
    exact ((hv.1.takeFrame hv.2 _ _ _).same (.siu _ _)).respond _ _ _ _ _ _
  case _ hc =>
    rw [hc] at hv
    have hv : Books calm mv o _ := hv
    exact .either _ (hv.failShoot _) (hv.same (.siu _ _))

theorem Books.countBurstShot (h : Books ph mv o s) : Books ph mv o (countBurstShot s) := by
  have h1 := h.same (.siu s fun u => { u with burst := { u.burst with taken := sat16 u.burst.taken } })
  exact .either _ h1.endBurst h1

theorem Books.skipBurstFrame (h : Books ph mv o s) (f : Frame) (r : Blocking) : Books ph mv o (skipBurstFrame f r s) := by
  have h1 := h.same (.siu s fun u => { u with burst := { u.burst with skips := sat16 u.burst.skips } })
  exact .either _ ((h1.same (.siu _ _)).offerClass _ _) h1

theorem Books.decideBurst (h : Books calm mv o s) (locked : Bool) (f : Frame) (m : Mode) :
    Books calm mv o (decideBurst locked f m s) := by
  unfold Machine.decideBurst
  extract_lets u
  have hu : Books calm mv o u := h.same (.siu s _)
  split
  · have hv := testCandidate_books hu u.siu.burst.focus locked m
    split
    case _ hc =>
      rw [hc] at hv
      exact (hv.1.takeFrame hv.2 _ _ _).countBurstShot
    case _ hc =>
      rw [hc] at hv
      have hv : Books calm mv o _ := hv
      exact hv.skipBurstFrame _ _
  · exact hu

theorem Books.decidePre (h : Books calm mv o s) (f : Frame) (m : Mode) : Books calm mv o (decidePre f m s) := by
  unfold Machine.decidePre
  extract_lets u
  have hu : Books calm mv o u := h.same (.siu s _)
  have take : ∀ v, Books calm mv o v → Books calm mv o (match Machine.spaceAndSlabs m v with
      | some (chain, s) => Machine.takeFrame .pre f m chain s
      | none => v) := by
    intro v hv
    split
    case _ hc =>
      obtain ⟨hb, hs⟩ := hv.spaceAndSlabs hc
      exact hb.takeFrame hs _ _ _
    case _ => exact hv
  split
  case isTrue v _ =>
    refine take v ?_
    unfold v
    split
    · exact .either _ (hu.discardMember _) hu
    · exact hu
  case isFalse => exact hu

theorem Books.frameStarts (h : Books calm mv o s) : Books calm mv o (frameStarts s) := by
  have decide : ∀ b f u, Books calm mv o u → Books calm mv o (decideCapture b f u) := by
    intro b f u hu
    unfold Machine.decideCapture
    split
    · exact hu
    · split
      · exact hu.decideShoot _ _ _ _
      · exact hu
      · exact hu.decideBurst _ _ _
      · exact .either _ (hu.decidePre _ _) hu
  unfold Machine.frameStarts
  extract_lets locked u
  have hu : Books calm mv o u := by
    unfold u
    split
    · exact h.endFrame _ _
    · exact h
  exact decide _ _ _ ((hu.same (.siu _ _)).same (.fe _ _))

/-! ## SHOOT, bursts, pre-capture (R26 to R30, R38) -/

theorem Books.disarmRing (h : Books calm mv o s) : Books calm mv o (disarmRing s) := (h.same (.siu s _)).discardMembers _

theorem Books.ownShoot (h : Books calm (.holding []) o s) (hd : Header) (f : Byte) : Books calm (.holding []) o (ownShoot hd f s) := by
  unfold Machine.ownShoot
  split
  · exact h.respond _ _ _ _ _ _
  · split
    · exact h.respond _ _ _ _ _ _
    · split
      · exact h.respond _ _ _ _ _ _
      · exact h.promoteRing.same (.siu _ _)

theorem Books.ownBurstBegin (h : Books calm (.holding []) o s) (hd : Header) (d m : Nat) (f : Byte) :
    Books calm (.holding []) o (ownBurstBegin hd d m f s) := by
  unfold Machine.ownBurstBegin
  split
  · exact h.respond _ _ _ _ _ _
  · split
    · exact h.respond _ _ _ _ _ _
    · split
      · exact h.respond _ _ _ _ _ _
      · split
        · exact h.respond _ _ _ _ _ _
        · exact (h.promoteRing.same (.siu _ _)).answer _ _ _

theorem Books.ownPrecapture (h : Books calm mv o s) (hd : Header) (a : Byte) (d v : Nat) :
    Books calm mv o (ownPrecapture hd a d v s) := by
  unfold Machine.ownPrecapture
  split
  · exact h.respond _ _ _ _ _ _
  · exact h.disarmRing.answer _ _ _
  · split
    · exact h.respond _ _ _ _ _ _
    · split
      · exact h.respond _ _ _ _ _ _
      · exact ((h.same (.siu s _)).discardMembers _).answer _ _ _

theorem Books.waitExpires (h : Books ph mv o s) : Books ph mv o (waitExpires s) := by
  unfold Machine.waitExpires
  split
  · exact .either _ (h.failShoot _) h
  · exact h

theorem Books.handThermalToSiu (h : Books calm mv o s) (th : Thermal) : Books calm mv o (handThermalToSiu th s) := by
  unfold Machine.handThermalToSiu
  extract_lets leaves u v
  have hu : Books calm mv o u := h.same (.siu s _)
  have hv : Books calm mv o v := .either _ hu.disarmRing hu
  exact .either _ hv.endBurst hv

/-- With nothing held, a new configuration of the store keeps the books (R3). -/
theorem Books.configure {n : Nat} (h : Books calm mv [] s) (hn : s.holdsAnything = false) (m : Mode) :
    Books calm mv [] (s.updFsc fun f => { f with configured := true, slabCount := n, mode := some m, freeList := List.range n }) := by
  simp only [State.holdsAnything, Bool.or_eq_false_iff, Bool.not_eq_false', List.isEmpty_iff] at hn
  obtain ⟨⟨⟨hr, hj⟩, -⟩, hf⟩ := hn
  refine h.sameViews h.catalog h.queue h.jobs ⟨fun a => ?_, fun e => by cases e⟩ (fun k => by cases k <;> rfl)
    (view_congr rfl rfl rfl (fun k => by cases k <;> exact ⟨rfl, rfl⟩) mv)
  unfold State.holdings
  simp [hr, hj, hf]

theorem Books.ownConfigureStore (h : Books calm mv [] s) (hd : Header) (n : Half) (m : Byte) :
    Books calm mv [] (ownConfigureStore hd n m s) := by
  unfold Machine.ownConfigureStore
  split
  · split
    · exact h.respond _ _ _ _ _ _
    case isFalse hn => exact (h.configure (by simpa using hn) _).answer _ _ _
  · exact h.respond _ _ _ _ _ _

end

end Sys2Proof.Machine
end

section
/-! SUPPORT. The card writer's commands over the books (R134 to R154). -/

namespace Sys2Proof.Machine

section
variable {o : List Nat} {s t : State}

/-! ## Slots opened, closed, declared full (R135 to R137) -/

theorem Books.ownOpenSlot (h : Books calm (.holding []) o s) (hd : Header) (b : Byte) :
    Books calm (.holding []) o (ownOpenSlot hd b s) := by
  unfold Machine.ownOpenSlot
  split
  · exact h.respond _ _ _ _ _ _
  case _ i _ =>
    split
    · exact h.respond _ _ _ _ _ _
    case isFalse hs =>
      have hs : (s.slot i).state = .present := by simpa using hs
      have ok := h.slotOk i
      obtain ⟨hb, hop⟩ := ok.closed (by rw [hs]; rfl)
      have hw := ok.notWriting (by rw [hs]; decide)
      have opened := ((h.see i).editSeen (fun x => { x with pool := [], fullPending := false }) rfl rfl).moveSlot .idle
      refine Books.tryHead (Books.answer (opened.unseeOk (Slot.Ok.empty hw rfl hb hop rfl (by decide) ?_)) _ _ _) i
      have := ok.detected (by rw [hs]; decide)
      simp [this]

theorem Books.ownCloseSlot (h : Books calm (.holding []) o s) (hd : Header) (b : Byte) :
    Books calm (.holding []) o (ownCloseSlot hd b s) := by
  unfold Machine.ownCloseSlot
  split
  · exact h.respond _ _ _ _ _ _
  case _ i _ =>
    dsimp only
    split
    · exact h.respond _ _ _ _ _ _
    case isFalse hs =>
      split
      · exact h.respond _ _ _ _ _ _
      case isFalse hb =>
        simp only [Bool.or_eq_true, beq_iff_eq, not_or, Bool.not_eq_true', Bool.not_eq_false, List.isEmpty_iff] at hs hb
        obtain ⟨ha, -⟩ := hs
        obtain ⟨hnw, hb⟩ := hb
        have ok := h.slotOk i
        have hw := ok.notWriting hnw
        have hop : (s.slot i).op = none := by
          by_contra hn
          obtain ⟨p, hp⟩ := Option.ne_none_iff_exists'.mp hn
          by_cases hk : p.kind = .chunk
          · have := (ok.op p hp).1 hk
            rw [hw] at this
            cases this
          · exact (ok.op p hp).2 hk hb
        have closed := ((h.see i).editSeen (fun x => { x with pool := [], fullPending := false }) rfl rfl).moveSlot .present
        refine Books.answer (closed.unseeOk (Slot.Ok.empty hw rfl hb hop rfl (by decide) ?_)) _ _ _
        have := ok.detected ha
        simp [this]

/-- A slot with its pool discarded (R137). -/
theorem Slot.Ok.withoutPool {x : Slot} (h : x.Ok) : Slot.Ok { x with pool := [] } := by
  have hsub : ∀ e, e ∈ Slot.taken { x with pool := [] } → e ∈ x.taken :=
    fun e he => List.mem_append_right _ (by simpa [Slot.taken] using he)
  have hlist : (Slot.taken { x with pool := [] }).Sublist x.taken := by
    unfold Slot.taken
    simp
  exact ⟨by simp, h.blocks, disjointExtents_iff.mpr ((disjointExtents_iff.mp h.disjoint).sublist hlist), fun e he => h.extents e (hsub e he),
    h.item, h.writes, h.absent, by simp, h.full, h.closed, h.op⟩

theorem Books.ownSlotFull (h : Books calm (.holding []) o s) (hd : Header) (b : Byte) :
    Books calm (.holding []) o (ownSlotFull hd b s) := by
  unfold Machine.ownSlotFull
  split
  · exact h.respond _ _ _ _ _ _
  case _ i _ =>
    dsimp only
    split
    · exact h.respond _ _ _ _ _ _
    case isFalse hopen =>
      have hopen : (s.slot i).state.isOpen = true := by simpa using hopen
      have ok := (h.slotOk i).withoutPool
      have h1 := ((h.see i).editSeen (fun x => { x with pool := [] }) rfl rfl).answer .slotFull hd []
      split
      case isTrue hs =>
        have hs : (s.slot i).state = .writing := by simpa using hs
        have := (h1.editSeen (fun x => { x with fullPending := true }) rfl rfl).unseeOk
          ⟨ok.pool, ok.blocks, ok.disjoint, ok.extents, ok.item, ok.writes, ok.absent, by simp, fun _ => .inl hs, ok.closed, ok.op⟩
        exact this
      case isFalse hs =>
        have hs : (s.slot i).state ≠ .writing := by simpa using hs
        split
        · exact h1.unseeOk ok
        case isFalse hf =>
          have hw := (h.slotOk i).notWriting hs
          have hop : ∀ p, (s.slot i).op = some p → p.kind ≠ .chunk := fun p hp hk => by
            have := (ok.op p hp).1 hk
            rw [show Slot.writing { s.slot i with pool := [] } = none from hw] at this
            cases this
          have full := (h1.moveSlot .full).unseeOk (ok.toFull hw rfl hop ((h.slotOk i).detected fun e => by
            rw [e] at hopen
            cases hopen))
          exact full.migrateFrom testable_calm i none fun _ x hx => by cases hx

/-! ## Grants and block requests (R141, R146 to R148) -/

/-- A pool with a grant (R141). -/
theorem Slot.Ok.granted {x : Slot} {es : List Extent} (h : x.Ok) (hv : es.all Extent.valid = true) (ht : x.takesGrants = true)
    (hd : grantDisjoint x es = true) (hl : x.pool.length + es.length ≤ Config.maxPool) : Slot.Ok { x with pool := x.pool ++ es } := by
  have hperm : (Slot.taken { x with pool := x.pool ++ es }).Perm (es ++ x.taken) := by
    unfold Slot.taken
    dsimp only
    rw [List.append_assoc, ← List.append_assoc es]
    exact (List.perm_append_comm_assoc x.pool es _).trans (by rw [List.append_assoc])
  simp only [grantDisjoint, Bool.and_eq_true, List.all_eq_true, Bool.not_eq_true'] at hd
  obtain ⟨hself, hother⟩ := hd
  refine ⟨?_, h.blocks, ?_, fun e he => ?_, h.item, h.writes, h.absent, fun _ => ?_, h.full, h.closed, h.op⟩
  · simpa [Config.maxPool] using hl
  · rw [disjointExtents_perm hperm, disjointExtents_iff]
    exact List.pairwise_append.mpr ⟨disjointExtents_iff.mp hself, disjointExtents_iff.mp h.disjoint, fun a ha b hb => hother a ha b hb⟩
  · rcases List.mem_append.mp (hperm.mem_iff.mp he) with he | he
    · have := List.all_eq_true.mp hv e he
      simp only [Extent.valid, Bool.and_eq_true, decide_eq_true_eq] at this
      have last : e.first + e.count - 1 < 4294967296 := this.2
      omega
    · exact h.extents e he
  · simp only [Slot.takesGrants, Bool.and_eq_true, Bool.or_eq_true, beq_iff_eq, Bool.not_eq_true'] at ht
    obtain ⟨hs, hf⟩ := ht
    rcases hs with (hs | hs) | hs <;> simp [Slot.takesItems, hs, hf]

theorem Books.ownGrantExtents (h : Books calm (.holding []) o s) (hd : Header) (b c : Byte) (ops : List ExtentOps) :
    Books calm (.holding []) o (ownGrantExtents hd b c ops s) := by
  unfold Machine.ownGrantExtents
  dsimp only
  split
  · exact h.respond _ _ _ _ _ _
  case _ i _ =>
    split
    · exact h.respond _ _ _ _ _ _
    case isFalse hv =>
      split
      · exact h.respond _ _ _ _ _ _
      case isFalse ht =>
        split
        · exact h.respond _ _ _ _ _ _
        · split
          · exact h.respond _ _ _ _ _ _
          case isFalse hdis =>
            split
            · exact h.respond _ _ _ _ _ _
            case isFalse hl =>
              simp only [not_or, Bool.not_eq_true', Bool.not_eq_false] at hv ht hdis
              have granted := ((h.see i).editSeen (fun x => { x with pool := x.pool ++ ops.map readExtent }) rfl rfl).unseeOk
                ((h.slotOk i).granted hv.2.2.2 ht hdis (by omega))
              exact .either _ ((granted.answer _ _ _).tryHead i) (granted.answer _ _ _)

theorem Books.takeBlockRequest (h : Books calm (.holding []) o s) (hd : Header) (i : SlotId) (b : BlockRequest) (c : Bool) :
    Books calm (.holding []) o (takeBlockRequest hd i b c s) := by
  unfold Machine.takeBlockRequest
  split
  · exact h.respond _ _ _ _ _ _
  case isFalse hopen =>
    split
    · exact h.respond _ _ _ _ _ _
    case isFalse hl =>
      split
      · exact h.respond _ _ _ _ _ _
      case isFalse =>
        have hopen : (s.slot i).state.isOpen = true := by simpa using hopen
        have ok := h.slotOk i
        refine Books.arbitrate (((h.see i).editSeen (fun x => { x with blocks := x.blocks ++ [b] }) rfl rfl).unseeOk
          ⟨ok.pool, ?_, ok.disjoint, ok.extents, ok.item, ok.writes, ok.absent, ok.holds, ok.full, fun e => ?_,
            fun p hp => ⟨(ok.op p hp).1, fun _ => by simp⟩⟩) i
        · simp only [List.length_append, List.length_singleton]
          simp only [Config.maxBlockRequests] at hl
          omega
        · have e : (s.slot i).state.isOpen = false := e
          rw [hopen] at e
          cases e

theorem Books.ownBlockRead (h : Books calm (.holding []) o s) (hd : Header) (b : Byte) (f c : Nat) :
    Books calm (.holding []) o (ownBlockRead hd b f c s) := by
  unfold Machine.ownBlockRead
  split
  · exact h.respond _ _ _ _ _ _
  · split
    · exact h.respond _ _ _ _ _ _
    · exact h.takeBlockRequest _ _ _ _

theorem Books.ownBlockWrite (h : Books calm (.holding []) o s) (hd : Header) (b : Byte) (f c : Nat) (d : Option DataFrame) :
    Books calm (.holding []) o (ownBlockWrite hd b f c d s) := by
  unfold Machine.ownBlockWrite
  split
  · split
    · exact h.respond _ _ _ _ _ _
    · exact h.takeBlockRequest _ _ _ _
  · exact h.respond _ _ _ _ _ _

/-- A slot without an operation, with fewer block requests (R147). -/
theorem Slot.Ok.idleOp {x : Slot} {bs : List BlockRequest} (h : x.Ok) (hb : bs.length ≤ x.blocks.length)
    (hn : x.blocks = [] → bs = []) : Slot.Ok { x with op := none, blocks := bs } :=
  ⟨h.pool, hb.trans h.blocks, h.disjoint, h.extents, h.item, h.writes, h.absent, h.holds, h.full,
    fun e => ⟨hn (h.closed e).1, rfl⟩, fun p hp => by cases hp⟩

theorem Books.blockDone (h : Books calm (.holding []) o s) (i : SlotId) (bs : List Byte) :
    Books calm (.holding []) o (blockDone i bs s) := by
  unfold Machine.blockDone
  dsimp only
  split
  case _ p b rest hop hb =>
    split
    · exact h
    · split
      · exact h
      · have done := ((h.see i).editSeen (fun x => { x with op := none, blocks := rest }) rfl rfl).unseeOk
          ((h.slotOk i).idleOp (by simp [hb]) fun e => by rw [hb] at e; cases e)
        exact Books.arbitrate (.either _ (done.respond _ _ _ _ _ _) ((done.respond _ _ _ _ _ _).sent _ _)) i
  · exact h

/-! ## Chunks (R145, R152) -/

theorem Books.chunkRead (h : Books calm (.holding []) o s) (i : SlotId) : Books calm (.holding []) o (chunkRead i s) := by
  unfold Machine.chunkRead
  split
  case _ p w hr =>
    dsimp only
    have ok := h.slotOk i
    obtain ⟨hk, hw⟩ : p.kind = .chunk ∧ (s.slot i).writing = some w := by
      unfold Slot.reading at hr
      split at hr
      · split at hr
        case isTrue hc =>
          cases hr
          exact ⟨hc.1, by assumption⟩
        · cases hr
      · cases hr
    have hopen : (s.slot i).state.isOpen = true := by rw [ok.writes.mpr (by simp [hw])]; rfl
    refine (((h.see i).endAccess (.card i) _).editSeen (fun y =>
      { y with op := some { p with issued := true, timer := s.crw.stallLimit } }) rfl rfl).unseeOk ?_
    exact ok.withOp hopen { p with issued := true, timer := s.crw.stallLimit } (s.slot i).lastWasBlock (fun _ => by simp [hw])
      fun e => absurd hk e
  case _ =>
    split
    · exact h.endAccess _ _
    · exact h

/-- The writing item one chunk further, with no operation in flight (R145). -/
theorem Slot.Ok.chunkWritten {x : Slot} {w w' : WritingItem} (h : x.Ok) (hw : x.writing = some w) (hf : w'.fragments = w.fragments)
    (hi : w'.item = w.item) (hn : w'.next < w'.item.mode.itemChunks) : Slot.Ok { x with op := none, writing := some w' } := by
  have ht : Slot.taken { x with op := none, writing := some w' } = x.taken := by simp [Slot.taken, hw, hf]
  refine ⟨h.pool, h.blocks, by rw [ht]; exact h.disjoint, by rw [ht]; exact h.extents, fun v hv => ?_, ?_, h.absent, h.holds, h.full,
    fun e => ⟨(h.closed e).1, rfl⟩, fun p hp => by cases hp⟩
  · cases hv
    obtain ⟨h1, h2, h3, -⟩ := h.item w hw
    rw [hf, hi]
    exact ⟨h1, h2, h3, hi ▸ hn⟩
  · have := h.writes
    rw [hw] at this
    simpa using this

theorem Books.chunkDone (h : Books calm (.holding []) o s) (i : SlotId) : Books calm (.holding []) o (chunkDone i s) := by
  unfold Machine.chunkDone
  dsimp only
  split
  case _ p w hop hw =>
    split
    case isTrue hk =>
      have ok := h.slotOk i
      set w' : WritingItem := { w with next := w.next + 1, written := w.written + chunkLength w.item.mode w.next }
      have h1 := (h.see i).editSeen (fun y => { y with op := none, writing := some w' }) rfl (by simp [Slot.item, hw, w'])
      have idle : Slot.Ok { s.slot i with op := none } := (ok.idleOp (le_refl _) id)
      obtain ⟨hidle, hfull⟩ := idle.withoutWriting (fun p hp => by cases hp) (ok.writes.mpr (by simp [hw]))
      split
      · exact h1.finishItem testable_calm rfl hidle hfull _
      case isFalse hne =>
        split
        · exact h1.finishItem testable_calm rfl hidle hfull _
        · refine (h1.unseeOk (ok.chunkWritten hw rfl rfl ?_)).arbitrate i
          have := (ok.item w hw).2.2.2
          have hne : w.next + 1 ≠ w.item.mode.itemChunks := hne
          show w.next + 1 < w.item.mode.itemChunks
          omega
    case isFalse => exact h
  · exact h

/-! ## Faults, insertion, removal (R134, R149, R150) -/

/-- A slot with an operation in flight is open, with its card. -/
theorem Slot.Ok.opDetected {x : Slot} {p : CardOp} (h : x.Ok) (hop : x.op = some p) : x.detect = true := by
  by_contra hn
  have := h.absent.mpr (by simpa using hn)
  have := (h.closed (by rw [this]; rfl)).2
  rw [hop] at this
  cases this

theorem Books.fault (h : Books calm (.holding []) o s) (i : SlotId) {p : CardOp} (hop : (s.slot i).op = some p) :
    Books calm (.holding []) o (Machine.faultSlot i .fault s) := by
  refine (h.see i).faultSlot testable_calm (by decide) ?_
  simp [(h.slotOk i).opDetected hop]

theorem Books.cardError (h : Books calm (.holding []) o s) (i : SlotId) :
    Books calm (.holding []) o (if (s.slot i).issued then Machine.faultSlot i .fault s else s) := by
  split
  case isTrue hi =>
    cases hop : (s.slot i).op with
    | none => simp [Slot.issued, hop] at hi
    | some p => exact h.fault i hop
  case isFalse => exact h

theorem Books.cardStall (h : Books calm (.holding []) o s) (i : SlotId) :
    Books calm (.holding []) o (if (s.slot i).stalled then Machine.faultSlot i .fault s else s) := by
  split
  case isTrue hi =>
    cases hop : (s.slot i).op with
    | none => simp [Slot.stalled, hop] at hi
    | some p => exact h.fault i hop
  case isFalse => exact h

/-- What the law says of a slot that holds no card. -/
theorem Slot.Ok.shut {x : Slot} (h : x.Ok) (hs : x.state.isOpen = false) :
    x.writing = none ∧ x.pool = [] ∧ x.blocks = [] ∧ x.op = none ∧ x.fullPending = false := by
  obtain ⟨hb, ho⟩ := h.closed hs
  refine ⟨h.notWriting (fun e => by rw [e] at hs; cases hs), ?_, hb, ho, ?_⟩
  · by_contra hn
    have := h.holds hn
    cases hx : x.state <;> rw [hx] at hs <;> simp [Slot.takesItems, hx, SlotState.isOpen] at this hs
  · by_contra hn
    rcases h.full (by simpa using hn) with e | e <;> rw [e] at hs <;> cases hs

theorem Books.cardInserted (h : Books calm (.holding []) o s) (i : SlotId) :
    Books calm (.holding []) o
      (if ((s.updSlot i fun x => { x with detect := true }).slot i).state == .absent then
        Machine.moveSlot i .present (s.updSlot i fun x => { x with detect := true })
      else s.updSlot i fun x => { x with detect := true }) := by
  have ok := h.slotOk i
  have h1 := (h.see i).editSeen (fun x => { x with detect := true }) rfl rfl
  rw [State.updSlot_slot]
  split
  case isTrue hs =>
    have hs : (s.slot i).state = .absent := by simpa using hs
    obtain ⟨hw, hp, hb, ho, hf⟩ := ok.shut (by rw [hs]; rfl)
    exact (h1.moveSlot .present).unseeOk (Slot.Ok.empty hw hp hb ho hf (by decide) (by simp))
  case isFalse hs =>
    have hd := ok.detected (by simpa using hs)
    have e : ({ s.slot i with detect := true } : Slot) = s.slot i := by rw [← hd]
    exact h1.unseeOk (by rw [e]; exact ok)

theorem Books.cardRemoved (h : Books calm (.holding []) o s) (i : SlotId) : Books calm (.holding []) o (cardRemoved i s) := by
  have ok := h.slotOk i
  have h1 := (h.see i).editSeen (fun x => { x with detect := false }) rfl rfl
  unfold Machine.cardRemoved
  dsimp only
  split
  case isTrue =>
    have h2 := h1
    rw [← h1.seen] at h2
    refine h2.faultSlot testable_calm (by decide) ?_
    rw [h1.seen]
    simp
  case isFalse hopen =>
    have hopen : (s.slot i).state.isOpen = false := by
      rw [h1.seen] at hopen
      simpa using hopen
    obtain ⟨hw, hp, hb, ho, hf⟩ := ok.shut hopen
    split
    case isTrue hs =>
      rw [h1.seen] at hs
      have hs : (s.slot i).state = .absent := by simpa using hs
      have hd := ok.absent.mp hs
      have e : ({ s.slot i with detect := false } : Slot) = s.slot i := by rw [← hd]
      exact h1.unseeOk (by rw [e]; exact ok)
    case isFalse =>
      exact ((h1.moveSlot .absent).unseeOk (Slot.Ok.empty hw hp hb ho hf (by decide) (by simp))).migrateFrom testable_calm i none
        fun _ x hx => by cases hx

/-! ## Recovering requirements (R153, R154) -/

theorem Books.retryAll (ps : List (Nat × SlotId)) (h : Books calm (.holding []) o s) :
    Books calm (.holding []) o (retryAll ps s).2 := by
  induction ps generalizing s with
  | nil => exact h
  | cons p ps ih =>
    obtain ⟨n, i⟩ := p
    unfold Machine.retryAll
    split
    case _ r hr =>
      split
      case isTrue hf =>
        simp only [Bool.and_eq_true, beq_iff_eq] at hf
        have hq := hf.1
        obtain ⟨hraw, hst⟩ := (h.recordOk hr).open (i := i) (by rw [hq]; rfl)
        exact ih (h.queueItemHeld (item := { shot := n, mode := r.mode }) hr hst hraw rfl (by rw [hq]; decide) (by rw [hq]; decide))
      case isFalse => exact ih h
    · exact ih h

theorem Books.ownRetryCard (h : Books calm (.holding []) o s) (hd : Header) (n : Nat) (b : Byte) :
    Books calm (.holding []) o (ownRetryCard hd n b s) := by
  unfold Machine.ownRetryCard
  split
  · exact h.respond _ _ _ _ _ _
  case _ slots _ =>
    split
    · exact h.respond _ _ _ _ _ _
    case _ shots _ => exact (((h.retryAll (shotSlots shots slots)).answer _ _ _).tryIdle .a).tryIdle .b

theorem Books.waiveAll (ps : List (Nat × SlotId)) (h : Books calm (.holding []) o s) :
    Books calm (.holding []) o (waiveAll ps s).2 := by
  induction ps generalizing s with
  | nil => exact h
  | cons p ps ih =>
    obtain ⟨n, i⟩ := p
    unfold Machine.waiveAll
    split
    case _ r hr =>
      split
      case isTrue hq =>
        exact ih ((h.waive (i := i) hr (by simpa using hq)).testRelease n (.inl rfl))
      case isFalse => exact ih h
    · exact ih h

theorem Books.tryNewHead (h : Books calm (.holding []) o s) (i : SlotId) (x : Option CardItem) :
    Books calm (.holding []) o (tryNewHead i x s) := .either _ (h.tryHead i) h

theorem Books.ownWaiveCard (h : Books calm (.holding []) o s) (hd : Header) (n : Nat) (b : Byte) :
    Books calm (.holding []) o (ownWaiveCard hd n b s) := by
  unfold Machine.ownWaiveCard
  split
  · exact h.respond _ _ _ _ _ _
  case _ slots _ =>
    split
    · exact h.respond _ _ _ _ _ _
    case _ shots _ =>
      exact .either _ (h.respond _ _ _ _ _ _)
        ((((h.waiveAll (shotSlots shots slots)).answer _ _ _).tryNewHead .a _).tryNewHead .b _)

end

end Sys2Proof.Machine
end

section
/-! SUPPORT. The commands of the tether, the engine, the catalog, the thermal monitor and the ports over the books. -/

namespace Sys2Proof.Machine

section
variable {ph : Nat → Phase} {mv : Hands} {o : List Nat} {s t : State}

/-! ## The session and the items (R157 to R175) -/

/-- An item changed beside its shot, content, state and cut. -/
theorem Books.inertItem {i : SendItem} {f : SendItem → SendItem} (h : Books ph mv o s) (hi : i ∈ s.ttc.queue)
    (hf : ∀ i, (f i).shot = i.shot ∧ (f i).content = i.content ∧ (f i).state = i.state ∧ (f i).cut = i.cut) :
    Books ph mv o (s.updItem i.serial f) := by
  have hq : QueueOk (s.updItem i.serial f).ttc :=
    (Cascade.item s i.serial fun x => ⟨(hf x).1, (hf x).2.1, fun e => (hf x).2.2.1 ▸ e⟩).keeps_queueOk h.queue
  refine h.updItem hi (fun x => ⟨(hf x).1, (hf x).2.1⟩) hq (fun _ _ => rfl) fun r hr ok => ⟨?_, fun _ _ _ _ => id, fun _ => id⟩
  obtain ⟨-, h2, h3, h4⟩ := hf i
  have item := ok.items i (mem_view_items.mpr ⟨hi, rfl⟩)
  refine ⟨?_, fun c => item.raw (h2 ▸ c), fun c w => item.waits (h2 ▸ c) (h3 ▸ w), fun c w => item.proof (h2 ▸ c) (h3 ▸ w)⟩
  have hst := item.state
  cases hp : ph i.shot <;> rw [hp] at hst <;> simp only [Phase.itemState, SendItem.updated, h3, h4] at hst ⊢ <;> exact hst

theorem Books.ownOpenSession (h : Books calm mv o s) (hd : Header) : Books calm mv o (ownOpenSession hd s) := by
  unfold Machine.ownOpenSession
  extract_lets u v
  have hu : Books calm mv o u := (h.ttc (fun t => { t with attached := true }) rfl rfl).startSilence
  exact Books.answer (.either _ (hu.settleSending _) hu) _ _ _

theorem Books.ownCloseSession (h : Books calm mv o s) (hd : Header) : Books calm mv o (ownCloseSession hd s) :=
  Books.answer (.either _ h.detachSession h) _ _ _

theorem Books.silenceExpires (h : Books calm mv o s) : Books calm mv o (silenceExpires s) := .either _ h.detachSession h

theorem Books.tetherLinkLost (h : Books calm mv o s) : Books calm mv o (tetherLinkLost s) :=
  Books.same (.either _ h.detachSession h) (.ptc _ _)

theorem Books.ownSetRule (h : Books calm mv o s) (hd : Header) (k : Nat) (u : RuleOps) : Books calm mv o (ownSetRule hd k u s) := by
  unfold Machine.ownSetRule
  split
  · exact .either _ (h.respond _ _ _ _ _ _) ((h.ttc _ rfl rfl).answer _ _ _)
  · exact h.respond _ _ _ _ _ _

theorem Books.ownSendShot (h : Books calm mv o s) (hd : Header) (n : Nat) (c p : Byte) : Books calm mv o (ownSendShot hd n c p s) := by
  unfold Machine.ownSendShot
  split
  case _ ct pr _ _ =>
    split
    · exact h.respond _ _ _ _ _ _
    · split
      · exact h.respond _ _ _ _ _ _
      case _ i hr hi =>
        obtain ⟨hm, hs, -⟩ := itemFor_some hi
        exact (h.raiseItem rfl hm _).answer _ _ _
      case _ r hr hi =>
        have he := h.enqueueItem rfl hi pr none 1000 r.snapshot.scale
        split
        · exact h.respond _ _ _ _ _ _
        · exact h.respond _ _ _ _ _ _
        · exact h.respond _ _ _ _ _ _
        case _ hx =>
          rw [hx] at he
          exact Books.answer he _ _ _
  · exact h.respond _ _ _ _ _ _

theorem nextItem_some {i : SendItem} (h : s.nextItem = some i) : i ∈ s.ttc.queue ∧ i.state = .ready := by
  unfold State.nextItem at h
  have ready : ∀ c, s.ttc.queue.find? (fun i => i.state == .ready && i.cls == c) = some i → i ∈ s.ttc.queue ∧ i.state = .ready := by
    intro c e
    have hs := List.find?_some e
    simp only [Bool.and_eq_true, beq_iff_eq] at hs
    exact ⟨List.mem_of_find?_eq_some e, hs.1⟩
  exact (Option.or_eq_some_iff.mp h).elim (ready _) fun h => ready _ h.2

/-- A READY item is sent (R170). -/
theorem Books.sending {i : SendItem} (h : Books calm mv o s) (hi : i ∈ s.ttc.queue) (hs : i.state = .ready)
    (hn : s.sendingItem = none) (tr : Transfer) :
    Books calm mv o (s.updItem i.serial fun x => { x with state := .sending, transfer := some tr, cut := .clear }) := by
  have hq : QueueOk (s.updItem i.serial fun x => { x with state := .sending, transfer := some tr, cut := .clear }).ttc :=
    h.queue.updItem (fun _ => ⟨rfl, rfl⟩) (.inr (sendingItem_none.mp hn))
  refine h.updItem hi (fun _ => ⟨rfl, rfl⟩) hq (fun _ _ => rfl) fun r hr ok => ⟨?_, fun _ _ _ _ => id, fun _ => id⟩
  have item := ok.items i (mem_view_items.mpr ⟨hi, rfl⟩)
  obtain ⟨hst, hcut⟩ := (Phase.plain_itemState (.inl rfl)).mp item.state
  have notCut : i.cut ≠ .delete := fun e => by
    have := hcut e
    rw [hs] at this
    cases this
  rw [if_neg notCut] at hst
  exact ⟨(Phase.plain_itemState (.inl rfl)).mpr ⟨hst, fun _ => rfl⟩, item.raw, fun _ w => by simp [SendItem.updated] at w,
    fun c _ => item.proof c (by rw [hs]; decide)⟩

theorem Books.startChunk (h : Books ph mv o s) (tr : Transfer) : Books ph mv o (startChunk tr s) := (h.beginAccess _ _).sent _ _

theorem Books.ownTakeNext (h : Books calm mv o s) (hd : Header) : Books calm mv o (ownTakeNext hd s) := by
  unfold Machine.ownTakeNext
  split
  · exact h.respond _ _ _ _ _ _
  case isFalse hn =>
    have hn : s.sendingItem = none := by simpa using hn
    split
    · exact h.respond _ _ _ _ _ _
    case _ i hi =>
      obtain ⟨hm, hs⟩ := nextItem_some hi
      split
      · exact h.respond _ _ _ _ _ _
      · split
        · exact h.respond _ _ _ _ _ _
        · exact ((h.sending hm hs hn _).respond _ _ _ _ _ _).startChunk _

theorem Books.afterChunk {i : SendItem} (h : Books calm mv o s) (hi : i ∈ s.ttc.queue) (tr : Transfer) :
    Books calm mv o (afterChunk i tr s) := by
  unfold Machine.afterChunk
  extract_lets u v tr' w
  have hu : Books calm mv o u := h.same (.ptc s _)
  have hv : Books calm mv o v := (hu.endAccess _ _).startSilence
  have hiv : i ∈ v.ttc.queue := by
    show i ∈ (Machine.endAccess .tether tr.chain u).ttc.queue
    rw [endAccess_ttc]
    exact hi
  have hw : Books calm mv o w := hv.inertItem hiv fun _ => ⟨rfl, rfl, rfl, rfl⟩
  have hiw : { i with transfer := some tr' } ∈ w.ttc.queue := by
    show _ ∈ (v.updItem i.serial _).ttc.queue
    rw [updItem_queue]
    exact List.mem_map.mpr ⟨i, hiv, by simp⟩
  split
  · exact (hw.sent _ _).endDeleted hiw (.inl rfl)
  · exact (hw.sent _ _).endCanceled hiw (.inl rfl)
  · exact .either _ (Books.inertItem (i := { i with transfer := some tr' }) hw hiw fun _ => ⟨rfl, rfl, rfl, rfl⟩) (hw.startChunk _)

theorem Books.tetherChunkDone (h : Books calm mv o s) : Books calm mv o (tetherChunkDone s) := by
  unfold Machine.tetherChunkDone
  split
  · exact h
  case _ i hi =>
    obtain ⟨hm, -⟩ := sendingItem_some hi
    split
    · exact .either _ h (h.afterChunk hm _)
    · exact h

theorem Books.itemFailed {i : SendItem} (h : Books calm mv o s) (hi : i ∈ s.ttc.queue) (hs : i.state = .sending)
    (hc : i.cut = .clear) (hd : Header) : Books calm mv o (itemFailed hd i s) := by
  unfold Machine.itemFailed
  extract_lets u v w
  have hu : Books calm mv o u := h.ttc _ rfl rfl
  have hv : Books calm mv o v := .either _ (hu.returnToHead rfl hi rfl rfl rfl hs (by rw [hc]; decide)) (hu.leaveQueue hi _)
  have hw : Books calm mv o w := (hv.answer _ _ _).testRelease _ (.inl rfl)
  exact .either _ hw.suspendAutosend hw

theorem Books.itemSent {i : SendItem} (h : Books calm mv o s) (hi : i ∈ s.ttc.queue) (hd : Header) : Books calm mv o (itemSent hd i s) :=
  (((h.leaveQueue hi .sent).ttc _ rfl rfl).answer _ _ _).testRelease _ (.inl rfl)

theorem Books.ownItemResult (h : Books calm mv o s) (hd : Header) (k : Nat) (b : Byte) : Books calm mv o (ownItemResult hd k b s) := by
  unfold Machine.ownItemResult
  split
  · exact h.respond _ _ _ _ _ _
  · split
    · exact h.respond _ _ _ _ _ _
    case _ i hi =>
      obtain ⟨hm, hs⟩ := sendingItem_some hi
      split
      · exact h.respond _ _ _ _ _ _
      case isFalse hc =>
        have hc : i.cut = .clear := by
          by_contra e
          exact hc (.inr e)
        exact .either _ (h.respond _ _ _ _ _ _) (.either _ (h.itemSent hm _) (h.itemFailed hm hs hc _))

/-- A streaming item marked for its cancellation (R173). -/
theorem Books.cancelCut {i : SendItem} (h : Books calm mv o s) (hi : i ∈ s.ttc.queue) (hc : i.cut = .clear) (tag : Option Byte) :
    Books calm mv o (s.updItem i.serial fun x => { x with cut := .cancel, cancelTag := tag }) := by
  have hq : QueueOk (s.updItem i.serial fun x => { x with cut := .cancel, cancelTag := tag }).ttc :=
    (Cascade.item s i.serial (f := fun x => { x with cut := .cancel, cancelTag := tag }) fun _ => ⟨rfl, rfl, id⟩).keeps_queueOk h.queue
  refine h.updItem hi (fun _ => ⟨rfl, rfl⟩) hq (fun _ _ => rfl) fun r hr ok => ⟨?_, fun _ _ _ _ => id, fun _ => id⟩
  have item := ok.items i (mem_view_items.mpr ⟨hi, rfl⟩)
  obtain ⟨hst, -⟩ := (Phase.plain_itemState (.inl rfl)).mp item.state
  rw [if_neg (by rw [hc]; decide)] at hst
  exact ⟨(Phase.plain_itemState (.inl rfl)).mpr ⟨hst, fun e => by simp [SendItem.updated] at e⟩, item.raw, item.waits, item.proof⟩

theorem Books.ownCancelItem (h : Books calm mv o s) (hd : Header) (k : Nat) : Books calm mv o (ownCancelItem hd k s) := by
  unfold Machine.ownCancelItem
  split
  · exact h.respond _ _ _ _ _ _
  case _ i hi =>
    have hm := List.mem_of_find?_eq_some hi
    split
    · exact h.respond _ _ _ _ _ _
    case isFalse hc =>
      split
      case isTrue hs =>
        refine h.cancelCut hm ?_ _
        by_contra e
        exact hc ⟨hs.1, e⟩
      case isFalse => exact ((h.leaveQueue hm .dropped).answer _ _ _).testRelease _ (.inl rfl)

theorem Books.ownRearmAutosend (h : Books calm mv o s) (hd : Header) (b : Byte) : Books calm mv o (ownRearmAutosend hd b s) := by
  unfold Machine.ownRearmAutosend
  split
  · exact h.respond _ _ _ _ _ _
  · extract_lets u
    have hu : Books calm mv o u := (h.ttc _ rfl rfl).answer _ _ _
    exact .either _ (Books.evaluateAll _ hu) hu

/-! ## The develop engine (R107 to R116) -/

/-- A change of the engine's settings. -/
theorem Books.engine (h : Books ph mv o s) (f : Dve → Dve) (hj : (f s.dve).jobs = s.dve.jobs) (hn : (f s.dve).nextJob = s.dve.nextJob)
    (ha : (f s.dve).applied = s.dve.applied) (hp : (f s.dve).pendingThermal = s.dve.pendingThermal) : Books ph mv o (s.updDve f) :=
  h.same ⟨rfl, rfl, rfl, rfl, hj, hn, ha, hp, fun k => by cases k <;> rfl, rfl, rfl, rfl, rfl⟩

theorem Books.ownSetDevelop (h : Books ph mv o s) (hd : Header) (ops : SettingsOps) : Books ph mv o (ownSetDevelop hd ops s) := by
  unfold Machine.ownSetDevelop
  split
  · exact h.respond _ _ _ _ _ _
  · exact (h.engine _ rfl rfl rfl rfl).answer _ _ _

theorem Books.ownLoadTone (h : Books ph mv o s) (hd : Header) (t f c : Nat) (es : List Byte) :
    Books ph mv o (ownLoadTone hd t f c es s) :=
  .either _ (h.respond _ _ _ _ _ _) (.either _ (h.respond _ _ _ _ _ _) (.either _ (h.respond _ _ _ _ _ _)
    ((h.engine _ rfl rfl rfl rfl).answer _ _ _)))

theorem Books.ownDevelop (h : Books calm mv o s) (hd : Header) (ops : DevelopOps) : Books calm mv o (ownDevelop hd ops s) := by
  unfold Machine.ownDevelop
  split
  · dsimp only
    split
    · exact h.respond _ _ _ _ _ _
    case _ r hr =>
      split
      · exact h.respond _ _ _ _ _ _
      case isFalse hst =>
        have hst : r.state = .stored ∧ r.raw ≠ none := by simpa using hst
        split
        · exact h.respond _ _ _ _ _ _
        case _ j _ hj =>
          obtain ⟨hm, -⟩ := job_mem hj
          split
          · exact h.respond _ _ _ _ _ _
          case isFalse hs =>
            have hs : j.state = .queued ∨ j.state = .waitSlabs := by
              cases e : j.state <;> simp [e] at hs ⊢
            refine .either _ (h.respond _ _ _ _ _ _) ?_
            have ha := h.answer .develop hd (developBody j.number false (j.cls.higher ‹Priority›))
            exact ha.shuffle (mergeDevelop_shuffle _ _ _ ha.jobs hm hs)
        case _ hj =>
          split
          · exact h.respond _ _ _ _ _ _
          · split
            · exact h.respond _ _ _ _ _ _
            case isFalse hl =>
              have := (h.answer .develop hd (developBody s.newJobNumber true ‹Priority›)).createJob (.inl rfl) hr hst.1 hst.2 (by
                show s.dve.jobs.length < _
                omega) hj ‹_› ‹_› (developOrigin hd.port)
              rwa [show Phase.at calm ops.shot.toNat .calm = calm from Phase.at_self calm _] at this
  · exact h.respond _ _ _ _ _ _

/-- A thermal state applied while no job is RUNNING (R116, R119). -/
theorem applyThermal_shuffle (h : JobsOk s.dve) (hr : ∀ j ∈ s.dve.jobs, j.state ≠ .running) (th : Thermal) :
    Shuffle s (applyThermal th s) := by
  set c : Job → Bool := fun j => th == .hot || (th == .warm && j.cls == .normal) with hc
  have settled : Shuffle s (requeueWaiting c (s.updDve fun d => { d with applied := th })) := by
    unfold requeueWaiting
    split
    case _ j hcur =>
      have hcur : s.currentJob = some j := hcur
      obtain ⟨hj, hjc⟩ := currentJob_some hcur
      have hw : j.state = .waitSlabs := (isCurrent_iff.mp hjc).resolve_left (hr j hj)
      have only : ∀ x ∈ s.dve.jobs, x.isCurrent = true → x = j := fun x hx hxc => h.unique hx hj (h.oneCurrent x hx j hj hxc hjc)
      split
      case isTrue hcond =>
        have ok := h.each j hj
        have hnp := ok.no_progress (.inr hw)
        have queued : JobsOk (s.updJob j.shot fun x => { x with state := .queued }).dve := by
          refine h.updJob hj ⟨ok.number, ?_, ?_, ?_, ok.stripes⟩ ?_ ?_ fun e => absurd e (hr j hj)
          · simp [Job.updated, hnp]
          · simp [Job.updated, ok.not_cancelled (hr j hj)]
          · simp [Job.updated, Job.isCurrent]
          · simp [Job.updated, Job.isCurrent]
          · simp [Job.updated, Job.engaged, Job.isCurrent]
        have sh := Shuffle.updJob h hj (f := fun x => { x with state := .queued }) rfl rfl queued
        have none : ∀ x ∈ (s.updJob j.shot fun x => { x with state := .queued }).dve.jobs, x.isCurrent = true → th.allows x.cls := by
          intro x hx hxc
          rcases mem_updJob hx with ⟨hx, hne⟩ | ⟨y, -, -, rfl⟩
          · exact absurd (congrArg Job.shot (only x hx hxc)) hne
          · simp [Job.updated, Job.isCurrent] at hxc
        exact sh.trans (Shuffle.dve (fun d => { d with applied := th }) rfl (queued.applied none))
      case isFalse hcond =>
        have hcond : c j = false := by simpa [hw] using hcond
        refine Shuffle.dve _ rfl (h.applied fun x hx hxc => ?_)
        rw [only x hx hxc]
        simp only [hc, Bool.or_eq_false_iff, Bool.and_eq_false_iff, beq_eq_false_iff_ne] at hcond
        refine ⟨hcond.1, fun e => ?_⟩
        have hcls : j.cls ≠ .normal := hcond.2.resolve_left fun h => h e
        cases hk : j.cls with
        | urgent => rfl
        | normal => exact absurd hk hcls
    case _ hcur =>
      refine Shuffle.dve _ rfl (h.applied fun x hx hxc => ?_)
      rw [currentJob_none.mp hcur x hx] at hxc
      cases hxc
  exact settled.trans (pick_shuffle settled.jobs)

theorem Books.handThermalToDve (h : Books ph mv o s) (th : Thermal) : Books ph mv o (handThermalToDve th s) := by
  unfold Machine.handThermalToDve
  split
  case isTrue hr =>
    have hr : ∃ j ∈ s.dve.jobs, j.state = .running := by simpa using hr
    exact h.shuffle (Shuffle.dve _ rfl (h.jobs.pendingSome th hr))
  case isFalse hr =>
    have hr : ∀ j ∈ s.dve.jobs, j.state ≠ .running := by simpa using hr
    exact h.shuffle (applyThermal_shuffle h.jobs hr th)

theorem Books.sampleTaken (h : Books calm mv o s) (d k : Reading) : Books calm mv o (sampleTaken d k s) := by
  unfold Machine.sampleTaken
  extract_lets p u
  have hu : Books calm mv o u := h.same (.thm s _)
  exact .either _ hu (((hu.handThermalToSiu _).handThermalToDve _).offerClass _ _)

/-! ## The catalog's requests (R50 to R67) -/

theorem Books.ownDelete (h : Books calm (.holding []) o s) (hd : Header) (n : Nat) : Books calm (.holding []) o (ownDelete hd n s) := by
  unfold Machine.ownDelete
  split
  · exact h.respond _ _ _ _ _ _
  case _ r hr =>
    split
    · exact h.respond _ _ _ _ _ _
    · exact h.respond _ _ _ _ _ _
    · exact .either _ (h.respond _ _ _ _ _ _) ((h.discardMember _).answer _ _ _)
    · exact .either _ (h.respond _ _ _ _ _ _) (h.beginDeleting hr _)

theorem Books.ownSetTags (h : Books calm mv o s) (hd : Header) (n : Nat) (a b : BitVec 16) (c : Byte) :
    Books calm mv o (ownSetTags hd n a b c s) := by
  unfold Machine.ownSetTags
  split
  · exact h.respond _ _ _ _ _ _
  · split
    · exact h.respond _ _ _ _ _ _
    · extract_lets u v
      have hv : Books calm mv o v := by
        refine Books.answer ?_ _ _ _
        exact h.inert fun _ => rfl
      exact .either _ (hv.evaluateRules rfl) hv

theorem Books.ownProtect (h : Books calm mv o s) (hd : Header) (n : Nat) (a : Byte) : Books calm mv o (ownProtect hd n a s) := by
  unfold Machine.ownProtect
  split
  · exact h.respond _ _ _ _ _ _
  · split
    · exact h.respond _ _ _ _ _ _
    · refine .either _ (h.respond _ _ _ _ _ _) (Books.answer ?_ _ _ _)
      exact h.inert fun _ => rfl

theorem Books.ownHold (h : Books calm mv o s) (hd : Header) (n : Nat) : Books calm mv o (ownHold hd n s) := by
  unfold Machine.ownHold
  split
  · exact h.respond _ _ _ _ _ _
  case _ r hr =>
    split
    · exact h.respond _ _ _ _ _ _
    case isFalse hst =>
      split
      · exact h.respond _ _ _ _ _ _
      case isFalse hh => exact (h.hold hr (by simpa using hst) (by simpa using hh)).answer _ _ _

theorem Books.ownUnhold (h : Books calm mv o s) (hd : Header) (n : Nat) : Books calm mv o (ownUnhold hd n s) := by
  unfold Machine.ownUnhold
  split
  · exact h.respond _ _ _ _ _ _
  case _ r hr =>
    split
    case isTrue hh => exact (((h.unhold hr hh).cutRead _).answer _ _ _).testRelease _ (.inl rfl)
    case isFalse => exact h.respond _ _ _ _ _ _

theorem Books.sendReadFrame (h : Books ph mv o s) (x : ReadStream) : Books ph mv o (sendReadFrame x s) :=
  Books.sent (Books.same (h.beginAccess .readStream x.chain) (.ptc _ fun p => { p with read := some x })) .body
    (.frame x.tag x.next (readChain s.dram x.chain (x.next * Config.framePayload) (framePayloadLen x.total x.next)) false)

theorem Books.ownRead (h : Books ph mv o s) (q : Request) (c : Content) (hd : Header) (n : Nat) : Books ph mv o (ownRead q c hd n s) := by
  unfold Machine.ownRead
  split
  · exact h.respond _ _ _ _ _ _
  · split
    · exact h.respond _ _ _ _ _ _
    · split
      · exact h.respond _ _ _ _ _ _
      · split
        · exact h.respond _ _ _ _ _ _
        · exact (h.respond _ _ _ _ _ _).sendReadFrame _

theorem Books.endRead (h : Books calm mv o s) (n : Nat) : Books calm mv o (endRead n s) :=
  (h.same (.ptc s _)).testRelease _ (.inl rfl)

theorem Books.readFrameDone (h : Books calm mv o s) : Books calm mv o (readFrameDone s) := by
  unfold Machine.readFrameDone
  split
  · exact h
  · extract_lets u v
    have hv : Books calm mv o v := (h.same (.ptc s _)).endAccess _ _
    exact .either _ ((hv.sent _ _).endRead _) (.either _ (hv.endRead _) (hv.sendReadFrame _))

theorem Books.ownShotInfo (h : Books ph mv o s) (hd : Header) (n : Nat) : Books ph mv o (ownShotInfo hd n s) := by
  unfold Machine.ownShotInfo
  split
  · exact h.respond _ _ _ _ _ _
  · exact h.answer _ _ _

/-! ## The ports (R190 to R196, R201, R202) -/

theorem Books.offerAll (ns : List Notice) (h : Books ph mv o s) : Books ph mv o (offerAll ns s) := by
  induction ns generalizing s with
  | nil => exact h
  | cons n ns ih => exact ih (h.offer _ _)

theorem Books.ownNoticeClasses (h : Books ph mv o s) (hd : Header) (a b c d : Byte) : Books ph mv o (ownNoticeClasses hd a b c d s) := by
  unfold Machine.ownNoticeClasses
  split
  · exact Books.offerAll _ ((h.same (.ptc s _)).answer _ _ _)
  · exact h.respond _ _ _ _ _ _

theorem Books.announceSlabs (h : Books ph mv o s) : Books ph mv o (announceSlabs s) := h.shuffle (announceSlabs_shuffle h.jobs)

theorem Books.takeReserve (h : Books ph mv o s) (v : Nat) : Books ph mv o (takeReserve v s) := by
  have hu : Books ph mv o (s.updFsc fun f => { f with reserve := v }) := h.fsc _ rfl rfl fun _ => rfl
  exact .either _ hu.announceSlabs hu

theorem Books.takeThreshold (h : Books ph mv o s) (v : Nat) : Books ph mv o (takeThreshold v s) := by
  have hu : Books ph mv o (s.updTtc fun t => { t with threshold := v, errors := min t.errors v }) := h.ttc _ rfl rfl
  exact .either _ hu.suspendAutosend hu

theorem Books.takeParams (h : Books ph mv o s) (p : Params) : Books ph mv o (takeParams p s) := by
  unfold Machine.takeParams
  extract_lets u v w x
  have hu : Books ph mv o u := h.takeReserve _
  have hv : Books ph mv o v := hu.same ⟨rfl, rfl, rfl, rfl, rfl, rfl, rfl, rfl, fun k => by cases k <;> rfl, rfl, rfl, rfl, rfl⟩
  have hw : Books ph mv o w := hv.same ⟨rfl, rfl, rfl, rfl, rfl, rfl, rfl, rfl, fun k => by cases k <;> rfl, rfl, rfl, rfl, rfl⟩
  have hx : Books ph mv o x := hw.ttc _ rfl rfl
  exact (hx.same (.siu _ _)).takeThreshold _

theorem Books.ownSetParams (h : Books ph mv o s) (hd : Header) (ops : ParamsOps) : Books ph mv o (ownSetParams hd ops s) := by
  unfold Machine.ownSetParams
  split
  · exact h.respond _ _ _ _ _ _
  · exact (h.takeParams _).answer _ _ _

theorem Books.lastAccessDone (h : Books ph mv o s) (c : List Nat) : Books ph mv o (lastAccessDone c s) := by
  refine .either _ (Books.settleReleases (h.fsc (o' := o) _ rfl rfl fun _ => rfl) (List.Subperm.refl _)) h

theorem Slot.Ok.tick {x : Slot} (h : x.Ok) : x.tick.Ok := by
  have kind : ∀ p, x.tick.op = some p → ∃ q, x.op = some q ∧ p.kind = q.kind := by
    intro p hp
    obtain ⟨q, hq, rfl⟩ := Option.map_eq_some_iff.mp hp
    refine ⟨q, hq, ?_⟩
    unfold CardOp.tick
    split <;> rfl
  refine ⟨h.pool, h.blocks, h.disjoint, h.extents, h.item, h.writes, h.absent, h.holds, h.full, fun e => ⟨(h.closed e).1, ?_⟩,
    fun p hp => ?_⟩
  · simp [Slot.tick, (h.closed e).2]
  · obtain ⟨q, hq, e⟩ := kind p hp
    rw [e]
    exact h.op q hq

/-- A millisecond keeps the books (R201). -/
theorem Books.tick (h : Books ph (.holding []) o s) : Books ph (.holding []) o (tick s) := by
  refine ⟨h.catalog, h.queue.of_sublist (List.Sublist.refl _) rfl, h.jobs, h.store.of_count rfl rfl fun _ => rfl, fun k => ?_,
    fun n => ?_⟩
  · refine Slot.law_iff.mpr ?_
    cases k
    · exact (h.slotOk .a).tick
    · exact (h.slotOk .b).tick
  · rw [view_congr (s := s) (t := Machine.tick s) rfl rfl rfl (fun k => by cases k <;> exact ⟨rfl, rfl⟩)]
    exact h.shots n

theorem Slot.Ok.reset (d : Bool) : (Slot.reset d).Ok := by
  cases d <;> exact Slot.Ok.empty (x := Slot.reset _) rfl rfl rfl rfl rfl (by decide) (by decide)

/-- Nothing is left of any shot at reset. -/
theorem resetPart_view (s : State) (n : Nat) : ShotOk .calm ((resetPart s).view (.holding []) n) := by
  refine ⟨fun r hr => ?_, fun _ => ⟨rfl, rfl, fun k => by cases k <;> rfl, fun k => by cases k <;> rfl⟩⟩
  have hr : none = some r := hr
  cases hr

/-- The reset line closes the books (R202). -/
theorem books_resetPart (s : State) : Books calm (.holding []) [] (resetPart s) := by
  refine ⟨⟨List.Pairwise.nil, ?_, ?_, le_refl 1, ?_⟩, ?_, ?_, ⟨fun a => rfl, fun _ => rfl⟩, fun k => ?_, resetPart_view s⟩
  · simp [resetPart, State.reset, Cat.reset]
  · simp [resetPart, State.reset, Cat.reset]
  · simp [resetPart, State.reset, Cat.reset]
  · refine ⟨?_, ?_, ?_, ?_, ?_, ?_⟩ <;> simp [resetPart, State.reset, Ttc.reset]
  · refine ⟨?_, ?_, ?_, ?_, ?_, ?_, ?_, ?_⟩ <;> simp [resetPart, State.reset, Dve.reset]
  · refine Slot.law_iff.mpr ?_
    cases k
    · exact Slot.Ok.reset _
    · exact Slot.Ok.reset _

end

end Sys2Proof.Machine
end

section
/-! SUPPORT. The books law is the books shot by shot: each part of the law in terms of the views, and back. -/

namespace Sys2Proof.Machine

/-! ## What the views say in terms of the state -/

theorem view_naming (s : State) (mv : Hands) (n : Nat) (c : Content) : (s.view mv n).naming c = s.naming n c := by
  show (s.ttc.queue.filter fun i => i.shot == n).countP (fun i => i.content == c) = _
  rw [List.countP_filter, List.countP_eq_length_filter, State.naming]
  simp only [Bool.and_comm]

theorem view_job_some {s : State} {mv : Hands} {n : Nat} : (s.view mv n).job ≠ none ↔ ∃ j ∈ s.dve.jobs, j.shot = n := by
  rw [view_job, ne_eq, Option.map_eq_none_iff, job_none]
  push Not
  rfl

/-- With nothing in motion, a view's card items are those in the slot's queue. -/
theorem view_cards_calm (s : State) (n : Nat) (k : SlotId) :
    (s.view (.holding []) n).cards k = (s.slot k).queue.filter fun x => x.shot == n := by cases k <;> rfl

theorem mem_view_cards {s : State} {n : Nat} {k : SlotId} {x : CardItem} :
    x ∈ (s.view (.holding []) n).cards k ↔ x ∈ (s.slot k).queue ∧ x.shot = n := by simp [view_cards_calm]

theorem view_cards_some {s : State} {n : Nat} {k : SlotId} :
    (s.view (.holding []) n).cards k ≠ [] ↔ ∃ x ∈ (s.slot k).queue, x.shot = n := by
  simp [view_cards_calm, List.filter_eq_nil_iff]

theorem view_writing_eq {s : State} {mv : Hands} {n : Nat} {k : SlotId} {x : CardItem} :
    (s.view mv n).writing k = some x ↔ x ∈ ((s.slot k).writing.map WritingItem.item).toList ∧ x.shot = n := by
  simp [State.view, Slot.item, Option.filter_eq_some_iff]

theorem view_writing_some {s : State} {mv : Hands} {n : Nat} {k : SlotId} :
    (s.view mv n).writing k ≠ none ↔ ∃ w ∈ (s.slot k).writing, w.item.shot = n := by
  cases h : (s.slot k).writing <;> simp [State.view, Slot.item, h]

/-! ## From the law to the books -/

section
variable {s : State}

/-- A referring shot's record, where the catalog has a record of that shot. -/
theorem catalogLaw.record_unique (h : catalogLaw s) {n : Nat} {r x : Record} (hr : s.record n = some r) (hx : x ∈ s.cat.records)
    (hs : x.shot = n) : x = r := by
  have := h.record_eq hx
  rw [hs, hr] at this
  exact (Option.some.inj this).symm

theorem booksLaw.recordOk (h : booksLaw s) {n : Nat} {r : Record} (hr : s.record n = some r) :
    RecordOk .calm (s.view (.holding []) n) r := by
  obtain ⟨hcat, hsend, hdev, -, -, ⟨hjobs, hitems, hcards⟩, hrecs⟩ := h
  obtain ⟨hm, rfl⟩ := record_mem hr
  obtain ⟨hraw, hproof, hsettled, hunstored, hstored, hfigures, hreqs⟩ := hrecs r hm
  have card : ∀ k, ∀ x ∈ (s.slot k).queue ++ ((s.slot k).writing.map WritingItem.item).toList, x.shot = r.shot →
      x.mode = r.mode ∧ r.raw ≠ none := by
    intro k x hx hs
    obtain ⟨y, hy, ys, ym, yr⟩ := (hcards k).2.2 x hx
    obtain rfl := hcat.record_unique hr hy (ys.trans hs)
    exact ⟨ym.symm, yr⟩
  refine ⟨?_, ?_, hsettled, hunstored, fun hs => ?_, fun hs => (hstored hs).2, hfigures, fun k => ?_, fun k => ?_, fun k => ?_,
    fun k x hx => ?_, fun k x hx => ?_, fun k hk => ?_, fun i hi => ?_⟩
  · rw [view_naming]; exact hraw
  · rw [view_naming]; exact hproof
  · rw [view_job_some]; exact (hstored hs).1
  · rw [view_cards_some]; exact (hreqs k).1
  · rw [view_writing_some]; exact (hreqs k).2
  · rw [view_cards_calm, ← List.countP_eq_length_filter]
    have one := List.nodup_iff_count_le_one.mp (hcards k).2.1 r.shot
    rw [List.count, List.countP_map] at one
    exact one
  · obtain ⟨hx, hs⟩ := mem_view_cards.mp hx
    exact card k x (List.mem_append_left _ hx) hs
  · obtain ⟨hx, hs⟩ := view_writing_eq.mp hx
    exact card k x (List.mem_append_right _ hx) hs
  · rw [view_job] at hk
    obtain ⟨j, hj, rfl⟩ := Option.map_eq_some_iff.mp hk
    obtain ⟨hjm, hjs⟩ := job_mem hj
    obtain ⟨y, hy, ys, ym, yr, yst⟩ := hjobs j hjm
    obtain rfl := hcat.record_unique hr hy (ys.trans hjs)
    exact ⟨ym, yr, yst⟩
  · obtain ⟨him, his⟩ := mem_view_items.mp hi
    obtain ⟨y, hy, ys, yst, ycut, yraw, yproof⟩ := hitems i him
    obtain rfl := hcat.record_unique hr hy (ys.trans his)
    exact ⟨⟨yst, ycut⟩, yraw, fun c w => show y.proofState = .pending by simpa [w] using yproof c,
      fun c w => by simpa [w] using yproof c⟩

theorem booksLaw.empty (h : booksLaw s) {n : Nat} (hr : s.record n = none) : (s.view (.holding []) n).Empty := by
  obtain ⟨-, -, -, -, -, ⟨hjobs, hitems, hcards⟩, -⟩ := h
  have absent := record_none.mp hr
  refine ⟨List.eq_nil_iff_forall_not_mem.mpr fun i hi => ?_, ?_, fun k => List.eq_nil_iff_forall_not_mem.mpr fun x hx => ?_,
    fun k => Option.eq_none_iff_forall_ne_some.mpr fun x hx => ?_⟩
  · obtain ⟨him, his⟩ := mem_view_items.mp hi
    obtain ⟨y, hy, ys, -⟩ := hitems i him
    exact absent y hy (ys.trans his)
  · by_contra hj
    obtain ⟨j, hjm, hjs⟩ := view_job_some.mp hj
    obtain ⟨y, hy, ys, -⟩ := hjobs j hjm
    exact absent y hy (ys.trans hjs)
  · obtain ⟨hx, hs⟩ := mem_view_cards.mp hx
    obtain ⟨y, hy, ys, -⟩ := (hcards k).2.2 x (List.mem_append_left _ hx)
    exact absent y hy (ys.trans hs)
  · obtain ⟨hx, hs⟩ := view_writing_eq.mp hx
    obtain ⟨y, hy, ys, -⟩ := (hcards k).2.2 x (List.mem_append_right _ hx)
    exact absent y hy (ys.trans hs)

theorem booksLaw.books (h : booksLaw s) : Books calm (.holding []) [] s := by
  have h' := h
  obtain ⟨hcat, hsend, hdev, ⟨ha, hb⟩, hstore, -, -⟩ := h'
  refine ⟨hcat, ((sendLaw_iff s).mp hsend).1, (developLaw_iff s).mp hdev, (storeLaw_iff s).mp hstore, fun k => ?_,
    fun n => ⟨fun r hr => h.recordOk hr, fun hr => h.empty hr⟩⟩
  cases k
  · exact ha
  · exact hb

/-! ## From the books to the law -/

/-- What refers to a shot finds its record. -/
theorem Books.record_of_view {ph : Nat → Phase} {mv : Hands} {o : List Nat} (h : Books ph mv o s) {n : Nat}
    (hv : ¬ (s.view mv n).Empty) : ∃ r ∈ s.cat.records, r.shot = n ∧ RecordOk (ph n) (s.view mv n) r := by
  cases hr : s.record n with
  | none => exact absurd ((h.shots n).none hr) hv
  | some r =>
    obtain ⟨hm, hs⟩ := record_mem hr
    exact ⟨r, hm, hs, (h.shots n).some r hr⟩

theorem Books.cardRecord (h : Books calm (.holding []) [] s) {k : SlotId} {x : CardItem}
    (hx : x ∈ (s.slot k).queue ++ ((s.slot k).writing.map WritingItem.item).toList) :
    ∃ r ∈ s.cat.records, r.shot = x.shot ∧ r.mode = x.mode ∧ r.raw ≠ none := by
  rcases List.mem_append.mp hx with hx | hx
  · have hv := mem_view_cards.mpr ⟨hx, rfl⟩
    obtain ⟨r, hm, hs, ok⟩ := h.record_of_view fun e => by rw [e.cards k] at hv; cases hv
    obtain ⟨hmode, hraw⟩ := ok.cards k x hv
    exact ⟨r, hm, hs, hmode.symm, hraw⟩
  · have hv : (s.view (.holding []) x.shot).writing k = some x := view_writing_eq.mpr ⟨hx, rfl⟩
    obtain ⟨r, hm, hs, ok⟩ := h.record_of_view fun e => by rw [e.writing k] at hv; cases hv
    obtain ⟨hmode, hraw⟩ := ok.writing k x hv
    exact ⟨r, hm, hs, hmode.symm, hraw⟩

theorem Books.cardShots_nodup (h : Books calm (.holding []) [] s) (k : SlotId) : ((s.slot k).queue.map CardItem.shot).Nodup := by
  refine List.nodup_iff_count_le_one.mpr fun n => ?_
  rw [List.count, List.countP_map, List.countP_eq_length_filter]
  show ((s.slot k).queue.filter fun x => x.shot == n).length ≤ 1
  rw [← view_cards_calm]
  by_cases hv : (s.view (.holding []) n).Empty
  · rw [hv.cards k]; simp
  · obtain ⟨r, -, -, ok⟩ := h.record_of_view hv
    exact ok.oneCard k

theorem Books.referenceLaw (h : Books calm (.holding []) [] s) : referenceLaw s := by
  refine ⟨fun j hj => ?_, fun i hi => ?_, fun k => ⟨?_, h.cardShots_nodup k, fun x hx => h.cardRecord hx⟩⟩
  · have hv : (s.view (.holding []) j.shot).job = some j.key := by rw [view_job, h.jobs.job_eq hj]; rfl
    obtain ⟨r, hm, hs, ok⟩ := h.record_of_view fun e => by rw [e.job] at hv; cases hv
    obtain ⟨hmode, hraw, hstate⟩ := ok.job _ hv
    exact ⟨r, hm, hs, hmode, hraw, hstate⟩
  · have hv : i ∈ (s.view (.holding []) i.shot).items := mem_view_items.mpr ⟨hi, rfl⟩
    obtain ⟨r, hm, hs, ok⟩ := h.record_of_view fun e => by rw [e.items] at hv; cases hv
    have item := ok.items i hv
    obtain ⟨hstate, hcut⟩ := item.state
    refine ⟨r, hm, hs, hstate, hcut, item.raw, fun c => ?_⟩
    split
    case isTrue w => exact item.waits c w
    case isFalse w => exact item.proof c w
  · have sub : (s.slot k).queue.map CardItem.shot ⊆ s.cat.records.map Record.shot := by
      intro n hn
      obtain ⟨x, hx, rfl⟩ := List.mem_map.mp hn
      obtain ⟨r, hm, hs, -⟩ := h.cardRecord (List.mem_append_left _ hx)
      exact List.mem_map.mpr ⟨r, hm, hs⟩
    have := ((h.cardShots_nodup k).subperm sub).length_le
    rw [List.length_map, List.length_map] at this
    exact this.trans h.catalog.2.2.1

theorem Books.recordLaw (h : Books calm (.holding []) [] s) {r : Record} (hr : r ∈ s.cat.records) : recordLaw s r := by
  have ok := (h.shots r.shot).some r (h.catalog.record_eq hr)
  refine ⟨?_, ?_, ok.settled, ok.unstored, fun hs => ⟨?_, ok.done hs⟩, ok.figures, fun k => ⟨?_, ?_⟩⟩
  · rw [← view_naming s (.holding [])]; exact ok.rawPins
  · rw [← view_naming s (.holding [])]; exact ok.proofPins
  · rw [← view_job_some (mv := .holding [])]; exact ok.pending hs
  · rw [← view_cards_some]; exact ok.queued k
  · rw [← view_writing_some (mv := .holding [])]; exact ok.writes k

/-- The books law, shot by shot. -/
theorem booksLaw_iff : booksLaw s ↔ Books calm (.holding []) [] s ∧ sendLaw s :=
  ⟨fun h => ⟨h.books, h.2.1⟩, fun ⟨h, hs⟩ => ⟨h.catalog, hs, (developLaw_iff s).mpr h.jobs, ⟨h.slots .a, h.slots .b⟩,
    (storeLaw_iff s).mpr h.store, h.referenceLaw, fun _ hr => h.recordLaw hr⟩⟩

end

end Sys2Proof.Machine
end

section
/-! SUPPORT. Every command keeps the books: each request through the gate to its owner, each event; and the step. -/

namespace Sys2Proof.Machine

section
variable {ph : Nat → Phase} {mv : Hands} {o : List Nat} {s t : State}

/-! ## Requests that touch nothing of the books -/

theorem Books.fe (h : Books ph mv o s) (f : Fe → Fe) : Books ph mv o (s.updFe f) := h.same (.fe s f)

theorem Books.ownBurstEnd (h : Books ph mv o s) (hd : Header) : Books ph mv o (ownBurstEnd hd s) :=
  (Books.either _ h.endBurst h).answer _ _ _

theorem Books.ownFetchNotices (h : Books ph mv o s) (hd : Header) (n : Nat) : Books ph mv o (ownFetchNotices hd n s) :=
  (h.same (.ptc s _)).answer _ _ _

theorem Books.ownSetZones (h : Books ph mv o s) (hd : Header) (zs : List ZoneOps) : Books ph mv o (ownSetZones hd zs s) := by
  unfold Machine.ownSetZones
  split
  · exact .either _ ((h.fe _).answer _ _ _) (h.respond _ _ _ _ _ _)
  · exact h.respond _ _ _ _ _ _

theorem Books.ownSetFocus (h : Books ph mv o s) (hd : Header) (ops : FocusOps) : Books ph mv o (ownSetFocus hd ops s) := by
  unfold Machine.ownSetFocus
  split
  · exact (h.fe _).answer _ _ _
  · exact h.respond _ _ _ _ _ _

theorem Books.ownLensState (h : Books ph mv o s) (hd : Header) (ops : LensOps) : Books ph mv o (ownLensState hd ops s) := by
  unfold Machine.ownLensState
  split
  · exact h.respond _ _ _ _ _ _
  · exact .either _ (h.respond _ _ _ _ _ _) ((h.fe _).answer _ _ _)

theorem Books.ownWatch (h : Books ph mv o s) (hd : Header) (m : Byte) : Books ph mv o (ownWatch hd m s) := by
  unfold Machine.ownWatch
  split
  · exact h.respond _ _ _ _ _ _
  · exact .either _ (h.respond _ _ _ _ _ _) ((h.fe _).answer _ _ _)

theorem Books.ownUnwatch (h : Books ph mv o s) (hd : Header) : Books ph mv o (ownUnwatch hd s) := (h.fe _).answer _ _ _

/-! ## The gate -/

/-- Every owner keeps the books. -/
theorem Books.ownerAct (h : Books calm (.holding []) [] s) (c : Instr) : Books calm (.holding []) [] (ownerAct c s) := by
  cases c with
  | blockRead hd slot first count => exact h.ownBlockRead _ _ _ _
  | blockWrite hd slot first count frame => exact h.ownBlockWrite _ _ _ _ _
  | burstBegin hd divisor maximum focus => exact h.ownBurstBegin _ _ _ _
  | burstEnd hd => exact h.ownBurstEnd _
  | cancelItem hd serial => exact h.ownCancelItem _ _
  | closeSession hd => exact h.ownCloseSession _
  | closeSlot hd slot => exact h.ownCloseSlot _ _
  | configureStore hd slabs mode => exact h.ownConfigureStore _ _ _
  | delete hd shot => exact h.ownDelete _ _
  | develop hd ops => exact h.ownDevelop _ _
  | fetchNotices hd maximum => exact h.ownFetchNotices _ _
  | getStatus hd => exact h.answer _ _ _
  | getZoneMap hd => exact h.answer _ _ _
  | grantExtents hd slot count extents => exact h.ownGrantExtents _ _ _ _
  | hold hd shot => exact h.ownHold _ _
  | identify hd => exact h.answer _ _ _
  | itemResult hd serial outcome => exact h.ownItemResult _ _ _
  | lensState hd ops => exact h.ownLensState _ _
  | listShots hd first maximum => exact h.answer _ _ _
  | loadTone hd table first count entries => exact h.ownLoadTone _ _ _ _ _
  | noticeClasses hd thermal shortage slotState autosend => exact h.ownNoticeClasses _ _ _ _ _
  | openSession hd => exact h.ownOpenSession _
  | openSlot hd slot => exact h.ownOpenSlot _ _
  | precapture hd action depth divisor => exact h.ownPrecapture _ _ _ _
  | protect hd shot action => exact h.ownProtect _ _ _
  | readProof hd shot => exact h.ownRead _ _ _ _
  | readRaw hd shot => exact h.ownRead _ _ _ _
  | rearmAutosend hd backfill => exact h.ownRearmAutosend _ _
  | retryCard hd shot slot => exact h.ownRetryCard _ _ _
  | sendShot hd shot content cls => exact h.ownSendShot _ _ _ _
  | setDevelop hd ops => exact h.ownSetDevelop _ _
  | setFocus hd ops => exact h.ownSetFocus _ _
  | setParams hd ops => exact h.ownSetParams _ _
  | setRule hd index ops => exact h.ownSetRule _ _ _
  | setTags hd shot setMask clearMask rating => exact h.ownSetTags _ _ _ _ _
  | setZones hd entries => exact h.ownSetZones _ _
  | shoot hd focus => exact h.ownShoot _ _
  | shotInfo hd shot => exact h.ownShotInfo _ _
  | slotFull hd slot => exact h.ownSlotFull _ _
  | takeNext hd => exact h.ownTakeNext _
  | unhold hd shot => exact h.ownUnhold _ _
  | unwatch hd => exact h.ownUnwatch _
  | waiveCard hd shot slot => exact h.ownWaiveCard _ _ _
  | watch hd mode => exact h.ownWatch _ _
  | _ => exact h

/-- The gate keeps the books where the owner does (R188). -/
theorem Books.takeRequest {r : Request} {hd : Header} {fits : Bool} {owner : State → State} (h : Books ph mv o s)
    (ho : ∀ t, Books ph mv o t → Books ph mv o (owner t)) : Books ph mv o (takeRequest r hd fits owner s) :=
  .either _ (h.respond _ _ _ _ _ _) (.either _ (h.respond _ _ _ _ _ _)
    (.either _ (.either _ (ho _ h.startSilence) (.either _ (ho _ h) (h.respond _ _ _ _ _ _))) (ho _ h)))

/-! ## Events -/

/-- Every command that is no request keeps the books. -/
theorem Books.event {c : Instr} (h : Books calm (.holding []) [] s) (hc : c.asRequest = none) (ht : exec c s = .next t) :
    Books calm (.holding []) [] t := by
  cases c <;> cases hc <;> cases ht
  case unknownKindMessage => exact h.sent _ _
  case strayDataFrame => exact h
  case frameStart => exact h.frameStarts
  case line => exact h.lineArrives _ _
  case frameEnd => exact h.frameEnds
  case afPacket => exact .either _ (h.fePacket _ _) h
  case rawCompletion => exact h.rawCompletes
  case focusResultReady => exact h.focusReady
  case stripeCompletion => exact h.stripeDone
  case cardChunkCompletion => exact h.chunkDone _
  case blockRequestCompletion => exact h.blockDone _ _
  case cardErrorCompletion => exact h.cardError _
  case cardStallExpiry => exact h.cardStall _
  case cardInsert => exact h.cardInserted _
  case cardRemoval => exact h.cardRemoved _
  case tetherChunkCompletion => exact h.tetherChunkDone
  case readFrameCompletion => exact h.readFrameDone
  case silenceExpiry => exact h.silenceExpires
  case shotWaitExpiry => exact h.waitExpires
  case thermalSample => exact .either _ (h.sampleTaken _ _) h
  case usbBusReset => exact h.tetherLinkLost
  case tetherCableLoss => exact h.tetherLinkLost
  case lensDetach => exact (h.fe _).same (.ptc _ _)
  case lensAttach => exact h.fe _
  case chainLastAccessCompletion => exact h.lastAccessDone _
  case resetLine => exact books_resetPart s
  case timeBaseTick => exact h.tick
  case chunkRawReadCompletion => exact h.chunkRead _

/-! ## The step -/

theorem Books.exec {c : Instr} (h : Books calm (.holding []) [] s) (ht : exec c s = .next t) : Books calm (.holding []) [] t := by
  cases hc : c.asRequest with
  | none => exact h.event hc ht
  | some rh =>
    obtain ⟨r, hd⟩ := rh
    rw [exec_request hc] at ht
    cases ht
    exact h.takeRequest fun t ht => ht.ownerAct c

theorem exec_keeps_booksLaw {c : Instr} (h : booksLaw s) (ht : exec c s = .next t) : booksLaw t := by
  obtain ⟨hb, hs⟩ := booksLaw_iff.mp h
  exact booksLaw_iff.mpr ⟨hb.exec ht, exec_keeps_send ht hs⟩

end

/-- Settles O60: the books are kept shot by shot by every owner and every event (`Books`), and the send queue's law by every
command. -/
theorem booksKeepTheirLaws : Obligations.BooksKeepTheirLaws := by
  intro s t h hs
  unfold step at h
  split at h
  · cases h
    exact hs
  case _ c rest _ =>
    have hq : booksLaw { s with pending := rest } := by
      obtain ⟨hb, hsend⟩ := booksLaw_iff.mp hs
      exact booksLaw_iff.mpr ⟨hb.same (.of_blocks rfl rfl rfl rfl rfl), hsend⟩
    exact exec_keeps_booksLaw hq h

end Sys2Proof.Machine
end

section
/-! SUPPORT. The pre-capture ring under the changes of a command (R35): but for a frame taken by pre-capture, nothing joins it. -/

namespace Sys2Proof.Machine

/-- From s to t no shot joins the pre-capture ring, its members keep their order, and pre-capture is ARMED with the same depth as
before (R35). -/
structure NoJoin (s t : State) : Prop where
  ring : t.ring.Sublist s.ring
  armed : t.siu.pre.armed = s.siu.pre.armed
  depth : t.siu.pre.depth = s.siu.pre.depth

section
variable {s t u : State}

theorem NoJoin.refl (s : State) : NoJoin s s := ⟨List.Sublist.refl _, rfl, rfl⟩

theorem NoJoin.trans (h : NoJoin s t) (k : NoJoin t u) : NoJoin s u :=
  ⟨k.ring.trans h.ring, k.armed.trans h.armed, k.depth.trans h.depth⟩

/-- The ring is a matter of the records alone. -/
theorem ring_congr (h : t.cat.records = s.cat.records) : t.ring = s.ring := by rw [State.ring, State.ring, h]

theorem NoJoin.same (h : NoJoin s t) (hc : u.cat.records = t.cat.records) (hp : u.siu.pre = t.siu.pre) : NoJoin s u :=
  h.trans ⟨ring_congr hc ▸ List.Sublist.refl _, by rw [hp], by rw [hp]⟩

/-- A cascade that leaves the catalog alone. -/
theorem NoJoin.cascade (h : NoJoin s t) (c : Cascade t u) (hc : u.cat = t.cat) : NoJoin s u :=
  h.same (by rw [hc]) (by rw [c.frame.2.2.1])

theorem NoJoin.either (c : Prop) [Decidable c] (ht : NoJoin s t) (hu : NoJoin s u) : NoJoin s (if c then t else u) := by
  split
  · exact ht
  · exact hu

/-! ## What leaves records and pre-capture alone -/

theorem NoJoin.updFsc (h : NoJoin s t) (f : Fsc → Fsc) : NoJoin s (t.updFsc f) := h.same rfl rfl
theorem NoJoin.updDram (h : NoJoin s t) (f : Memory → Memory) : NoJoin s (t.updDram f) := h.same rfl rfl
theorem NoJoin.updFe (h : NoJoin s t) (f : Fe → Fe) : NoJoin s (t.updFe f) := h.same rfl rfl
theorem NoJoin.updDve (h : NoJoin s t) (f : Dve → Dve) : NoJoin s (t.updDve f) := h.same rfl rfl
theorem NoJoin.updCrw (h : NoJoin s t) (f : Crw → Crw) : NoJoin s (t.updCrw f) := h.same rfl rfl
theorem NoJoin.updTtc (h : NoJoin s t) (f : Ttc → Ttc) : NoJoin s (t.updTtc f) := h.same rfl rfl
theorem NoJoin.updPtc (h : NoJoin s t) (f : Ptc → Ptc) : NoJoin s (t.updPtc f) := h.same rfl rfl
theorem NoJoin.updSiu (h : NoJoin s t) (f : Siu → Siu) (hp : (f t.siu).pre = t.siu.pre := by rfl) : NoJoin s (t.updSiu f) :=
  h.same rfl hp
theorem NoJoin.setEngine (h : NoJoin s t) (e : Engine) (p : Option PendingShoot) : NoJoin s (t.setEngine e p) := h.updSiu _
theorem NoJoin.setFrame (h : NoJoin s t) (f : Option Frame) : NoJoin s (t.setFrame f) := h.updSiu _
theorem NoJoin.updSlot (h : NoJoin s t) (i : SlotId) (f : Slot → Slot) : NoJoin s (t.updSlot i f) := h.updCrw _
theorem NoJoin.updItem (h : NoJoin s t) (n : Nat) (f : SendItem → SendItem) : NoJoin s (t.updItem n f) := h.updTtc _
theorem NoJoin.dropItem (h : NoJoin s t) (n : Nat) : NoJoin s (t.dropItem n) := h.updTtc _
theorem NoJoin.updJob (h : NoJoin s t) (n : Nat) (f : Job → Job) : NoJoin s (t.updJob n f) := h.updDve _
theorem NoJoin.dropJob (h : NoJoin s t) (n : Nat) : NoJoin s (t.dropJob n) := h.updDve _
theorem NoJoin.offer (h : NoJoin s t) (p : Port) (n : Notice) : NoJoin s (t.offer p n) := h.updPtc _
theorem NoJoin.send (h : NoJoin s t) (p : Port) (m : OutMsg) : NoJoin s (t.send p m) := h.updPtc _
theorem NoJoin.answer (h : NoJoin s t) (r : Request) (hd : Header) (b : List Byte) : NoJoin s (t.answer r hd b) := h.send _ _
theorem NoJoin.refuse (h : NoJoin s t) (r : Request) (hd : Header) (x : Result) : NoJoin s (t.refuse r hd x) := h.send _ _
theorem NoJoin.respond (h : NoJoin s t) (r : Request) (p : Port) (tag : Byte) (x : Result) (b : List Byte) (d : Bool) :
    NoJoin s (t.respond r p tag x b d) := h.send _ _
theorem NoJoin.offerClass (h : NoJoin s t) (e : Classes → Bool) (n : Notice) : NoJoin s (t.offerClass e n) :=
  .either _ (h.offer _ _) h

/-! ## Records -/

/-- The records of one shot changed so that none of them becomes a member. -/
theorem NoJoin.updRecordAt (h : NoJoin s t) (n : Nat) {f : Record → Record}
    (hf : ∀ r ∈ t.cat.records, r.shot = n → (f r).inRing = true → r.inRing = true) : NoJoin s (t.updRecord n f) := by
  refine h.trans ⟨?_, rfl, rfl⟩
  show List.Sublist (((t.cat.records.map fun r => if r.shot == n then { f r with shot := r.shot } else r).filter _).map _)
    ((t.cat.records.filter _).map _)
  revert hf
  induction t.cat.records with
  | nil => exact fun _ => List.Sublist.refl _
  | cons r rs ih =>
    intro hf
    have ih := ih fun x hx => hf x (List.mem_cons_of_mem _ hx)
    generalize hx : (if r.shot == n then { f r with shot := r.shot } else r) = x
    have shot : x.shot = r.shot := by subst hx; split <;> rfl
    have member : x.inRing = true → r.inRing = true := by
      subst hx
      split
      case isTrue hn => exact hf r (by simp) (by simpa using hn)
      case isFalse => exact id
    rw [List.map_cons, hx]
    cases hq : x.inRing
    · rw [List.filter_cons_of_neg (by simp [hq])]
      exact ih.trans (((List.sublist_cons_self r rs).filter _).map _)
    · rw [List.filter_cons_of_pos hq, List.filter_cons_of_pos (member hq), List.map_cons, List.map_cons, shot]
      exact ih.cons_cons _

theorem NoJoin.updRecord (h : NoJoin s t) (n : Nat) {f : Record → Record}
    (hf : ∀ r, (f r).inRing = true → r.inRing = true := by exact fun _ hr => hr) : NoJoin s (t.updRecord n f) :=
  h.updRecordAt n fun r _ _ => hf r

theorem NoJoin.dropRecord (h : NoJoin s t) (n : Nat) : NoJoin s (t.dropRecord n) :=
  h.trans ⟨(List.filter_sublist.filter _).map _, rfl, rfl⟩

theorem NoJoin.setReq (h : NoJoin s t) (n : Nat) (i : SlotId) (q : Requirement) : NoJoin s (t.setReq n i q) :=
  h.updRecord n fun _ hr => by cases i <;> exact hr

theorem NoJoin.setMark (h : NoJoin s t) (n : Nat) (c : Content) (m : TetherMark) : NoJoin s (t.setMark n c m) :=
  h.updRecord n fun _ hr => by cases c <;> exact hr

theorem NoJoin.pin (h : NoJoin s t) (n : Nat) (c : Content) : NoJoin s (t.pin n c) :=
  h.updRecord n fun _ hr => by cases c <;> exact hr

theorem NoJoin.unpin (h : NoJoin s t) (n : Nat) (c : Content) : NoJoin s (t.unpin n c) :=
  h.updRecord n fun _ hr => by cases c <;> exact hr

/-! ## Release (R10, R54 to R57) -/

theorem settleReleases_cat (cs : List (List Nat)) (s : State) : (settleReleases cs s).cat = s.cat := by
  induction cs generalizing s with
  | nil => rfl
  | cons c cs ih =>
    refine (ih _).trans ?_
    split
    · rfl
    · exact announceSlabs_cat _

theorem endAccess_cat (u : AccessUser) (c : List Nat) (s : State) : (endAccess u c s).cat = s.cat := settleReleases_cat _ _

theorem cutRead_cat (c : ReadStream → Bool) (s : State) : (cutRead c s).cat = s.cat := by
  unfold cutRead
  split
  · split <;> rfl
  · rfl

theorem NoJoin.releaseChain (h : NoJoin s t) (c : List Nat) : NoJoin s (releaseChain c t) :=
  h.cascade (releaseChain_cascade c t) (releaseChain_cat c t)

theorem NoJoin.endAccess (h : NoJoin s t) (u : AccessUser) (c : List Nat) : NoJoin s (endAccess u c t) :=
  h.cascade (endAccess_cascade u c t) (endAccess_cat u c t)

theorem NoJoin.cutRead (h : NoJoin s t) (c : ReadStream → Bool) : NoJoin s (cutRead c t) :=
  h.cascade (cutRead_cascade c t) (cutRead_cat c t)

theorem NoJoin.pick (h : NoJoin s t) : NoJoin s (pick t) := h.cascade (pick_cascade t) (pick_cat t)

theorem NoJoin.releaseRaw (h : NoJoin s t) (n : Nat) : NoJoin s (releaseRaw n t) := by
  unfold Machine.releaseRaw
  split
  · split
    · exact .either _ ((h.updRecord n).releaseChain _) h
    · exact h
  · exact h

theorem NoJoin.releaseProof (h : NoJoin s t) (n : Nat) : NoJoin s (releaseProof n t) := by
  unfold Machine.releaseProof
  split
  · split
    · exact .either _ ((h.updRecord n).releaseChain _) h
    · exact h
  · exact h

theorem NoJoin.freeRecord (h : NoJoin s t) (n : Nat) : NoJoin s (freeRecord n t) := by
  unfold Machine.freeRecord
  split
  case _ r _ =>
    have dropped : NoJoin s ((t.offer .body (.shotReleased n (r.state == .deleting))).dropRecord n) :=
      (h.offer _ _).dropRecord n
    refine .either _ ?_ h
    dsimp only
    split
    · exact dropped.respond _ _ _ _ _ _
    · exact dropped
  · exact h

theorem NoJoin.testRelease (h : NoJoin s t) (n : Nat) : NoJoin s (testRelease n t) :=
  ((h.releaseRaw n).releaseProof n).freeRecord n

theorem NoJoin.endRead (h : NoJoin s t) (n : Nat) : NoJoin s (endRead n t) := (h.updPtc _).testRelease n

/-! ## Jobs (R110 to R115, R129, R130) -/

theorem NoJoin.createJob (h : NoJoin s t) (n : Nat) (m : Mode) (p : DevelopParams) (c : Priority) (o : JobOrigin) :
    NoJoin s (createJob n m p c o t) := by
  have pending : NoJoin s (t.updRecord n fun r => { r with proofState := .pending }) := h.updRecord n
  exact pending.same (by rw [createJob_cat]) (by rw [(createJob_cascade n m p c o t).frame.2.2.1]; rfl)

theorem mergeInternal_cat (j : Job) (c : Priority) (s : State) : (mergeInternal j c s).cat = s.cat := by
  unfold mergeInternal
  split
  · rw [afterMerge, pick_cat]
    split
    · exact requeueWaiting_cat _ _
    · rfl
  · rfl

theorem NoJoin.internalRequest (h : NoJoin s t) (n : Nat) (p : DevelopParams) (c : Priority) (o : JobOrigin) :
    NoJoin s (internalRequest n p c o t).2 := by
  unfold Machine.internalRequest
  split
  · exact h
  · split
    · exact h
    · split
      case _ j _ => exact h.cascade (mergeInternal_cascade j c t) (mergeInternal_cat j c t)
      · split
        · exact h
        · split
          · exact h
          · exact h.createJob _ _ _ _ _

theorem NoJoin.endCancelled (h : NoJoin s t) (j : Job) : NoJoin s (endCancelled j t) := by
  have left : NoJoin s ((t.dropJob j.shot).updRecord j.shot fun r =>
      { r with proofState := if r.proof.isSome then .done else .none }) :=
    (h.dropJob _).updRecord j.shot
  unfold Machine.endCancelled
  refine (NoJoin.testRelease ?_ _).pick
  split
  · exact left.releaseChain _
  · exact left

theorem NoJoin.cancelJob (h : NoJoin s t) (n : Nat) : NoJoin s (cancelJob n t) := by
  unfold Machine.cancelJob
  split
  · exact .either _ (h.updJob _ _) (h.endCancelled _)
  · exact h

/-! ## Send items (R160 to R174) -/

theorem becomeReady_cat (n : Nat) (s : State) : (becomeReady n s).cat = s.cat := by
  unfold becomeReady
  dsimp only
  split <;> rfl

theorem NoJoin.becomeReady (h : NoJoin s t) (n : Nat) : NoJoin s (becomeReady n t) :=
  h.cascade (becomeReady_cascade n t) (becomeReady_cat n t)

theorem NoJoin.leaveQueue (h : NoJoin s t) (i : SendItem) (m : TetherMark) : NoJoin s (leaveQueue i m t) :=
  ((h.dropItem _).setMark _ _ _).unpin _ _

theorem NoJoin.leaveAndTest (h : NoJoin s t) (i : SendItem) (m : TetherMark) : NoJoin s (leaveAndTest i m t) :=
  (h.leaveQueue i m).testRelease _

theorem NoJoin.ttcJobCompleted (h : NoJoin s t) (n c : Nat) (m : Mode) : NoJoin s (ttcJobCompleted n c m t) := by
  unfold Machine.ttcJobCompleted
  split
  · exact .either _ (.either _ (h.becomeReady _) (h.leaveAndTest _ _)) h
  · exact h

theorem NoJoin.completeJob (h : NoJoin s t) (j : Job) (p : Progress) : NoJoin s (completeJob j p t) := by
  have set : ∀ x : DoneProof, NoJoin s ((t.dropJob j.shot).updRecord j.shot fun r =>
      { r with proof := some x, proofState := .done }) :=
    fun _ => (h.dropJob _).updRecord j.shot
  unfold Machine.completeJob
  refine ((NoJoin.offer (NoJoin.testRelease ?_ _) _ _).ttcJobCompleted _ _ _).pick
  split
  · exact ((set _).cutRead _).releaseChain _
  · exact set _

theorem NoJoin.joinQueue (h : NoJoin s t) (n : Nat) (c : Content) (p : Priority) (o : Option Nat) (m : Nat) (sc : Scale) :
    NoJoin s (joinQueue n c p o m sc t) := by
  have joined : ∀ f : Ttc → Ttc, NoJoin s (((t.pin n c).updTtc f).setMark n c .queued) := fun f =>
    ((h.pin n c).updTtc f).setMark _ _ _
  unfold Machine.joinQueue
  dsimp only
  split
  · exact (joined _).becomeReady _
  · exact .either _ ((joined _).becomeReady _) (joined _)
  · exact joined _

theorem NoJoin.enqueueItem (h : NoJoin s t) (n : Nat) (c : Content) (p : Priority) (o : Option Nat) (m : Nat) (sc : Scale) :
    NoJoin s (enqueueItem n c p o m sc t).2 := by
  unfold Machine.enqueueItem
  split
  · exact h
  case _ r _ =>
    split
    · exact h
    · split
      · exact h
      · split
        · have asked := h.internalRequest n { r.snapshot with scale := sc } p (if o.isSome then .rule else .tether)
          split <;> (rename_i he; rw [he] at asked)
          · exact asked.joinQueue _ _ _ _ _ _
          · exact asked.joinQueue _ _ _ _ _ _
          · exact asked
        · exact h.joinQueue _ _ _ _ _ _

theorem NoJoin.raiseItem (h : NoJoin s t) (i : SendItem) (c : Priority) : NoJoin s (raiseItem i c t) := by
  have raised : NoJoin s (t.updItem i.serial fun x => { x with cls := i.cls.higher c }) := h.same rfl rfl
  unfold Machine.raiseItem
  refine .either _ ?_ raised
  split
  · exact raised.internalRequest _ _ _ _
  · exact raised

theorem NoJoin.actOnMatch (h : NoJoin s t) (k : Nat) (u : SendRule) (n : Nat) : NoJoin s (actOnMatch k u n t) := by
  unfold Machine.actOnMatch
  split
  · exact h.raiseItem _ _
  · split
    · exact h
    · refine .either _ h ?_
      have put := h.enqueueItem n u.content u.cls (some k) u.maxClip u.scale
      split <;> (rename_i he; rw [he] at put)
      · exact put
      · exact (put.setMark _ _ _).updTtc _
      · exact put.setMark _ _ _
      · exact put

theorem NoJoin.applyRules (h : NoJoin s t) (n k : Nat) (us : List SendRule) : NoJoin s (applyRules n k us t) := by
  induction us generalizing k t with
  | nil => exact h
  | cons u us ih =>
    refine ih ?_ _
    split
    · exact .either _ (h.actOnMatch _ _ _) h
    · exact h

theorem NoJoin.evaluateRules (h : NoJoin s t) (n : Nat) : NoJoin s (evaluateRules n t) :=
  .either _ (h.applyRules _ _ _) h

theorem NoJoin.evaluateAll (h : NoJoin s t) (ns : List Nat) : NoJoin s (evaluateAll ns t) := by
  induction ns generalizing t with
  | nil => exact h
  | cons n ns ih => exact ih (h.evaluateRules n)

theorem answerCancel_cat (i : SendItem) (s : State) : (answerCancel i s).cat = s.cat := by
  unfold answerCancel
  split <;> rfl

theorem NoJoin.answerCancel (h : NoJoin s t) (i : SendItem) : NoJoin s (answerCancel i t) :=
  h.cascade (answerCancel_cascade i t) (answerCancel_cat i t)

theorem NoJoin.endDeleted (h : NoJoin s t) (i : SendItem) : NoJoin s (endDeleted i t) :=
  (((h.leaveQueue i .dropped).offer _ _).answerCancel i).testRelease _

theorem NoJoin.endCanceled (h : NoJoin s t) (i : SendItem) : NoJoin s (endCanceled i t) :=
  ((h.leaveQueue i .dropped).answerCancel i).testRelease _

theorem NoJoin.returnToHead (h : NoJoin s t) (i : SendItem) : NoJoin s (returnToHead i t) :=
  ((h.dropItem _).updTtc _).becomeReady _

theorem NoJoin.abandonFrame (h : NoJoin s t) (i : SendItem) : NoJoin s (abandonFrame i t) := by
  unfold Machine.abandonFrame
  split
  · exact .either _ h ((h.updPtc _).endAccess _ _)
  · exact h

theorem NoJoin.settleSending (h : NoJoin s t) (k : Bool) : NoJoin s (settleSending k t) := by
  unfold Machine.settleSending
  split
  · exact h
  case _ i _ =>
    have stopped := h.abandonFrame i
    dsimp only
    split
    · exact stopped.endDeleted i
    · exact stopped.endCanceled i
    · exact .either _ (stopped.returnToHead i) stopped

theorem NoJoin.dropItems (h : NoJoin s t) (is : List SendItem) : NoJoin s (dropItems is t) := by
  induction is generalizing t with
  | nil => exact h
  | cons i is ih => exact ih (h.leaveAndTest _ _)

theorem NoJoin.detachSession (h : NoJoin s t) : NoJoin s (detachSession t) := by
  have settled : ∀ (f : Ttc → Ttc) (k : Bool), NoJoin s (Machine.settleSending k (t.updTtc f)) := fun _ _ =>
    (h.updTtc _).settleSending _
  unfold Machine.detachSession
  dsimp only
  split
  · exact settled _ _
  · exact (settled _ _).dropItems _

theorem NoJoin.suspendAutosend (h : NoJoin s t) : NoJoin s (suspendAutosend t) :=
  ((h.updTtc _).offer _ _).offerClass _ _

theorem NoJoin.deleteItems (h : NoJoin s t) (is : List SendItem) : NoJoin s (deleteItems is t) := by
  induction is generalizing t with
  | nil => exact h
  | cons i is ih =>
    refine ih ?_
    split
    · exact h.leaveQueue _ _
    · exact h.leaveQueue _ _
    · split
      · exact .either _ (h.endDeleted i) (h.updItem _ _)
      · exact h.endDeleted i

/-! ## Relief (R61, R62) -/

theorem NoJoin.renameToProof (h : NoJoin s t) (i : SendItem) (st : ItemState) : NoJoin s (renameToProof i st t) :=
  ((h.updItem _ _).pin _ _).setMark _ _ _

theorem NoJoin.downgrade (h : NoJoin s t) (i : SendItem) : NoJoin s (downgrade i t) := by
  have dropped : NoJoin s ((t.unpin i.shot .raw).setMark i.shot .raw .dropped) := (h.unpin _ _).setMark _ _ _
  unfold Machine.downgrade
  dsimp only
  refine NoJoin.testRelease ?_ _
  split
  · exact dropped.dropItem _
  case _ r _ =>
    refine .either _ (dropped.dropItem _) ?_
    split
    · exact dropped.renameToProof _ _
    · exact dropped.renameToProof _ _
    · have asked := (dropped.renameToProof i .waitingProof).internalRequest i.shot { r.snapshot with scale := .quarter } .normal .relief
      split <;> (rename_i he; rw [he] at asked)
      · exact asked
      · exact asked
      · exact ((asked.dropItem _).unpin _ _).setMark _ _ _

theorem NoJoin.relieve (h : NoJoin s t) (k fuel : Nat) : NoJoin s (relieve k fuel t) := by
  induction fuel generalizing t with
  | zero => exact h
  | succ fuel ih =>
    unfold Machine.relieve
    refine .either _ h ?_
    split
    · exact ih (h.downgrade _)
    · exact h

end

end Sys2Proof.Machine
end

section
/-! SUPPORT. The card slots, the catalog and the TTC's commands under the ring (R35): what each does to the records makes no member. -/

namespace Sys2Proof.Machine

section
variable {s t : State}

/-! ## Card slots (R133 to R154) -/

theorem NoJoin.moveSlot (h : NoJoin s t) (i : SlotId) (n : SlotState) : NoJoin s (moveSlot i n t) :=
  .either _ (h.updSlot _ _) ((h.updSlot _ _).offerClass _ _)

theorem NoJoin.arbitrate (h : NoJoin s t) (i : SlotId) : NoJoin s (arbitrate i t) :=
  h.cascade (arbitrate_cascade i t) (arbitrate_cat i t)

theorem NoJoin.tryHead (h : NoJoin s t) (i : SlotId) : NoJoin s (tryHead i t) := by
  unfold Machine.tryHead
  refine .either _ ?_ h
  split
  · exact .either _ (h.moveSlot _ _) h
  · split
    · exact (((h.updSlot _ _).setReq _ _ _).moveSlot _ _).arbitrate _
    · exact h.moveSlot _ _

theorem NoJoin.tryIdle (h : NoJoin s t) (i : SlotId) : NoJoin s (tryIdle i t) := .either _ (h.tryHead i) h

theorem NoJoin.queueItem (h : NoJoin s t) (i : SlotId) (x : CardItem) : NoJoin s (queueItem i x t) :=
  (h.updSlot _ _).setReq _ _ _

theorem NoJoin.enqueueCard (h : NoJoin s t) (r : Record) : NoJoin s (enqueueCard r t) := by
  have put : ∀ {u : State}, NoJoin s u → ∀ i x, NoJoin s (Machine.tryIdle i (Machine.queueItem i x u)) :=
    fun hu i x => (hu.queueItem i x).tryIdle i
  have first := NoJoin.either t.crw.contentA (put h .a { shot := r.shot, mode := r.mode }) h
  exact .either _ (.either _ (put h _ _) (put h _ _)) (.either _ (put first _ _) first)

theorem NoJoin.migrateItem (h : NoJoin s t) (x : CardItem) : NoJoin s (migrateItem x t) := by
  unfold Machine.migrateItem
  split
  · exact h
  · exact NoJoin.testRelease (.either _ ((h.setReq _ _ _).queueItem _ _) (h.setReq _ _ _)) _

theorem NoJoin.migrateItems (h : NoJoin s t) (xs : List CardItem) : NoJoin s (migrateItems xs t) := by
  induction xs generalizing t with
  | nil => exact h
  | cons x xs ih => exact ih (h.migrateItem x)

theorem NoJoin.migrateFrom (h : NoJoin s t) (i : SlotId) (xs : List CardItem) : NoJoin s (migrateFrom i xs t) :=
  .either _ (((h.updSlot _ _).migrateItems _).tryIdle _) h

theorem NoJoin.endItem (h : NoJoin s t) (i : SlotId) (w : WritingItem) (st : ItemStatus) : NoJoin s (endItem i w st t) :=
  (((h.updSlot _ _).offer _ _).setReq _ _ _).testRelease _

theorem NoJoin.slotAfterItem (h : NoJoin s t) (i : SlotId) : NoJoin s (slotAfterItem i t) :=
  .either _ ((h.moveSlot _ _).migrateFrom _ _) ((h.moveSlot _ _).tryHead _)

theorem NoJoin.finishItem (h : NoJoin s t) (i : SlotId) (w : WritingItem) (st : ItemStatus) : NoJoin s (finishItem i w st t) :=
  ((h.endItem i w st).slotAfterItem i).arbitrate i

theorem NoJoin.failBlocks (h : NoJoin s t) (bs : List BlockRequest) : NoJoin s (failBlocks bs t) :=
  h.cascade (failBlocks_cascade bs t) (failBlocks_cat bs t)

theorem NoJoin.faultSlot (h : NoJoin s t) (i : SlotId) (n : SlotState) : NoJoin s (faultSlot i n t) := by
  unfold Machine.faultSlot
  refine (((NoJoin.failBlocks ?_ _).updSlot _ _).moveSlot _ _).migrateFrom _ _
  split
  · exact (h.updSlot _ _).endItem _ _ _
  · exact h.updSlot _ _

theorem NoJoin.removeQueued (h : NoJoin s t) (i : SlotId) (n : Nat) : NoJoin s (removeQueued i n t) :=
  .either _ ((h.updSlot _ _).tryHead _) (h.updSlot _ _)

theorem NoJoin.waiveDeleted (h : NoJoin s t) (i : SlotId) (n : Nat) : NoJoin s (waiveDeleted i n t) := by
  unfold Machine.waiveDeleted
  split
  · split
    · exact (h.setReq _ _ _).removeQueued _ _
    · exact h.setReq _ _ _
    · exact h
  · exact h

theorem NoJoin.abortWriting (h : NoJoin s t) (i : SlotId) (n : Nat) : NoJoin s (abortWriting i n t) := by
  unfold Machine.abortWriting
  split
  · exact .either _ (.either _ (h.updSlot _ _) (h.finishItem _ _ _)) h
  · exact h

/-! ## The catalog (R35, R44, R47 to R49, R58, R59) -/

/-- A record that is no longer EXPOSING or PROVISIONAL is no member. -/
theorem inRing_of_state {r : Record} (h : r.state = .stored ∨ r.state = .deleting) : r.inRing = false := by
  rcases h with h | h <;> simp [Record.inRing, h]

theorem NoJoin.storeRecord (h : NoJoin s t) (n : Nat) : NoJoin s (storeRecord n t) := by
  unfold Machine.storeRecord
  split
  · exact h
  case _ r _ =>
    have put : NoJoin s (Machine.evaluateRules n (Machine.enqueueCard r (t.updRecord n fun x => { x with state := .stored }))) := by
      refine NoJoin.evaluateRules (NoJoin.enqueueCard (h.updRecord n fun x hx => ?_) _) _
      rw [inRing_of_state (.inl rfl)] at hx
      cases hx
    exact ((NoJoin.either _ (put.internalRequest _ _ _ _) put).offer _ _).testRelease _

theorem NoJoin.removeRecord (h : NoJoin s t) (n : Nat) : NoJoin s (removeRecord n t) := by
  unfold Machine.removeRecord
  split
  · exact h
  · split
    · exact ((h.updRecord n).releaseChain _).dropRecord n
    · exact h.dropRecord n

/-- A mark takes an EXPOSING record out of the ring. -/
theorem NoJoin.mark (h : NoJoin s t) (n : Nat) {k : RingMark} (hk : k ≠ .none) :
    NoJoin s (t.updRecord n fun x => { x with mark := k }) := by
  refine h.updRecord n fun r hr => ?_
  simp only [Record.inRing, Bool.and_eq_true, Bool.or_eq_true, beq_iff_eq] at hr ⊢
  obtain ⟨hp, hs | ⟨-, hm⟩⟩ := hr
  · exact ⟨hp, .inl hs⟩
  · exact absurd hm hk

theorem NoJoin.discardMember (h : NoJoin s t) (n : Nat) : NoJoin s (discardMember n t) := by
  unfold Machine.discardMember
  split
  · exact h
  · exact .either _ (h.removeRecord n) (h.mark n (by decide))

theorem NoJoin.promoteMember (h : NoJoin s t) (n : Nat) : NoJoin s (promoteMember n t) := by
  unfold Machine.promoteMember
  split
  · exact h
  · exact .either _ (h.storeRecord n) (h.mark n (by decide))

theorem NoJoin.discardMembers (h : NoJoin s t) (ns : List Nat) : NoJoin s (discardMembers ns t) := by
  induction ns generalizing t with
  | nil => exact h
  | cons n ns ih => exact ih (h.discardMember n)

theorem NoJoin.promoteMembers (h : NoJoin s t) (ns : List Nat) : NoJoin s (promoteMembers ns t) := by
  induction ns generalizing t with
  | nil => exact h
  | cons n ns ih => exact ih (h.promoteMember n)

theorem NoJoin.promoteRing (h : NoJoin s t) : NoJoin s (promoteRing t) := .either _ (h.promoteMembers _) h

/-- In a catalog without a repeated shot, the record of a number is the only one of it. -/
theorem record_unique {s : State} (hn : (s.cat.records.map Record.shot).Nodup) {n : Nat} {r x : Record} (hr : s.record n = some r)
    (hx : x ∈ s.cat.records) (hs : x.shot = n) : x = r :=
  eq_of_key_eq hn hx (record_mem hr).1 (hs.trans (record_shot hr).symm)

/-- An unmarked PRE frame that was EXPOSING was a member before it became PROVISIONAL (R47). -/
theorem NoJoin.reportRaw (h : NoJoin s t) (hn : (t.cat.records.map Record.shot).Nodup) (e : EndedFrame) :
    NoJoin s (reportRaw e t) := by
  have told : NoJoin s (t.updRecord e.capture.shot fun x => { x with bl := some e.bl, truncated := e.truncated }) := h.updRecord _
  unfold Machine.reportRaw
  dsimp only
  split
  · exact h
  case _ r hr =>
    split
    · exact told
    case isFalse hs =>
      have hs : r.state = .exposing := by simpa using hs
      split
      · exact told.storeRecord _
      · exact told.storeRecord _
      · exact told.removeRecord _
      case _ hk hm =>
        rw [updRecord_updRecord]
        refine h.updRecordAt _ fun x hx hxs _ => ?_
        rw [record_unique hn hr hx hxs]
        simp [Record.inRing, hk, hs, hm]

theorem NoJoin.fillFocus (h : NoJoin s t) (f : FocusSummary) : NoJoin s (fillFocus f t) := by
  unfold Machine.fillFocus
  split
  · exact h.updRecord _
  · exact h

theorem NoJoin.beginDeleting (h : NoJoin s t) (n : Nat) (tag : Byte) : NoJoin s (beginDeleting n tag t) := by
  have gone : ∀ f : Record → Record, (∀ r, (f r).state = .deleting) → NoJoin s (t.updRecord n f) := fun f hf =>
    h.updRecord n fun r hr => by rw [inRing_of_state (.inr (hf r))] at hr; cases hr
  exact (((((((((gone _ fun _ => rfl).deleteItems _).deleteItems _).waiveDeleted _ _).waiveDeleted _ _).abortWriting _ _).abortWriting
    _ _).cancelJob _).cutRead _).testRelease _

theorem NoJoin.ownDelete (h : NoJoin s t) (hd : Header) (n : Nat) : NoJoin s (ownDelete hd n t) := by
  unfold Machine.ownDelete
  split
  · exact h.refuse _ _ _
  · split
    · exact h.refuse _ _ _
    · exact h.refuse _ _ _
    · exact .either _ (h.refuse _ _ _) ((h.discardMember n).answer _ _ _)
    · exact .either _ (h.refuse _ _ _) (h.beginDeleting n _)

theorem NoJoin.ownSetTags (h : NoJoin s t) (hd : Header) (n : Nat) (a b : BitVec 16) (r : Byte) :
    NoJoin s (ownSetTags hd n a b r t) := by
  unfold Machine.ownSetTags
  split
  · exact h.refuse _ _ _
  · exact .either _ (h.refuse _ _ _) (.either _ (((h.updRecord n).answer _ _ _).evaluateRules n) ((h.updRecord n).answer _ _ _))

theorem NoJoin.ownProtect (h : NoJoin s t) (hd : Header) (n : Nat) (a : Byte) : NoJoin s (ownProtect hd n a t) := by
  unfold Machine.ownProtect
  split
  · exact h.refuse _ _ _
  · split
    · exact h.refuse _ _ _
    · exact .either _ (h.refuse _ _ _) ((h.updRecord n).answer _ _ _)

theorem NoJoin.ownHold (h : NoJoin s t) (hd : Header) (n : Nat) : NoJoin s (ownHold hd n t) := by
  unfold Machine.ownHold
  split
  · exact h.refuse _ _ _
  · exact .either _ (h.refuse _ _ _) (.either _ (h.answer _ _ _) ((((h.updRecord n).pin _ _).pin _ _).answer _ _ _))

theorem NoJoin.ownUnhold (h : NoJoin s t) (hd : Header) (n : Nat) : NoJoin s (ownUnhold hd n t) := by
  unfold Machine.ownUnhold
  split
  · exact h.refuse _ _ _
  · exact .either _ ((((((h.updRecord n).unpin _ _).unpin _ _).cutRead _).answer _ _ _).testRelease _) (h.answer _ _ _)

theorem NoJoin.ownShotInfo (h : NoJoin s t) (hd : Header) (n : Nat) : NoJoin s (ownShotInfo hd n t) := by
  unfold Machine.ownShotInfo
  split
  · exact h.refuse _ _ _
  · exact h.answer _ _ _

theorem NoJoin.beginAccess (h : NoJoin s t) (u : AccessUser) (c : List Nat) : NoJoin s (beginAccess u c t) := h.updFsc _

theorem NoJoin.sendReadFrame (h : NoJoin s t) (x : ReadStream) : NoJoin s (sendReadFrame x t) := by
  unfold Machine.sendReadFrame
  exact ((h.beginAccess _ _).updPtc _).send _ _

theorem NoJoin.ownRead (h : NoJoin s t) (q : Request) (c : Content) (hd : Header) (n : Nat) : NoJoin s (ownRead q c hd n t) := by
  unfold Machine.ownRead
  split
  · exact h.refuse _ _ _
  · refine .either _ (h.refuse _ _ _) (.either _ (h.refuse _ _ _) ?_)
    split
    · exact h.refuse _ _ _
    · exact (h.respond _ _ _ _ _ _).sendReadFrame _

theorem NoJoin.readFrameDone (h : NoJoin s t) : NoJoin s (readFrameDone t) := by
  unfold Machine.readFrameDone
  split
  · exact h
  case _ x _ =>
    have delivered := (h.updPtc fun p => { p with bodyOut := dropThrough (isFrame x.tag x.next) p.bodyOut }).endAccess
      .readStream x.chain
    exact .either _ ((delivered.send _ _).endRead _) (.either _ (delivered.endRead _) (delivered.sendReadFrame _))

end

end Sys2Proof.Machine
end

section
/-! SUPPORT. The other commands under the ring (R35): the card writer's, the engine's, the TTC's, the ports'. -/

namespace Sys2Proof.Machine

section
variable {s t : State}

/-! ## Card writer -/

theorem NoJoin.ownOpenSlot (h : NoJoin s t) (hd : Header) (b : Byte) : NoJoin s (ownOpenSlot hd b t) := by
  unfold Machine.ownOpenSlot
  split
  · exact h.refuse _ _ _
  · exact .either _ (h.refuse _ _ _) ((((h.updSlot _ _).moveSlot _ _).answer _ _ _).tryHead _)

theorem NoJoin.ownCloseSlot (h : NoJoin s t) (hd : Header) (b : Byte) : NoJoin s (ownCloseSlot hd b t) := by
  unfold Machine.ownCloseSlot
  split
  · exact h.refuse _ _ _
  · exact .either _ (h.refuse _ _ _) (.either _ (h.refuse _ _ _) (((h.updSlot _ _).moveSlot _ _).answer _ _ _))

theorem NoJoin.ownSlotFull (h : NoJoin s t) (hd : Header) (b : Byte) : NoJoin s (ownSlotFull hd b t) := by
  unfold Machine.ownSlotFull
  split
  · exact h.refuse _ _ _
  case _ i _ =>
    have empty := (h.updSlot i fun y => { y with pool := [] }).answer .slotFull hd []
    exact .either _ (h.refuse _ _ _)
      (.either _ (empty.updSlot _ _) (.either _ empty ((empty.moveSlot _ _).migrateFrom _ _)))

theorem NoJoin.ownGrantExtents (h : NoJoin s t) (hd : Header) (b c : Byte) (es : List ExtentOps) :
    NoJoin s (ownGrantExtents hd b c es t) := by
  unfold Machine.ownGrantExtents
  dsimp only
  split
  · exact h.refuse _ _ _
  · refine .either _ (h.refuse _ _ _) (.either _ (h.refuse _ _ _) (.either _ (h.refuse _ _ _) (.either _ (h.refuse _ _ _)
      (.either _ (h.refuse _ _ _) (.either _ ?_ ?_)))))
    · exact ((h.updSlot _ _).answer _ _ _).tryHead _
    · exact (h.updSlot _ _).answer _ _ _

theorem NoJoin.takeBlockRequest (h : NoJoin s t) (hd : Header) (i : SlotId) (b : BlockRequest) (clash : Bool) :
    NoJoin s (takeBlockRequest hd i b clash t) :=
  .either _ (h.refuse _ _ _) (.either _ (h.refuse _ _ _) (.either _ (h.refuse _ _ _) ((h.updSlot _ _).arbitrate _)))

theorem NoJoin.ownBlockRead (h : NoJoin s t) (hd : Header) (b : Byte) (f c : Nat) : NoJoin s (ownBlockRead hd b f c t) := by
  unfold Machine.ownBlockRead
  split
  · exact h.refuse _ _ _
  · exact .either _ (h.refuse _ _ _) (h.takeBlockRequest _ _ _ _)

theorem NoJoin.ownBlockWrite (h : NoJoin s t) (hd : Header) (b : Byte) (f c : Nat) (d : Option DataFrame) :
    NoJoin s (ownBlockWrite hd b f c d t) := by
  unfold Machine.ownBlockWrite
  split
  · exact .either _ (h.refuse _ _ _) (h.takeBlockRequest _ _ _ _)
  · exact h.refuse _ _ _

theorem NoJoin.blockDone (h : NoJoin s t) (i : SlotId) (bs : List Byte) : NoJoin s (blockDone i bs t) := by
  unfold Machine.blockDone
  dsimp only
  split
  · refine .either _ h (.either _ h (NoJoin.arbitrate (.either _ ?_ ?_) _))
    · exact (h.updSlot _ _).respond _ _ _ _ _ _
    · exact ((h.updSlot _ _).respond _ _ _ _ _ _).send _ _
  · exact h

theorem NoJoin.chunkRead (h : NoJoin s t) (i : SlotId) : NoJoin s (chunkRead i t) := by
  unfold Machine.chunkRead
  split
  · exact (h.endAccess _ _).updSlot _ _
  · split
    · exact h.endAccess _ _
    · exact h

theorem NoJoin.chunkDone (h : NoJoin s t) (i : SlotId) : NoJoin s (chunkDone i t) := by
  unfold Machine.chunkDone
  dsimp only
  split
  · refine .either _ (.either _ ?_ (.either _ ?_ ?_)) h
    · exact (h.updSlot _ _).finishItem _ _ _
    · exact (h.updSlot _ _).finishItem _ _ _
    · exact (h.updSlot _ _).arbitrate _
  · exact h

theorem NoJoin.cardRemoved (h : NoJoin s t) (i : SlotId) : NoJoin s (cardRemoved i t) :=
  .either _ ((h.updSlot _ _).faultSlot _ _) (.either _ (h.updSlot _ _) (((h.updSlot _ _).moveSlot _ _).migrateFrom _ _))

theorem NoJoin.retryAll (h : NoJoin s t) (xs : List (Nat × SlotId)) : NoJoin s (retryAll xs t).2 := by
  induction xs generalizing t with
  | nil => exact h
  | cons x xs ih =>
    obtain ⟨n, i⟩ := x
    unfold Machine.retryAll
    split
    · split
      · exact ih (h.queueItem _ _)
      · exact ih h
    · exact ih h

theorem NoJoin.waiveAll (h : NoJoin s t) (xs : List (Nat × SlotId)) : NoJoin s (waiveAll xs t).2 := by
  induction xs generalizing t with
  | nil => exact h
  | cons x xs ih =>
    obtain ⟨n, i⟩ := x
    unfold Machine.waiveAll
    split
    · split
      · exact ih (((h.updSlot _ _).setReq _ _ _).testRelease _)
      · exact ih h
    · exact ih h

theorem NoJoin.tryNewHead (h : NoJoin s t) (i : SlotId) (o : Option CardItem) : NoJoin s (tryNewHead i o t) :=
  .either _ (h.tryHead _) h

theorem NoJoin.ownRetryCard (h : NoJoin s t) (hd : Header) (n : Nat) (b : Byte) : NoJoin s (ownRetryCard hd n b t) := by
  unfold Machine.ownRetryCard
  split
  · exact h.refuse _ _ _
  · split
    · exact h.refuse _ _ _
    · exact (((h.retryAll _).answer _ _ _).tryIdle _).tryIdle _

theorem NoJoin.ownWaiveCard (h : NoJoin s t) (hd : Header) (n : Nat) (b : Byte) : NoJoin s (ownWaiveCard hd n b t) := by
  unfold Machine.ownWaiveCard
  split
  · exact h.refuse _ _ _
  · split
    · exact h.refuse _ _ _
    · exact .either _ (h.refuse _ _ _) ((((h.waiveAll _).answer _ _ _).tryNewHead _ _).tryNewHead _ _)

/-! ## Develop engine -/

theorem NoJoin.ownDevelop (h : NoJoin s t) (hd : Header) (o : DevelopOps) : NoJoin s (ownDevelop hd o t) := by
  unfold Machine.ownDevelop
  split
  · dsimp only
    split
    · exact h.refuse _ _ _
    · refine .either _ (h.refuse _ _ _) ?_
      split
      · exact h.refuse _ _ _
      · refine .either _ (h.refuse _ _ _) (.either _ (h.refuse _ _ _) ?_)
        refine (h.answer _ _ _).cascade (mergeDevelop_cascade _ _ _ _ _) ?_
        unfold mergeDevelop afterMerge
        rw [pick_cat]
        split
        · exact requeueWaiting_cat _ _
        · rfl
      · exact .either _ (h.refuse _ _ _) (.either _ (h.refuse _ _ _) ((h.answer _ _ _).createJob _ _ _ _ _))
  · exact h.refuse _ _ _

theorem applyThermal_cat (th : Thermal) (s : State) : (applyThermal th s).cat = s.cat := by
  rw [applyThermal, pick_cat, requeueWaiting_cat]; rfl

theorem NoJoin.afterStripe (h : NoJoin s t) (j : Job) (p : Progress) : NoJoin s (afterStripe j p t) := by
  unfold Machine.afterStripe
  have applied : NoJoin s (match t.dve.pendingThermal with
      | some th => applyThermal th (t.updDve fun d => { d with pendingThermal := none })
      | none => t) := by
    split
    · exact (h.updDve _).cascade (applyThermal_cascade _ _) (applyThermal_cat _ _)
    · exact h
  exact .either _ (applied.endCancelled _) (.either _ (applied.completeJob _ _) (.either _ (applied.updJob _ _).pick applied))

theorem NoJoin.stripeDone (h : NoJoin s t) : NoJoin s (stripeDone t) := by
  unfold Machine.stripeDone
  split
  · exact h
  · split
    · exact ((h.updDram _).updJob _ _).afterStripe _ _
    · exact h

/-! ## Tether controller -/

theorem NoJoin.startSilence (h : NoJoin s t) : NoJoin s (startSilence t) := h.updTtc _

theorem NoJoin.ownOpenSession (h : NoJoin s t) (hd : Header) : NoJoin s (ownOpenSession hd t) :=
  (NoJoin.either _ ((h.updTtc _).startSilence.settleSending true) (h.updTtc _).startSilence).answer _ _ _

theorem NoJoin.detachIfAttached (h : NoJoin s t) : NoJoin s (if t.ttc.attached then Machine.detachSession t else t) :=
  .either _ h.detachSession h

theorem NoJoin.ownSetRule (h : NoJoin s t) (hd : Header) (n : Nat) (o : RuleOps) : NoJoin s (ownSetRule hd n o t) := by
  unfold Machine.ownSetRule
  split
  · exact .either _ (h.refuse _ _ _) ((h.updTtc _).answer _ _ _)
  · exact h.refuse _ _ _

theorem NoJoin.ownSendShot (h : NoJoin s t) (hd : Header) (n : Nat) (c p : Byte) : NoJoin s (ownSendShot hd n c p t) := by
  unfold Machine.ownSendShot
  split
  case _ c p _ _ =>
    refine .either _ (h.refuse _ _ _) ?_
    split
    · exact h.refuse _ _ _
    · exact (h.raiseItem _ _).answer _ _ _
    case _ r _ _ =>
      have put := h.enqueueItem n c p none 1000 r.snapshot.scale
      split <;> (rename_i he; rw [he] at put)
      · exact h.refuse _ _ _
      · exact h.refuse _ _ _
      · exact h.refuse _ _ _
      · exact put.answer _ _ _
  · exact h.refuse _ _ _

theorem NoJoin.startChunk (h : NoJoin s t) (x : Transfer) : NoJoin s (startChunk x t) := (h.beginAccess _ _).send _ _

theorem NoJoin.ownTakeNext (h : NoJoin s t) (hd : Header) : NoJoin s (ownTakeNext hd t) := by
  unfold Machine.ownTakeNext
  refine .either _ (h.refuse _ _ _) ?_
  split
  · exact h.refuse _ _ _
  · split
    · exact h.refuse _ _ _
    · split
      · exact h.refuse _ _ _
      · exact ((h.updItem _ _).respond _ _ _ _ _ _).startChunk _

theorem NoJoin.afterChunk (h : NoJoin s t) (i : SendItem) (x : Transfer) : NoJoin s (afterChunk i x t) := by
  have moved : ∀ f g, NoJoin s ((Machine.startSilence (Machine.endAccess .tether x.chain (t.updPtc f))).updItem i.serial g) :=
    fun f g => (((h.updPtc f).endAccess _ _).startSilence).updItem _ g
  unfold Machine.afterChunk
  dsimp only
  split
  · exact ((moved _ _).send _ _).endDeleted _
  · exact ((moved _ _).send _ _).endCanceled _
  · exact .either _ ((moved _ _).updItem _ _) ((moved _ _).startChunk _)

theorem NoJoin.tetherChunkDone (h : NoJoin s t) : NoJoin s (tetherChunkDone t) := by
  unfold Machine.tetherChunkDone
  split
  · exact h
  · split
    · exact .either _ h (h.afterChunk _ _)
    · exact h

theorem NoJoin.itemFailed (h : NoJoin s t) (hd : Header) (i : SendItem) : NoJoin s (itemFailed hd i t) := by
  have handled := NoJoin.either (i.attempts + 1 < 3)
    ((h.updTtc fun x => { x with errors := if x.errors < x.threshold then x.errors + 1 else x.errors }).returnToHead
      { i with attempts := i.attempts + 1 })
    ((h.updTtc fun x => { x with errors := if x.errors < x.threshold then x.errors + 1 else x.errors }).leaveQueue i .failed)
  have tested := (handled.answer .itemResult hd []).testRelease i.shot
  exact .either _ tested.suspendAutosend tested

theorem NoJoin.ownItemResult (h : NoJoin s t) (hd : Header) (n : Nat) (b : Byte) : NoJoin s (ownItemResult hd n b t) := by
  unfold Machine.ownItemResult
  split
  · exact h.refuse _ _ _
  · split
    · exact h.refuse _ _ _
    · refine .either _ (h.refuse _ _ _) (.either _ (h.refuse _ _ _) (.either _ ?_ (h.itemFailed _ _)))
      exact (((h.leaveQueue _ _).updTtc _).answer _ _ _).testRelease _

theorem NoJoin.ownCancelItem (h : NoJoin s t) (hd : Header) (n : Nat) : NoJoin s (ownCancelItem hd n t) := by
  unfold Machine.ownCancelItem
  split
  · exact h.refuse _ _ _
  · exact .either _ (h.refuse _ _ _) (.either _ (h.updItem _ _) (((h.leaveQueue _ _).answer _ _ _).testRelease _))

theorem NoJoin.ownRearmAutosend (h : NoJoin s t) (hd : Header) (b : Byte) : NoJoin s (ownRearmAutosend hd b t) := by
  unfold Machine.ownRearmAutosend
  split
  · exact h.refuse _ _ _
  · exact .either _ (((h.updTtc _).answer _ _ _).evaluateAll _) ((h.updTtc _).answer _ _ _)

/-! ## Ports -/

theorem NoJoin.offerAll (h : NoJoin s t) (ns : List Notice) : NoJoin s (offerAll ns t) := by
  induction ns generalizing t with
  | nil => exact h
  | cons n ns ih => exact ih (h.offer _ _)

theorem NoJoin.ownNoticeClasses (h : NoJoin s t) (hd : Header) (a b c d : Byte) : NoJoin s (ownNoticeClasses hd a b c d t) := by
  unfold Machine.ownNoticeClasses
  split
  · exact ((h.updPtc _).answer _ _ _).offerAll _
  · exact h.refuse _ _ _

theorem NoJoin.takeParams (h : NoJoin s t) (p : Params) : NoJoin s (takeParams p t) := by
  have reserve : NoJoin s (takeReserve p.reserve t) :=
    .either _ ((h.updFsc _).cascade (announceSlabs_cascade _) (announceSlabs_cat _)) (h.updFsc _)
  have yielding : ∀ u, NoJoin s u → NoJoin s (u.updCat fun c => { c with pressureYield := p.yielding, clipLevel := p.clip }) :=
    fun u hu => hu.same rfl rfl
  have taken := (((yielding _ (reserve.updCrw fun c =>
    { c with contentA := p.contentA, contentB := p.contentB, overflow := p.overflow, stallLimit := p.stall })).updTtc
      fun x => { x with policy := p.policy, silenceLimit := p.silence }).updSiu fun u => { u with waitLimit := p.shotWait }).updTtc
        fun x => { x with threshold := p.threshold, errors := min x.errors p.threshold }
  exact .either _ taken.suspendAutosend taken

theorem NoJoin.lastAccessDone (h : NoJoin s t) (c : List Nat) : NoJoin s (lastAccessDone c t) :=
  .either _ ((h.updFsc _).cascade (settleReleases_cascade _ _) (settleReleases_cat _ _)) h

end

end Sys2Proof.Machine
end

section
/-! SUPPORT. The capture engine's law (R25, R35, R36): the SIU's own part under every change of a command, the ring under every command. -/

namespace Sys2Proof.Machine

section
variable {s t : State}

/-! ## The law in two parts -/

/-- The part of the capture engine's law that does not speak of the ring, of the SIU's state, whether the store is configured and the
part's thermal state. -/
structure SiuOk (u : Siu) (configured : Bool) (part : Thermal) : Prop where
  pending : u.engine = .singlePending ↔ u.shoot.isSome = true
  unconfigured : configured = false → u.engine = .idle ∧ u.pre.armed = false
  frame : ∀ f, u.frame = some f → f.number = u.frameCounter ∧ (f.mode = none → f.capture = none)
  shortage : u.burst.shortage = true → u.engine = .burst
  thermal : u.thermal = part
  cool : u.thermal ≠ .normal → u.pre.armed = false
  noBurst : u.thermal = .hot → u.engine ≠ .burst
  burst : 1 ≤ u.burst.divisor ∧ u.burst.divisor ≤ 16 ∧ u.burst.maximum ≤ 999
  pre : u.pre.depth ≤ 24 ∧ 1 ≤ u.pre.divisor ∧ u.pre.divisor ≤ 16
  waits : u.waitLimit ≤ 5000

/-- The ring within its depth, and empty while DISARMED (R35, R36). -/
structure RingOk (s : State) : Prop where
  length : s.ring.length ≤ s.siu.pre.depth
  disarmed : s.siu.pre.armed = false → s.ring = []

theorem captureLaw_iff (s : State) : captureLaw s ↔ SiuOk s.siu s.fsc.configured s.thm.part ∧ RingOk s := by
  constructor
  · rintro ⟨h1, h2, h3, h4, h5, h6, h7, h8, h9, h10, h11, h12, h13, h14, h15, h16⟩
    exact ⟨⟨h1, h2, h3, h4, h5, h6, h7, ⟨h8, h9, h10⟩, ⟨h11, h12, h13⟩, h14⟩, h15, h16⟩
  · rintro ⟨⟨h1, h2, h3, h4, h5, h6, h7, ⟨h8, h9, h10⟩, ⟨h11, h12, h13⟩, h14⟩, h15, h16⟩
    exact ⟨h1, h2, h3, h4, h5, h6, h7, h8, h9, h10, h11, h12, h13, h14, h15, h16⟩

/-! ## The SIU's part under every change -/

/-- The SIU after a change of the part's thermal state: away from NORMAL pre-capture is DISARMED, and HOT ends a burst (R38). -/
def Siu.withThermal (u : Siu) (p : Thermal) : Siu :=
  let leaves := u.thermal == .normal && p != .normal
  let v := { u with thermal := p, pre := { u.pre with armed := if leaves then false else u.pre.armed } }
  if p == .hot && u.engine == .burst then { v with engine := .idle, burst := { v.burst with shortage := false } } else v

theorem disarmRing_siu (s : State) : (disarmRing s).siu = { s.siu with pre := { s.siu.pre with armed := false } } :=
  (discardMembers_cascade _ _).frame.2.2.1

theorem handThermalToSiu_siu (p : Thermal) (s : State) : (handThermalToSiu p s).siu = s.siu.withThermal p := by
  unfold handThermalToSiu Siu.withThermal
  extract_lets leaves u v _ w _
  have hv : v.siu = w := by
    show (if leaves then disarmRing u else u).siu = w
    cases hl : leaves
    · simp only [w, hl]
      rfl
    · simp only [w, hl, if_true, disarmRing_siu]
      rfl
  have he : v.siu.engine = s.siu.engine := by rw [hv]
  rw [he]
  split
  · rw [endBurst, State.updSiu_siu, hv]
  · exact hv

/-- A change of the thermal state keeps the SIU's part of the law. -/
theorem SiuOk.withThermal {u : Siu} {c : Bool} {q : Thermal} (h : SiuOk u c q) (p : Thermal) : SiuOk (u.withThermal p) c p := by
  have disarmed : (u.withThermal p).pre.armed = true → u.pre.armed = true ∧ (u.thermal = .normal → p = .normal) := by
    unfold Siu.withThermal
    dsimp only
    intro ha
    have ha : (if u.thermal == .normal && p != .normal then false else u.pre.armed) = true := by
      split at ha <;> exact ha
    split at ha
    · cases ha
    case isFalse hn => exact ⟨ha, by simpa using hn⟩
  have thermal : (u.withThermal p).thermal = p := by unfold Siu.withThermal; dsimp only; split <;> rfl
  have engine : (u.withThermal p).engine = u.engine ∧ ¬ (p = .hot ∧ u.engine = .burst)
      ∧ (u.withThermal p).burst = u.burst
      ∨ u.engine = .burst ∧ (u.withThermal p).engine = .idle ∧ (u.withThermal p).burst = { u.burst with shortage := false } := by
    unfold Siu.withThermal
    dsimp only
    split
    case isTrue hb => exact .inr ⟨(by simpa using hb : p = .hot ∧ u.engine = .burst).2, rfl, rfl⟩
    case isFalse hb => exact .inl ⟨rfl, by simpa using hb, rfl⟩
  have rest : (u.withThermal p).shoot = u.shoot ∧ (u.withThermal p).frame = u.frame
      ∧ (u.withThermal p).frameCounter = u.frameCounter ∧ (u.withThermal p).pre.depth = u.pre.depth
      ∧ (u.withThermal p).pre.divisor = u.pre.divisor ∧ (u.withThermal p).waitLimit = u.waitLimit := by
    unfold Siu.withThermal
    dsimp only
    split <;> exact ⟨rfl, rfl, rfl, rfl, rfl, rfl⟩
  obtain ⟨shoot, frame, counter, depth, divisor, limit⟩ := rest
  refine ⟨?_, fun hc => ⟨?_, ?_⟩, ?_, ?_, thermal, fun hp => ?_, fun hp => ?_, ?_, ?_, limit ▸ h.waits⟩
  · rw [shoot]
    rcases engine with ⟨he, -, -⟩ | ⟨hb, he, -⟩
    · rw [he]; exact h.pending
    · rw [he, ← h.pending, hb]; decide
  · rcases engine with ⟨he, -, -⟩ | ⟨-, he, -⟩
    · rw [he]; exact (h.unconfigured hc).1
    · exact he
  · exact Bool.eq_false_iff.mpr fun ha => Bool.eq_false_iff.mp (h.unconfigured hc).2 (disarmed ha).1
  · rw [frame, counter]; exact h.frame
  · rcases engine with ⟨he, -, hs⟩ | ⟨-, -, hs⟩
    · rw [he, hs]; exact h.shortage
    · rw [hs]; exact fun e => by cases e
  · refine Bool.eq_false_iff.mpr fun ha => ?_
    obtain ⟨ha, hn⟩ := disarmed ha
    by_cases hu : u.thermal = .normal
    · exact hp (thermal.trans (hn hu))
    · rw [h.cool hu] at ha; cases ha
  · rcases engine with ⟨he, hn, -⟩ | ⟨-, he, -⟩
    · rw [he]; exact fun hb => hn ⟨thermal ▸ hp, hb⟩
    · rw [he]; decide
  · rcases engine with ⟨-, -, hs⟩ | ⟨-, -, hs⟩ <;> rw [hs] <;> exact h.burst
  · rw [depth, divisor]; exact h.pre

theorem detachSession_frame (s : State) :
    (detachSession s).siu = s.siu ∧ (detachSession s).fsc.configured = s.fsc.configured ∧ (detachSession s).thm = s.thm := by
  have c : Cascade (s.updTtc fun t => { t with attached := false, silence := none }) (detachSession s) := by
    unfold detachSession
    dsimp only
    split
    · exact settleSending_cascade _ _
    · exact (settleSending_cascade _ _).trans (dropItems_cascade _ _)
  exact ⟨c.frame.2.2.1, c.store.1, c.frame.2.2.2.2⟩

/-- The SIU's part of the law in a state. -/
def State.siuOk (s : State) : Prop := SiuOk s.siu s.fsc.configured s.thm.part

theorem Cascade.keeps_siuOk (c : Cascade s t) (h : s.siuOk) : t.siuOk := by
  unfold State.siuOk
  rw [c.frame.2.2.1, c.store.1, c.frame.2.2.2.2]
  exact h

theorem suspendAutosend_keeps_siuOk (h : s.siuOk) : (suspendAutosend s).siuOk :=
  Cascade.keeps_siuOk ((Cascade.offerTether _ _ rfl).trans (.offerClass _ Classes.autosend _ rfl)) h

theorem sampleTaken_keeps_siuOk (d k : Reading) (h : s.siuOk) : (sampleTaken d k s).siuOk := by
  unfold sampleTaken
  extract_lets previous u
  have same : u.siu = s.siu := rfl
  split
  case isTrue hp =>
    have hp : u.thm.part = s.thm.part := by simpa using hp
    show SiuOk u.siu u.fsc.configured u.thm.part
    rw [hp]
    exact h
  case isFalse =>
    have handed : (handThermalToSiu u.thm.part u).siuOk := by
      have other : (handThermalToSiu u.thm.part u).fsc.configured = s.fsc.configured
          ∧ (handThermalToSiu u.thm.part u).thm = u.thm :=
        handThermalToSiu_keeps (P := fun x => x.fsc.configured = s.fsc.configured ∧ x.thm = u.thm)
          (fun _ _ c hx => ⟨c.store.1.trans hx.1, c.frame.2.2.2.2.trans hx.2⟩) (fun _ _ hx => hx) _ ⟨rfl, rfl⟩
      unfold State.siuOk
      rw [other.1, other.2, handThermalToSiu_siu]
      exact SiuOk.withThermal h _
    exact Cascade.keeps_siuOk ((handThermalToDve_cascade _ _).trans (.offerClass _ _ _ rfl)) handed

/-- Every change of a command keeps the SIU's part of the law. -/
theorem Act.keeps_siuOk (a : Act s t) (h : s.siuOk) : t.siuOk := by
  cases a with
  | prim p => exact (Cascade.one p).keeps_siuOk h
  | configure => exact ⟨h.pending, fun e => (by cases e), h.frame, h.shortage, h.thermal, h.cool, h.noBurst, h.burst, h.pre, h.waits⟩
  | shoot p hc he =>
    refine ⟨by simp [State.setEngine], fun e => ?_, h.frame, fun hs => ?_, h.thermal, h.cool, fun _ => ?_, h.burst, h.pre, h.waits⟩
    · exact absurd (hc.symm.trans e) (by decide)
    · have := h.shortage hs
      rw [he] at this
      cases this
    · simp [State.setEngine]
  | shootBlocked p he =>
    refine ⟨by simp [State.setEngine], fun e => ?_, h.frame, fun hs => ?_, h.thermal, h.cool, fun _ => ?_, h.burst, h.pre, h.waits⟩
    · have := (h.unconfigured e).1
      rw [he] at this
      cases this
    · have := h.shortage hs
      rw [he] at this
      cases this
    · simp [State.setEngine]
  | shootEnds hs =>
    refine ⟨by simp [State.setEngine], fun e => ⟨rfl, (h.unconfigured e).2⟩, h.frame, fun hb => ?_, h.thermal, h.cool,
      fun _ => (by simp [State.setEngine]), h.burst, h.pre, h.waits⟩
    have := h.shortage hb
    rw [h.pending.mpr hs] at this
    cases this
  | burstBegin b hc he ht hd hm hs =>
    refine ⟨?_, fun e => ?_, h.frame, fun _ => rfl, h.thermal, h.cool, fun e => absurd e ht, ⟨hd.1, hd.2, hm⟩, h.pre, h.waits⟩
    · have := h.pending
      rw [he] at this
      simpa using this
    · exact absurd (hc.symm.trans e) (by decide)
  | burstEnd he =>
    refine ⟨?_, fun e => ⟨rfl, (h.unconfigured e).2⟩, h.frame, fun e => (by cases e), h.thermal, h.cool,
      fun _ => (by simp [endBurst]), h.burst, h.pre, h.waits⟩
    have := h.pending
    rw [he] at this
    simpa [endBurst] using this
  | burstCount b hd hm hs =>
    refine ⟨h.pending, h.unconfigured, h.frame, fun e => ?_, h.thermal, h.cool, h.noBurst, ?_, h.pre, h.waits⟩
    · rcases hs e with hs | hs
      · exact h.shortage hs
      · exact hs
    · show 1 ≤ b.divisor ∧ b.divisor ≤ 16 ∧ b.maximum ≤ 999
      rw [hd, hm]
      exact h.burst
  | arm p hc ht hp hd =>
    exact ⟨h.pending, fun e => absurd (hc.symm.trans e) (by decide), h.frame, h.shortage, h.thermal, fun e => absurd ht e, h.noBurst,
      h.burst, ⟨hp, hd.1, hd.2⟩, h.waits⟩
  | disarm =>
    exact ⟨h.pending, fun e => ⟨(h.unconfigured e).1, rfl⟩, h.frame, h.shortage, h.thermal, fun _ => rfl, h.noBurst, h.burst, h.pre,
      h.waits⟩
  | preCount p ha hp hd =>
    refine ⟨h.pending, fun e => ⟨(h.unconfigured e).1, ha.trans (h.unconfigured e).2⟩, h.frame, h.shortage, h.thermal,
      fun e => ha.trans (h.cool e), h.noBurst, h.burst, ?_, h.waits⟩
    show p.depth ≤ 24 ∧ 1 ≤ p.divisor ∧ p.divisor ≤ 16
    rw [hp, hd]
    exact h.pre
  | newFrame f hc =>
    exact ⟨h.pending, h.unconfigured, fun _ e => (by cases e; exact ⟨rfl, fun _ => hc⟩), h.shortage, h.thermal, h.cool, h.noBurst, h.burst,
      h.pre, h.waits⟩
  | frameStep f g hf hn hm hc =>
    refine ⟨h.pending, h.unconfigured, fun _ e => ?_, h.shortage, h.thermal, h.cool, h.noBurst, h.burst, h.pre, h.waits⟩
    cases e
    rw [hn, hm, hc]
    exact h.frame f hf
  | noFrame =>
    exact ⟨h.pending, h.unconfigured, fun _ e => (by cases e), h.shortage, h.thermal, h.cool, h.noBurst, h.burst, h.pre, h.waits⟩
  | taken k f m c hf hm hs =>
    refine ⟨h.pending, h.unconfigured, fun _ e => ?_, h.shortage, h.thermal, h.cool, h.noBurst, h.burst, h.pre, h.waits⟩
    cases e
    exact ⟨(h.frame f hf).1, fun e => by rw [hm] at e; cases e⟩
  | siuCounts => exact ⟨h.pending, h.unconfigured, h.frame, h.shortage, h.thermal, h.cool, h.noBurst, h.burst, h.pre, h.waits⟩
  | waitLimit v hv => exact ⟨h.pending, h.unconfigured, h.frame, h.shortage, h.thermal, h.cool, h.noBurst, h.burst, h.pre, hv⟩
  | detach =>
    obtain ⟨h1, h2, h3⟩ := detachSession_frame s
    unfold State.siuOk
    rw [h1, h2, h3]
    exact h
  | failed hd i hi =>
    exact itemFailed_keeps (P := State.siuOk) (fun _ _ c => c.keeps_siuOk) (fun _ _ _ hs => hs) (fun _ _ hs => hs)
      (fun _ => suspendAutosend_keeps_siuOk) hi h
  | threshold v =>
    unfold takeThreshold
    dsimp only
    split
    · exact suspendAutosend_keeps_siuOk h
    · exact h
  | thermal d k => exact sampleTaken_keeps_siuOk d k h
  | tick =>
    refine ⟨?_, h.unconfigured, h.frame, h.shortage, h.thermal, h.cool, h.noBurst, h.burst, h.pre, h.waits⟩
    show _ ↔ (s.siu.shoot.map _).isSome = true
    rw [Option.isSome_map]
    exact h.pending
  | reset =>
    refine ⟨?_, fun _ => ⟨rfl, rfl⟩, fun _ e => (by cases e), fun e => (by cases e), rfl, fun _ => rfl, fun e => (by cases e), ?_, ?_, ?_⟩ <;>
      simp [resetPart, State.reset, Siu.reset, Burst.reset, Precapture.reset]
  | _ => exact h

end

end Sys2Proof.Machine
end

section
/-! SUPPORT. The pre-capture ring itself (R35, R36): what a discard leaves of it, what a frame taken by pre-capture adds; every command
keeps it within its depth. -/

namespace Sys2Proof.Machine

section
variable {s t : State}

/-! ## Discards -/

/-- A small change makes no new shot. -/
theorem Prim.shots_sublist (p : Prim s t) : (t.cat.records.map Record.shot).Sublist (s.cat.records.map Record.shot) := by
  cases p with
  | record n f => rw [updRecord_shots]
  | dropRecord n => exact List.filter_sublist.map _
  | _ => exact List.Sublist.refl _

theorem Cascade.keeps_nodup (c : Cascade s t) (h : (s.cat.records.map Record.shot).Nodup) :
    (t.cat.records.map Record.shot).Nodup :=
  c.keeps (P := fun x => (x.cat.records.map Record.shot).Nodup) (fun _ _ p h => h.sublist p.shots_sublist) h

theorem ring_dropRecord (s : State) (n : Nat) : (s.dropRecord n).ring = s.ring.filter (· != n) := by
  simp only [State.ring, State.dropRecord, State.updCat, List.filter_map, List.filter_filter, Function.comp_def]
  congr 2
  funext r
  exact Bool.and_comm _ _

theorem dropRecord_absent {n : Nat} (h : s.record n = none) : s.dropRecord n = s := by
  have : (s.cat.records.filter fun r => r.shot != n) = s.cat.records :=
    filter_absent (k := Record.shot) fun hm => by
      obtain ⟨r, hr, he⟩ := List.mem_map.mp hm
      exact record_none.mp h r hr he
  simp only [State.dropRecord, State.updCat, this]

/-- A record removed by discard is gone, whatever becomes of its raw (R49). -/
theorem removeRecord_cat (n : Nat) (s : State) : (removeRecord n s).cat = (s.dropRecord n).cat := by
  unfold removeRecord
  split
  case _ hr => rw [dropRecord_absent hr]
  · split
    case _ chain _ =>
      have same : ((releaseChain chain (s.updRecord n fun x => { x with raw := none })).dropRecord n).cat
          = ((s.updRecord n fun x => { x with raw := none }).dropRecord n).cat := by
        simp only [State.dropRecord, State.updCat_cat, releaseChain_cat]
      rw [same, updRecord_dropRecord]
    · rfl

/-- A discarded shot leaves the ring, at once or by its mark (R35, R49). -/
theorem discardMember_ring (hn : (s.cat.records.map Record.shot).Nodup) (n : Nat) :
    (discardMember n s).ring = s.ring.filter (· != n) := by
  unfold discardMember
  split
  case _ hr => rw [← ring_dropRecord, dropRecord_absent hr]
  case _ r hr =>
    split
    · rw [← ring_dropRecord, ring_congr (congrArg Cat.records (removeRecord_cat n s))]
    case isFalse hp =>
      have hp : r.state ≠ .provisional := by simpa using hp
      simp only [State.ring, updRecord_cat, State.updCat_cat, List.filter_map, List.filter_filter, List.map_map]
      have shot : ∀ x : Record, (x.changeAt n fun y => { y with mark := .discard }).shot = x.shot := fun x => by
        unfold Record.changeAt
        split <;> rfl
      rw [show Record.shot ∘ (Record.changeAt n fun y => { y with mark := .discard }) = Record.shot from funext shot]
      congr 1
      refine List.filter_congr fun x hx => ?_
      by_cases he : x.shot = n
      · obtain rfl := record_unique hn hr hx he
        simp [Record.changeAt, he, Record.updated, Record.inRing, hp]
      · simp [Record.changeAt, he]

theorem discardMembers_ring (hn : (s.cat.records.map Record.shot).Nodup) (ns : List Nat) :
    (discardMembers ns s).ring = s.ring.filter fun x => !ns.contains x := by
  induction ns generalizing s with
  | nil => simp [discardMembers]
  | cons n ns ih =>
    rw [discardMembers, ih ((discardMember_cascade n s).keeps_nodup hn), discardMember_ring hn, List.filter_filter]
    refine List.filter_congr fun x _ => ?_
    simp only [List.contains_cons, Bool.not_or, bne]
    exact Bool.and_comm _ _

/-- Every member discarded: the ring is empty (R30). -/
theorem disarmRing_ring (hn : (s.cat.records.map Record.shot).Nodup) : (disarmRing s).ring = [] := by
  have h : (disarmRing s).ring = s.ring.filter fun x => !s.ring.contains x := discardMembers_ring (s := s.updSiu _) hn s.ring
  rw [h]
  simp

/-- The oldest members discarded down to a depth (R30). -/
theorem discardDown_length (hn : (s.cat.records.map Record.shot).Nodup) (d : Nat) :
    (discardMembers (s.ring.take (s.ring.length - d)) s).ring.length ≤ d := by
  rw [discardMembers_ring hn]
  generalize s.ring = l
  have gone : ((l.take (l.length - d)).filter fun x => !(l.take (l.length - d)).contains x) = [] := by simp
  have cut : l.filter (fun x => !(l.take (l.length - d)).contains x)
      = (l.drop (l.length - d)).filter fun x => !(l.take (l.length - d)).contains x := by
    conv_lhs => rw [← List.take_append_drop (l.length - d) l, List.filter_append]
    simp
  rw [cut]
  refine (List.length_filter_le _ _).trans ?_
  rw [List.length_drop]
  omega

/-! ## The ring law under commands -/

theorem RingOk.of_noJoin (h : RingOk s) (n : NoJoin s t) : RingOk t where
  length := n.depth ▸ n.ring.length_le.trans h.length
  disarmed := fun e => List.sublist_nil.mp (h.disarmed (n.armed ▸ e) ▸ n.ring)

theorem RingOk.of_empty (h : t.ring = []) : RingOk t := ⟨by rw [h]; exact Nat.zero_le _, fun _ => h⟩

/-- Members discarded with pre-capture ARMED anew (R30). -/
theorem ownPrecapture_ringOk (hn : (s.cat.records.map Record.shot).Nodup) (h : RingOk s) (hd : Header) (a : Byte) (d v : Nat) :
    RingOk (ownPrecapture hd a d v s) := by
  unfold ownPrecapture
  split
  · exact h.of_noJoin ((NoJoin.refl s).refuse _ _ _)
  · exact (RingOk.of_empty (disarmRing_ring hn)).of_noJoin ((NoJoin.refl _).answer _ _ _)
  · split
    · exact h.of_noJoin ((NoJoin.refl s).refuse _ _ _)
    · split
      · exact h.of_noJoin ((NoJoin.refl s).refuse _ _ _)
      · extract_lets depth u
        refine RingOk.of_noJoin ?_ ((NoJoin.refl _).answer _ _ _)
        have siu := (discardMembers_cascade (u.ring.take (u.ring.length - depth)) u).frame.2.2.1
        refine ⟨?_, fun e => ?_⟩
        · rw [siu]
          exact discardDown_length (s := u) hn depth
        · rw [siu] at e
          cases e

theorem handThermalToSiu_ringOk (hn : (s.cat.records.map Record.shot).Nodup) (h : RingOk s) (p : Thermal) :
    RingOk (handThermalToSiu p s) := by
  have ends : ∀ u : State, RingOk u → RingOk (if p == .hot && u.siu.engine == .burst then endBurst u else u) := fun u hu => by
    split
    · exact ⟨hu.length, hu.disarmed⟩
    · exact hu
  refine ends _ ?_
  split
  · exact .of_empty (disarmRing_ring hn)
  · exact ⟨h.length, h.disarmed⟩

theorem sampleTaken_ringOk (hn : (s.cat.records.map Record.shot).Nodup) (h : RingOk s) (d k : Reading) :
    RingOk (sampleTaken d k s) := by
  unfold sampleTaken
  extract_lets previous u
  have hu : RingOk u := ⟨h.length, h.disarmed⟩
  split
  · exact hu
  · refine RingOk.of_noJoin (handThermalToSiu_ringOk (s := u) hn hu u.thm.part) ?_
    refine NoJoin.offerClass (NoJoin.cascade (.refl _) (handThermalToDve_cascade _ _) ?_) _ _
    unfold handThermalToDve
    split
    · rfl
    · exact applyThermal_cat _ _

/-! ## Frames -/

theorem NoJoin.readyEvent (h : NoJoin s t) (r : FrameResult) : NoJoin s (readyEvent r t) := by
  have watched : ∀ {u : State} (n : Notice), NoJoin s u → NoJoin s (offerWatch n u) := fun {u} n hu => by
    unfold offerWatch
    split
    · exact hu
    · exact (hu.offer _ _).updFe _
    · exact hu.offer _ _
  exact watched _ ((h.updFe _).fillFocus _)

theorem NoJoin.feFrameEnd (h : NoJoin s t) (n : Nat) (b : Bool) : NoJoin s (feFrameEnd n b t) := by
  unfold Machine.feFrameEnd
  refine NoJoin.updFe ?_ _
  split
  · exact (h.updFe _).readyEvent _
  · exact h

theorem NoJoin.endFrame (h : NoJoin s t) (f : Frame) (b : Bool) : NoJoin s (endFrame f b t) := by
  unfold Machine.endFrame
  split
  · exact (h.feFrameEnd _ _).setFrame _
  · exact (((h.updDram _).updSiu _).feFrameEnd _ _).setFrame _

theorem NoJoin.testCandidate (h : NoJoin s t) (focus locked : Bool) (m : Mode) : NoJoin s (testCandidate focus locked m t).2 := by
  have claimed : ∀ {u v : State} {c : List Nat}, NoJoin s u → spaceAndSlabs m u = some (c, v) → NoJoin s v := by
    intro u v c hu hc
    obtain ⟨-, -, -, -, rfl⟩ := spaceAndSlabs_some hc
    exact hu.updFsc _
  unfold Machine.testCandidate testSpace
  split
  · exact h
  · split
    case _ hc => exact claimed h hc
    · dsimp only
      split
      case _ hc => exact claimed (h.relieve _ _) hc
      · exact h.relieve _ _

/-- A frame taken as shot is no member (R35). -/
theorem NoJoin.takeShot (h : NoJoin s t) (f : Frame) (m : Mode) (c : List Nat) : NoJoin s (takeFrame .shot f m c t) := by
  refine h.trans ⟨?_, rfl, rfl⟩
  show List.Sublist (((t.cat.records ++ [newRecord t .shot m f.number c]).filter _).map _) _
  rw [List.filter_append, List.filter_cons_of_neg (by simp [newRecord, Record.inRing])]
  simp [State.ring]

/-- A frame taken by pre-capture is the newest member (R36). -/
theorem takePre_ring (f : Frame) (m : Mode) (c : List Nat) (s : State) : (takeFrame .pre f m c s).ring = s.ring ++ [s.cat.nextShot] := by
  show ((s.cat.records ++ [newRecord s .pre m f.number c]).filter _).map _ = _
  rw [List.filter_append, List.filter_cons_of_pos (by simp [newRecord, Record.inRing])]
  simp [State.ring, newRecord]

theorem NoJoin.failShoot (h : NoJoin s t) (p : PendingShoot) : NoJoin s (failShoot p t) :=
  (h.setEngine _ _).respond _ _ _ _ _ _

theorem NoJoin.decideShoot (h : NoJoin s t) (locked : Bool) (p : PendingShoot) (f : Frame) (m : Mode) :
    NoJoin s (decideShoot locked p f m t) := by
  have tested := h.testCandidate p.focus locked m
  unfold Machine.decideShoot
  split <;> (rename_i he; rw [he] at tested; dsimp only at tested ⊢)
  · exact ((tested.takeShot _ _ _).setEngine _ _).respond _ _ _ _ _ _
  · exact .either _ (tested.failShoot _) (tested.setEngine _ _)

theorem NoJoin.countBurstShot (h : NoJoin s t) : NoJoin s (countBurstShot t) :=
  .either _ (NoJoin.updSiu (h.updSiu _) _) (h.updSiu _)

theorem NoJoin.skipBurstFrame (h : NoJoin s t) (f : Frame) (b : Blocking) : NoJoin s (skipBurstFrame f b t) :=
  .either _ (NoJoin.offerClass (NoJoin.updSiu (h.updSiu _) _) _ _) (h.updSiu _)

theorem NoJoin.decideBurst (h : NoJoin s t) (locked : Bool) (f : Frame) (m : Mode) : NoJoin s (decideBurst locked f m t) := by
  unfold Machine.decideBurst
  extract_lets u
  have counted : NoJoin s u := h.updSiu _
  have tested := counted.testCandidate u.siu.burst.focus locked m
  split
  · split <;> (rename_i he; rw [he] at tested; dsimp only at tested)
    · exact (tested.takeShot _ _ _).countBurstShot
    · exact tested.skipBurstFrame _ _
  · exact counted

/-- Room is made in the ring before pre-capture takes a frame (R35, R36). -/
theorem decidePre_ringOk (hn : (s.cat.records.map Record.shot).Nodup) (h : RingOk s) (ha : s.siu.pre.armed = true) (f : Frame)
    (m : Mode) : RingOk (decidePre f m s) := by
  have armed : ∀ {u : State}, u.siu.pre.armed = true → u.ring.length ≤ u.siu.pre.depth → RingOk u := fun e hl =>
    ⟨hl, fun e' => absurd (e.symm.trans e') (by decide)⟩
  unfold decidePre
  extract_lets u v
  have hu : RingOk u := armed ha h.length
  split
  case isFalse => exact hu
  case isTrue hc =>
    have hd : 0 < u.siu.pre.depth := by simp only [Bool.and_eq_true, decide_eq_true_eq] at hc; exact hc.2
    -- the ring has room for one more
    have room : NoJoin u v ∧ v.ring.length + 1 ≤ v.siu.pre.depth := by
      have hl := hu.length
      cases hr : u.ring with
      | nil =>
        have hv : v = u := by simp only [v, hr]
        rw [hv, hr]
        exact ⟨.refl u, hd⟩
      | cons oldest rest =>
        have hv : v = if u.siu.pre.depth ≤ rest.length + 1 then discardMember oldest u else u := by simp only [v, hr]
        rw [hr, List.length_cons] at hl
        rw [hv]
        split
        · have gone := (NoJoin.refl u).discardMember oldest
          refine ⟨gone, ?_⟩
          rw [gone.depth, discardMember_ring (s := u) hn, hr, List.filter_cons_of_neg (by simp)]
          have := List.length_filter_le (fun x => x != oldest) rest
          omega
        · rw [hr, List.length_cons]
          exact ⟨.refl u, by omega⟩
    have harm : v.siu.pre.armed = true := room.1.armed.trans ha
    split
    case _ chain w hw =>
      obtain ⟨-, -, -, -, rfl⟩ := spaceAndSlabs_some hw
      refine armed harm ?_
      rw [takePre_ring, List.length_append]
      exact room.2
    · exact armed harm (by omega)

theorem decideCapture_ringOk (hn : (s.cat.records.map Record.shot).Nodup) (h : RingOk s) (locked : Bool) (f : Frame) :
    RingOk (decideCapture locked f s) := by
  unfold decideCapture
  split
  · exact h
  · split
    · exact h.of_noJoin ((NoJoin.refl s).decideShoot _ _ _ _)
    · exact h
    · exact h.of_noJoin ((NoJoin.refl s).decideBurst _ _ _)
    · split
      case isTrue ha => exact decidePre_ringOk hn h ha _ _
      · exact h

theorem frameStarts_ringOk (hc : catalogLaw s) (h : RingOk s) : RingOk (frameStarts s) := by
  have opened : ∀ u, catalogLaw u → NoJoin s u → ∀ n f, RingOk (decideCapture s.fe.locked f
      (feFrameStart n (u.updSiu fun x => { x with frameCounter := n, frame := some f }))) := fun u hu hn n f =>
    decideCapture_ringOk (s := feFrameStart n (u.updSiu fun x => { x with frameCounter := n, frame := some f })) hu.nodup
      (h.of_noJoin ((hn.updSiu _).updFe _)) _ _
  unfold frameStarts
  dsimp only
  split
  case _ f _ => exact opened _ ((endFrame_acts f true s).keeps (fun _ _ a => a.keeps_catalog) hc) ((NoJoin.refl s).endFrame f true) _ _
  · exact opened s hc (.refl s) _ _

/-! ## The other commands of the sensor link, the capture engine, the FE and the ports -/

theorem NoJoin.frameEnds (h : NoJoin s t) : NoJoin s (frameEnds t) := by
  unfold Machine.frameEnds
  split
  · exact h.endFrame _ _
  · exact h.updSiu _

theorem NoJoin.lineArrives (h : NoJoin s t) (i : Nat) (xs : List Sample) : NoJoin s (lineArrives i xs t) := by
  unfold Machine.lineArrives
  split
  · exact h.updSiu _
  · split
    · exact h
    · exact (h.setFrame _).updDram _

theorem NoJoin.focusReady (h : NoJoin s t) : NoJoin s (focusReady t) := by
  unfold Machine.focusReady
  split
  · exact (h.updFe _).readyEvent _
  · exact h

theorem NoJoin.rawCompletes (h : NoJoin s t) (hn : (t.cat.records.map Record.shot).Nodup) : NoJoin s (rawCompletes t) := by
  unfold Machine.rawCompletes
  split
  · exact h
  case _ e es _ =>
    refine NoJoin.reportRaw ((h.updSiu _).cascade (settleReleases_cascade _ _) (settleReleases_cat _ _)) ?_ _
    rw [settleReleases_cat]
    exact hn

theorem NoJoin.waitExpires (h : NoJoin s t) : NoJoin s (waitExpires t) := by
  unfold Machine.waitExpires
  split
  · exact .either _ (h.failShoot _) h
  · exact h

theorem NoJoin.ownShoot (h : NoJoin s t) (hd : Header) (b : Byte) : NoJoin s (ownShoot hd b t) := by
  unfold Machine.ownShoot
  split
  · exact h.refuse _ _ _
  · exact .either _ (h.refuse _ _ _) (.either _ (h.refuse _ _ _) (h.promoteRing.setEngine _ _))

theorem NoJoin.ownBurstBegin (h : NoJoin s t) (hd : Header) (d m : Nat) (b : Byte) : NoJoin s (ownBurstBegin hd d m b t) := by
  unfold Machine.ownBurstBegin
  split
  · exact h.refuse _ _ _
  · exact .either _ (h.refuse _ _ _) (.either _ (h.refuse _ _ _) (.either _ (h.refuse _ _ _)
      ((h.promoteRing.updSiu _).answer _ _ _)))

theorem NoJoin.ownBurstEnd (h : NoJoin s t) (hd : Header) : NoJoin s (ownBurstEnd hd t) :=
  (NoJoin.either _ (h.updSiu _) h).answer _ _ _

theorem NoJoin.ownConfigureStore (h : NoJoin s t) (hd : Header) (n : Half) (m : Byte) : NoJoin s (ownConfigureStore hd n m t) := by
  unfold Machine.ownConfigureStore
  split
  · exact .either _ (h.refuse _ _ _) ((h.updFsc _).answer _ _ _)
  · exact h.refuse _ _ _

theorem NoJoin.ownSetZones (h : NoJoin s t) (hd : Header) (zs : List ZoneOps) : NoJoin s (ownSetZones hd zs t) := by
  unfold Machine.ownSetZones
  split
  · exact .either _ ((h.updFe _).answer _ _ _) (h.refuse _ _ _)
  · exact h.refuse _ _ _

theorem NoJoin.ownSetFocus (h : NoJoin s t) (hd : Header) (o : FocusOps) : NoJoin s (ownSetFocus hd o t) := by
  unfold Machine.ownSetFocus
  split
  · exact (h.updFe _).answer _ _ _
  · exact h.refuse _ _ _

theorem NoJoin.ownLensState (h : NoJoin s t) (hd : Header) (o : LensOps) : NoJoin s (ownLensState hd o t) := by
  unfold Machine.ownLensState
  split
  · exact h.refuse _ _ _
  · exact .either _ (h.refuse _ _ _) ((h.updFe _).answer _ _ _)

theorem NoJoin.ownWatch (h : NoJoin s t) (hd : Header) (m : Byte) : NoJoin s (ownWatch hd m t) := by
  unfold Machine.ownWatch
  split
  · exact h.refuse _ _ _
  · exact .either _ (h.refuse _ _ _) ((h.updFe _).answer _ _ _)

theorem NoJoin.ownSetDevelop (h : NoJoin s t) (hd : Header) (o : SettingsOps) : NoJoin s (ownSetDevelop hd o t) := by
  unfold Machine.ownSetDevelop
  split
  · exact h.refuse _ _ _
  · exact (h.updDve _).answer _ _ _

theorem NoJoin.ownLoadTone (h : NoJoin s t) (hd : Header) (k f c : Nat) (es : List Byte) : NoJoin s (ownLoadTone hd k f c es t) :=
  .either _ (h.refuse _ _ _) (.either _ (h.refuse _ _ _) (.either _ (h.refuse _ _ _) ((h.updDve _).answer _ _ _)))

theorem NoJoin.ownSetParams (h : NoJoin s t) (hd : Header) (o : ParamsOps) : NoJoin s (ownSetParams hd o t) := by
  unfold Machine.ownSetParams
  split
  · exact h.refuse _ _ _
  · exact (h.takeParams _).answer _ _ _

/-! ## All commands -/

/-- No owner but that of PRECAPTURE makes a member. -/
theorem NoJoin.ownerAct (h : NoJoin s t) (c : Instr) (hc : ∀ hd a d v, c ≠ .precapture hd a d v) : NoJoin s (ownerAct c t) := by
  cases c with
  | precapture hd action depth divisor => exact absurd rfl (hc hd action depth divisor)
  | blockRead hd slot first count => exact h.ownBlockRead _ _ _ _
  | blockWrite hd slot first count frame => exact h.ownBlockWrite _ _ _ _ _
  | burstBegin hd divisor maximum focus => exact h.ownBurstBegin _ _ _ _
  | burstEnd hd => exact h.ownBurstEnd _
  | cancelItem hd serial => exact h.ownCancelItem _ _
  | closeSession hd => exact h.detachIfAttached.answer _ _ _
  | closeSlot hd slot => exact h.ownCloseSlot _ _
  | configureStore hd slabs mode => exact h.ownConfigureStore _ _ _
  | delete hd shot => exact h.ownDelete _ _
  | develop hd ops => exact h.ownDevelop _ _
  | fetchNotices hd maximum => exact (h.updPtc _).answer _ _ _
  | getStatus hd => exact h.answer _ _ _
  | getZoneMap hd => exact h.answer _ _ _
  | grantExtents hd slot count extents => exact h.ownGrantExtents _ _ _ _
  | hold hd shot => exact h.ownHold _ _
  | identify hd => exact h.answer _ _ _
  | itemResult hd serial outcome => exact h.ownItemResult _ _ _
  | lensState hd ops => exact h.ownLensState _ _
  | listShots hd first maximum => exact h.answer _ _ _
  | loadTone hd table first count entries => exact h.ownLoadTone _ _ _ _ _
  | noticeClasses hd thermal shortage slotState autosend => exact h.ownNoticeClasses _ _ _ _ _
  | openSession hd => exact h.ownOpenSession _
  | openSlot hd slot => exact h.ownOpenSlot _ _
  | protect hd shot action => exact h.ownProtect _ _ _
  | readProof hd shot => exact h.ownRead _ _ _ _
  | readRaw hd shot => exact h.ownRead _ _ _ _
  | rearmAutosend hd backfill => exact h.ownRearmAutosend _ _
  | retryCard hd shot slot => exact h.ownRetryCard _ _ _
  | sendShot hd shot content cls => exact h.ownSendShot _ _ _ _
  | setDevelop hd ops => exact h.ownSetDevelop _ _
  | setFocus hd ops => exact h.ownSetFocus _ _
  | setParams hd ops => exact h.ownSetParams _ _
  | setRule hd index ops => exact h.ownSetRule _ _ _
  | setTags hd shot setMask clearMask rating => exact h.ownSetTags _ _ _ _ _
  | setZones hd entries => exact h.ownSetZones _ _
  | shoot hd focus => exact h.ownShoot _ _
  | shotInfo hd shot => exact h.ownShotInfo _ _
  | slotFull hd slot => exact h.ownSlotFull _ _
  | takeNext hd => exact h.ownTakeNext _
  | unhold hd shot => exact h.ownUnhold _ _
  | unwatch hd => exact (h.updFe _).answer _ _ _
  | waiveCard hd shot slot => exact h.ownWaiveCard _ _ _
  | watch hd mode => exact h.ownWatch _ _
  | _ => exact h

/-- What the owner keeps, a request keeps that is refused or passes the session check (R158, R188). -/
theorem takeRequest_keeps {P : State → Prop} {r : Request} {hd : Header} {fits : Bool} {owner : State → State}
    (refused : ∀ x, P (s.refuse r hd x)) (silence : P (owner (startSilence s))) (plain : P (owner s)) :
    P (takeRequest r hd fits owner s) := by
  unfold takeRequest throughSession
  split
  · exact refused _
  · split
    · exact refused _
    · split
      · split
        · exact silence
        · split
          · exact plain
          · exact refused _
      · exact plain

/-- A request keeps the ring's law. -/
theorem request_ringOk (hn : (s.cat.records.map Record.shot).Nodup) (h : RingOk s) {c : Instr} {r : Request} {hd : Header}
    (hc : c.asRequest = some (r, hd)) (ht : exec c s = .next t) : RingOk t := by
  rw [exec_request hc] at ht
  cases ht
  have silenced : NoJoin s (startSilence s) := (NoJoin.refl s).startSilence
  by_cases hp : ∃ hd a d v, c = .precapture hd a d v
  · obtain ⟨hd', a, d, v, rfl⟩ := hp
    exact takeRequest_keeps (fun _ => h.of_noJoin ((NoJoin.refl s).refuse _ _ _))
      (ownPrecapture_ringOk (s := startSilence s) hn (h.of_noJoin silenced) _ _ _ _) (ownPrecapture_ringOk hn h _ _ _ _)
  · have hp : ∀ hd a d v, c ≠ .precapture hd a d v := fun hd a d v e => hp ⟨hd, a, d, v, e⟩
    exact h.of_noJoin (takeRequest_keeps (P := NoJoin s) (fun _ => (NoJoin.refl s).refuse _ _ _) (silenced.ownerAct c hp)
      ((NoJoin.refl s).ownerAct c hp))

/-- An event keeps the ring's law. -/
theorem event_ringOk (hs : catalogLaw s) (h : RingOk s) {c : Instr} (hc : c.asRequest = none) (ht : exec c s = .next t) : RingOk t := by
  have n := NoJoin.refl s
  cases c <;> cases hc <;> cases ht
  case frameStart => exact frameStarts_ringOk hs h
  case thermalSample =>
    split
    · exact sampleTaken_ringOk hs.nodup h _ _
    · exact h
  case resetLine => exact .of_empty rfl
  all_goals refine h.of_noJoin ?_
  case unknownKindMessage => exact n.send _ _
  case strayDataFrame => exact n
  case line => exact n.lineArrives _ _
  case frameEnd => exact n.frameEnds
  case afPacket => exact .either _ (.either _ (n.updFe _) n) n
  case rawCompletion => exact n.rawCompletes hs.nodup
  case focusResultReady => exact n.focusReady
  case stripeCompletion => exact n.stripeDone
  case cardChunkCompletion => exact n.chunkDone _
  case blockRequestCompletion => exact n.blockDone _ _
  case cardErrorCompletion => exact .either _ (n.faultSlot _ _) n
  case cardStallExpiry => exact .either _ (n.faultSlot _ _) n
  case cardInsert => exact .either _ ((n.updSlot _ _).moveSlot _ _) (n.updSlot _ _)
  case cardRemoval => exact n.cardRemoved _
  case tetherChunkCompletion => exact n.tetherChunkDone
  case readFrameCompletion => exact n.readFrameDone
  case silenceExpiry => exact .either _ n.detachSession n
  case shotWaitExpiry => exact n.waitExpires
  case usbBusReset => exact n.detachIfAttached.updPtc _
  case tetherCableLoss => exact n.detachIfAttached.updPtc _
  case lensDetach => exact (n.updFe _).updPtc _
  case lensAttach => exact n.updFe _
  case chainLastAccessCompletion => exact n.lastAccessDone _
  case timeBaseTick => exact n.same rfl rfl
  case chunkRawReadCompletion => exact n.chunkRead _

theorem exec_keeps_capture {c : Instr} (hc : catalogLaw s) (h : captureLaw s) (ht : exec c s = .next t) : captureLaw t := by
  obtain ⟨hsiu, hring⟩ := (captureLaw_iff s).mp h
  refine (captureLaw_iff t).mpr ⟨(exec_acts ht).keeps (P := State.siuOk) (fun _ _ a => a.keeps_siuOk) hsiu, ?_⟩
  cases hr : c.asRequest with
  | none => exact event_ringOk hc hring hr ht
  | some rh => exact request_ringOk hc.nodup hring hr ht

end

/-- Settles O57: every change keeps the SIU's part of the law (`Act.keeps_siuOk`), and every command the ring within its depth. -/
theorem captureKeepsItsLaw : Obligations.CaptureKeepsItsLaw := by
  intro s t h hc hl
  unfold step at h
  split at h
  · cases h
    exact hl
  case _ c rest _ => exact exec_keeps_capture (s := { s with pending := rest }) hc hl h

end Sys2Proof.Machine
end

section
/-! SUPPORT. The frame in progress, line by line (R15 to R21), and what a frame end leaves (R20, R24, R74, R75): the placement of a line,
the rows filled with BL, the hand-over to the FE. -/

namespace Sys2Proof.Machine

/-! ## BL and the rows of a taken frame (R18 to R20) -/

/-- The BL a frame has, or has once its OB part is closed (R19). -/
def Frame.finalBl (f : Frame) (m : Mode) : Nat := f.bl.getD (min 4095 ((f.obSum + m.obPixels / 2) / m.obPixels))

theorem clampNat_zero (hi v : Nat) : clampNat 0 hi v = min hi v := by
  unfold clampNat
  split
  · omega
  · split <;> omega

theorem clampNat_eq {lo hi : Nat} (h : lo ≤ hi) (v : Nat) : clampNat lo hi v = max lo (min hi v) := by
  unfold clampNat
  split
  · omega
  · split <;> omega

theorem Frame.closeOb_eq (f : Frame) (m : Mode) : f.closeOb m = { f with bl := some (f.finalBl m) } := by
  unfold Frame.closeOb Frame.finalBl
  split
  case _ b hb => rw [hb]; cases f; cases hb; rfl
  case _ hb => rw [hb, blackLevel, clampNat_zero]; rfl

/-- The bytes of a row of samples of one value. -/
def blankRow (m : Mode) (bl : Nat) : List Byte := packRow (List.replicate m.width (BitVec.ofNat 14 bl))

theorem writeRow_taken {f : Frame} {c : Capture} (hc : f.capture = some c) (m : Mode) (r : Nat) (xs : List Sample) (d : Memory) :
    writeRow f m r xs d = writeChain d c.chain (r * m.rowBytes) (packRow xs) := by
  unfold writeRow
  rw [hc]

theorem writeRow_untaken {f : Frame} (hc : f.capture = none) (m : Mode) (r : Nat) (xs : List Sample) (d : Memory) :
    writeRow f m r xs d = d := by
  unfold writeRow
  rw [hc]

/-- Rows filled one after the other, as one fold over their numbers. -/
theorem fillRows_taken {f : Frame} {c : Capture} {bl : Nat} (hc : f.capture = some c) (hb : f.bl = some bl) (m : Mode) (n r : Nat)
    (d : Memory) :
    fillRows f m n r d
      = (List.range n).foldl (fun d i => writeChain d c.chain ((r + i) * m.rowBytes) (blankRow m bl)) d := by
  induction n generalizing r d with
  | zero => rfl
  | succ n ih =>
    rw [fillRows, ih, List.range_succ_eq_map, List.foldl_cons, List.foldl_map, writeRow_taken hc]
    simp only [Frame.level, hb, Option.getD_some, Nat.add_zero, Nat.succ_eq_add_one, Nat.add_assoc, Nat.add_comm 1, blankRow]

theorem fillRows_untaken {f : Frame} (hc : f.capture = none) (m : Mode) (n r : Nat) (d : Memory) : fillRows f m n r d = d := by
  induction n generalizing r d with
  | zero => rfl
  | succ n ih => rw [fillRows, ih, writeRow_untaken hc]

theorem fillLines_taken {f : Frame} {c : Capture} {bl : Nat} (hc : f.capture = some c) (hb : f.bl = some bl) (m : Mode) (lo hi : Nat)
    (d : Memory) :
    fillLines f m lo hi d = (List.range (hi - max lo 16)).foldl
      (fun d i => writeChain d c.chain ((max lo 16 - 16 + i) * m.rowBytes) (blankRow m bl)) d := fillRows_taken hc hb m _ _ d

theorem fillLines_untaken {f : Frame} (hc : f.capture = none) (m : Mode) (lo hi : Nat) (d : Memory) : fillLines f m lo hi d = d :=
  fillRows_untaken hc m _ _ d

/-- With no active line missing nothing is filled. -/
theorem fillLines_none {f : Frame} {m : Mode} {lo hi : Nat} (h : hi ≤ max lo 16) (d : Memory) : fillLines f m lo hi d = d := by
  unfold fillLines
  rw [show hi - max lo obLines = 0 from Nat.sub_eq_zero_of_le h]
  rfl

/-! ## A line in its place (R17) -/

theorem markLong_eq (f : Frame) (b : Prop) [Decidable b] :
    (if b then { f with framingFault := true } else f) = { f with framingFault := f.framingFault || decide b } := by
  split
  case isTrue h => simp [h]
  case isFalse h => simp [h]

theorem takeLine_ob {f : Frame} {m : Mode} {k : Nat} (hk : k < 16) (xs : List Sample) (d : Memory) :
    takeLine f m k xs d = ({ f with obSum := f.obSum + sampleSum (xs.take m.width), nextLine := k + 1,
                                    framingFault := f.framingFault || decide (m.width < xs.length) }, d) := by
  unfold takeLine
  rw [markLong_eq, if_pos (show k < obLines from hk)]

/-- The W samples an active line leaves in its row. -/
def lineSamples (m : Mode) (bl : Nat) (xs : List Sample) : List Sample :=
  xs.take m.width ++ List.replicate (m.width - xs.length) (BitVec.ofNat 14 bl)

theorem takeLine_active {f : Frame} {m : Mode} {k : Nat} (hk : 16 ≤ k) (xs : List Sample) (d : Memory) :
    takeLine f m k xs d = ({ f with bl := some (f.finalBl m), nextLine := k + 1,
                                    framingFault := f.framingFault || decide (m.width < xs.length) },
      writeRow f m (k - 16) (lineSamples m (f.finalBl m) xs) d) := by
  unfold takeLine
  rw [markLong_eq, if_neg (show ¬ k < obLines from Nat.not_lt.mpr hk), Frame.closeOb_eq]
  rfl

theorem obLines_lt (m : Mode) : 16 < m.lines := by cases m <;> decide

/-- The expected line is taken as it comes. -/
theorem placeLine_expected {f : Frame} {m : Mode} {k : Nat} (hk : k = f.nextLine) (hl : k < m.lines) (xs : List Sample) (d : Memory) :
    placeLine f m k xs d = takeLine f m k xs d := if_pos ⟨hk, hl⟩

/-- A line that repeats is dropped and marks the frame. -/
theorem placeLine_repeated {f : Frame} {m : Mode} {k : Nat} (hk : k < f.nextLine) (xs : List Sample) (d : Memory) :
    placeLine f m k xs d = ({ f with framingFault := true }, d) := by
  unfold placeLine
  rw [if_neg (by omega), if_pos hk]

/-- An OB line above the expected one: the missing ones are OB lines too, and nothing is filled. -/
theorem placeLine_laterOb {f : Frame} {m : Mode} {k : Nat} (hn : f.nextLine < k) (hk : k < 16) (xs : List Sample) (d : Memory) :
    placeLine f m k xs d = ({ f with obSum := f.obSum + sampleSum (xs.take m.width), nextLine := k + 1, framingFault := true }, d) := by
  have hl := obLines_lt m
  unfold placeLine
  rw [if_neg (by omega), if_neg (by omega), if_pos (by omega)]
  dsimp only
  rw [if_neg (show ¬ obLines ≤ k from Nat.not_le.mpr hk), takeLine_ob hk, fillLines_none (by omega)]
  rfl

/-- An active line above the expected one: the OB part closes, the missing active lines are filled, and the line is taken. -/
theorem placeLine_laterActive {f : Frame} {m : Mode} {k : Nat} (hn : f.nextLine < k) (hk : 16 ≤ k) (hl : k < m.lines)
    (xs : List Sample) (d : Memory) :
    placeLine f m k xs d = ({ f with bl := some (f.finalBl m), nextLine := k + 1, framingFault := true },
      writeRow f m (k - 16) (lineSamples m (f.finalBl m) xs)
        (fillLines { f with framingFault := true, bl := some (f.finalBl m) } m f.nextLine k d)) := by
  unfold placeLine
  rw [if_neg (by omega), if_neg (by omega), if_pos hl]
  dsimp only
  rw [if_pos (show obLines ≤ k from hk), takeLine_active hk, Frame.closeOb_eq]
  rfl

/-- A line of index L or above is dropped and marks the frame; it closes the OB part, or not (log 8). -/
theorem placeLine_stray {f : Frame} {m : Mode} {k : Nat} (hn : f.nextLine ≤ k) (hl : m.lines ≤ k) (xs : List Sample) (d : Memory) :
    ∃ b, (b = f.bl ∨ b = some (f.finalBl m)) ∧ placeLine f m k xs d = ({ f with framingFault := true, bl := b }, d) := by
  unfold placeLine
  rw [if_neg (by omega), if_neg (by omega), if_neg (by omega)]
  dsimp only
  rw [Frame.closeOb_eq]
  split
  · exact ⟨_, .inr rfl, rfl⟩
  · exact ⟨_, .inl rfl, rfl⟩

/-- A line at a frame with a mode goes where `placeLine` puts it, and changes nothing else. -/
theorem exec_line {s : State} {f : Frame} {m : Mode} (hf : s.siu.frame = some f) (hm : f.mode = some m) {k : Nat} {xs : List Sample}
    {g : Frame} {d : Memory} (h : placeLine f m k xs s.dram = (g, d)) :
    exec (.line k xs) s = .next { s with siu := { s.siu with frame := some g }, dram := d } := by
  show Host.Outcome.next (lineArrives k xs s) = _
  unfold lineArrives
  simp only [hf, hm, h]
  rfl

theorem lineArrives_noFrame {s : State} (hf : s.siu.frame = none) (k : Nat) (xs : List Sample) :
    lineArrives k xs s = s.updSiu fun q => { q with syncFaults := sat16 q.syncFaults } := by
  unfold lineArrives
  rw [hf]

theorem lineArrives_noMode {s : State} {f : Frame} (hf : s.siu.frame = some f) (hm : f.mode = none) (k : Nat) (xs : List Sample) :
    lineArrives k xs s = s := by
  unfold lineArrives
  rw [hf]
  dsimp only
  rw [hm]

/-- Settles O18, by the placements of `placeLine`. -/
theorem linePlacement : Obligations.LinePlacement := by
  intro k xs s
  refine ⟨fun hf => ?_, fun f hf => ⟨fun hm => ?_, fun m hm => ?_⟩⟩
  · show Host.Outcome.next (lineArrives k xs s) = _
    rw [lineArrives_noFrame hf]
    rfl
  · show Host.Outcome.next (lineArrives k xs s) = _
    rw [lineArrives_noMode hf hm]
  · refine ⟨fun hk h16 => ?_, fun hk h16 hl => ?_, fun hk => ?_, fun hk h16 => ?_, fun hk h16 hl => ?_, fun hk hl => ?_⟩
    · have hl := obLines_lt m
      exact exec_line hf hm ((placeLine_expected hk (by omega) xs _).trans (takeLine_ob h16 xs _))
    · refine exec_line hf hm (((placeLine_expected hk hl xs s.dram).trans (takeLine_active h16 xs _)).trans (congrArg _ ?_))
      split
      case _ c hc => exact writeRow_taken hc ..
      case _ hc => exact writeRow_untaken hc ..
    · exact exec_line hf hm (placeLine_repeated hk xs _)
    · exact exec_line hf hm (placeLine_laterOb hk h16 xs _)
    · refine exec_line hf hm ((placeLine_laterActive hk h16 hl xs _).trans (congrArg _ ?_))
      split
      case _ c hc => rw [writeRow_taken hc, fillLines_taken (by exact hc) rfl]; rfl
      case _ hc => rw [writeRow_untaken hc, fillLines_untaken (by exact hc)]
    · obtain ⟨b, hb, hp⟩ := placeLine_stray hk hl xs s.dram
      exact ⟨b, hb, exec_line hf hm hp⟩

/-- Settles O21, by the three tests of a packet. -/
theorem afPacketKept : Obligations.AfPacketKept := by
  intro zone left right s
  refine ⟨fun hl hr hf hz => ?_, fun h => ?_⟩
  · show Host.Outcome.next (if s.siu.frame.isSome && decide (zone < 48) then _ else s) = _
    rw [if_pos (by simpa [hf] using hz), fePacket, if_pos (by simp [hl, hr])]
    rfl
  · show Host.Outcome.next (if s.siu.frame.isSome && decide (zone < 48) then _ else s) = _
    split
    case isFalse => rfl
    case isTrue ht =>
      obtain ⟨hf, hz⟩ : s.siu.frame.isSome = true ∧ zone < 48 := by simpa using ht
      rw [fePacket, if_neg]
      intro hb
      obtain ⟨hl, hr⟩ : left.length = 64 ∧ right.length = 64 := by simpa using hb
      rcases h with h | h | h | h
      · exact h hl
      · exact h hr
      · simp [h] at hf
      · omega

end Sys2Proof.Machine
end

section
/-! SUPPORT. The end of a frame: the hand-over to the FE with the overrun of a computation in flight (R75), the counts and the rows
that a frame cut short leaves (R16, R20), and FRAME_END. -/

namespace Sys2Proof.Machine

/-! ## The FE takes a frame end (R75) -/

/-- What a frame end at the FE finds in it: its inputs and the computation in flight. -/
def Fe.sameInputs (f g : Fe) : Prop :=
  g.zones = f.zones ∧ g.params = f.params ∧ g.lens = f.lens ∧ g.collect = f.collect ∧ g.overruns = f.overruns

theorem Fe.lose_sameInputs (f : Fe) : f.sameInputs f.lose := by
  unfold Fe.lose
  dsimp only
  split <;> exact ⟨rfl, rfl, rfl, rfl, rfl⟩

theorem Fe.lockStep_sameInputs (f : Fe) (d : Option Int) : f.sameInputs (f.lockStep d) := by
  unfold Fe.lockStep
  split
  · extract_lets n
    split <;> exact ⟨rfl, rfl, rfl, rfl, rfl⟩
  · extract_lets n
    split <;> exact ⟨rfl, rfl, rfl, rfl, rfl⟩

/-- A computation cut short has no candidate: none of its zones is VALID (R75). -/
theorem candidates_uniform {st : ZoneState} (h : st ≠ .valid) (k : Nat) (zs : List Zone) : candidates k (uniformZones st zs) = [] := by
  induction zs generalizing k with
  | nil => rfl
  | cons z zs ih =>
    rw [uniformZones, List.map_cons, candidates]
    split
    case _ hs _ _ _ _ _ => simp only [ZoneResult.plain] at hs; split at hs <;> simp_all
    case _ => exact ih (k + 1)

theorem overrun_noneValid (l : Latched) : (if l.lens.isNone then ZoneState.noLens else .noData) ≠ .valid := by
  split <;> decide

theorem followSubject_overrun (f : Fe) (l : Latched) : f.followSubject (overrunResult l) = (none, f.lose) := by
  unfold Fe.followSubject overrunResult
  rw [candidates_uniform (overrun_noneValid l)]
  rfl

/-- What is published of a computation cut short: no selection, no zone with a figure (R75, R98). -/
def overrunPublication (l : Latched) (locked : Bool) : Publication :=
  { summary := summarize (overrunResult l) none locked
    map := (overrunResult l).zones.map fun z => { state := z.state, p := z.p, q := z.q } }

theorem Fe.published_overrun (f : Fe) (l : Latched) :
    f.sameInputs (f.published (overrunResult l)) ∧ ∃ locked, (f.published (overrunResult l)).latest = some (overrunPublication l locked) := by
  unfold Fe.published
  dsimp only
  rw [followSubject_overrun]
  obtain ⟨hz, hp, hl, hc, ho⟩ := f.lose_sameInputs
  obtain ⟨hz', hp', hl', hc', ho'⟩ := f.lose.lockStep_sameInputs none
  exact ⟨⟨hz'.trans hz, hp'.trans hp, hl'.trans hl, hc'.trans hc, ho'.trans ho⟩, _, rfl⟩

theorem overrunPublication_validCount (l : Latched) (locked : Bool) : (overrunPublication l locked).summary.validCount = 0 := by
  show ((uniformZones _ l.zones).filter _).length = 0
  rw [List.length_eq_zero_iff, List.filter_eq_nil_iff]
  intro z hz
  obtain ⟨y, -, rfl⟩ := List.mem_map.mp hz
  simp only [ZoneResult.plain]
  split
  · split <;> decide
  · decide

theorem overrunPublication_map (l : Latched) (locked : Bool) : (overrunPublication l locked).map = l.zones.map fun z =>
    { state := if z.active = false then .inactive else if l.lens = none then .noLens else .noData, p := none, q := none } := by
  show ((uniformZones _ l.zones).map _) = _
  rw [uniformZones, List.map_map]
  refine List.map_congr_left fun z _ => ?_
  cases ha : z.active <;> cases hl : l.lens <;> simp [ZoneResult.plain, ha]

/-- What a frame end at the FE may change beside the FE: focus records and the notice queues. -/
structure OutsideFe (s t : State) : Prop where
  siu : t.siu = s.siu
  dram : t.dram = s.dram
  fsc : t.fsc = s.fsc
  ttc : t.ttc = s.ttc
  thm : t.thm = s.thm
  pending : t.pending = s.pending
  timeBase : t.ptc.timeBase = s.ptc.timeBase

theorem OutsideFe.refl (s : State) : OutsideFe s s := ⟨rfl, rfl, rfl, rfl, rfl, rfl, rfl⟩

theorem OutsideFe.trans {s t u : State} (h : OutsideFe s t) (k : OutsideFe t u) : OutsideFe s u :=
  ⟨k.siu.trans h.siu, k.dram.trans h.dram, k.fsc.trans h.fsc, k.ttc.trans h.ttc, k.thm.trans h.thm, k.pending.trans h.pending,
   k.timeBase.trans h.timeBase⟩

theorem OutsideFe.updFe (s : State) (f : Fe → Fe) : OutsideFe s (s.updFe f) := ⟨rfl, rfl, rfl, rfl, rfl, rfl, rfl⟩

theorem fillFocus_outsideFe (w : FocusSummary) (s : State) : OutsideFe s (fillFocus w s) ∧ (fillFocus w s).fe = s.fe := by
  unfold fillFocus
  split <;> exact ⟨⟨rfl, rfl, rfl, rfl, rfl, rfl, rfl⟩, rfl⟩

theorem offerWatch_outsideFe (n : Notice) (s : State) :
    OutsideFe s (offerWatch n s) ∧ ∃ w, (offerWatch n s).fe = { s.fe with watch := w } := by
  unfold offerWatch
  split
  · exact ⟨.refl s, s.fe.watch, rfl⟩
  · exact ⟨⟨rfl, rfl, rfl, rfl, rfl, rfl, rfl⟩, _, rfl⟩
  · exact ⟨⟨rfl, rfl, rfl, rfl, rfl, rfl, rfl⟩, s.fe.watch, rfl⟩

/-- A ready event changes the FE to what is published, but for the watch, and else only what `OutsideFe` leaves out (R90). -/
theorem readyEvent_outsideFe (r : FrameResult) (s : State) :
    OutsideFe s (readyEvent r s) ∧ ∃ w, (readyEvent r s).fe = { s.fe.published r with watch := w } := by
  let summary := summarize r (s.fe.followSubject r).1 ((s.fe.followSubject r).2.lockStep ((s.fe.followSubject r).1.map Selection.d)).locked
  let u := s.updFe fun _ => s.fe.published r
  have he : readyEvent r s = offerWatch (.focusResult summary) (fillFocus summary u) := rfl
  obtain ⟨filled, hf⟩ := fillFocus_outsideFe summary u
  obtain ⟨watched, w, hw⟩ := offerWatch_outsideFe (.focusResult summary) (fillFocus summary u)
  rw [he]
  exact ⟨((OutsideFe.updFe s _).trans filled).trans watched, w, by rw [hw, hf]; rfl⟩

/-- With no computation in flight a frame end latches, and nothing else changes (R75). -/
theorem feFrameEnd_idle {s : State} (h : s.fe.inFlight = none) (n : Nat) (b : Bool) :
    feFrameEnd n b s = s.updFe fun f => f.latch n b := by
  unfold feFrameEnd
  rw [h]
  rfl

/-- The latch of a frame end (R75). -/
def Fe.latchedFrame (f : Fe) (n : Nat) (b : Bool) : Latched :=
  { frame := n, truncated := b, packets := f.collect, zones := f.zones, lens := f.lens, far := f.params.far, near := f.params.near }

/-- What a frame end at the FE leaves there (R75). -/
structure FrameEndAtFe (n : Nat) (b : Bool) (f g : Fe) : Prop where
  inFlight : g.inFlight = some (f.latchedFrame n b)
  collectFrame : g.collectFrame = none
  collect : g.collect = List.replicate 48 none
  zones : g.zones = f.zones
  params : g.params = f.params
  lens : g.lens = f.lens
  idle : f.inFlight = none → g.latest = f.latest ∧ g.overruns = f.overruns
  overrun : ∀ l, f.inFlight = some l → g.overruns = sat16 f.overruns ∧ ∃ locked, g.latest = some (overrunPublication l locked)

theorem feFrameEnd_atFe (n : Nat) (b : Bool) (s : State) :
    OutsideFe s (feFrameEnd n b s) ∧ FrameEndAtFe n b s.fe (feFrameEnd n b s).fe := by
  cases h : s.fe.inFlight with
  | none =>
    rw [feFrameEnd_idle h]
    exact ⟨.updFe s _, rfl, rfl, rfl, rfl, rfl, rfl, fun _ => ⟨rfl, rfl⟩, fun l hl => by rw [h] at hl; cases hl⟩
  | some l =>
    let u := s.updFe fun f => { f with inFlight := none, overruns := sat16 f.overruns }
    have he : feFrameEnd n b s = (readyEvent (overrunResult l) u).updFe fun f => f.latch n b := by
      unfold feFrameEnd
      rw [h]
      rfl
    obtain ⟨outside, w, hw⟩ := readyEvent_outsideFe (overrunResult l) u
    obtain ⟨⟨hz, hp, hl, hc, ho⟩, locked, hlatest⟩ := u.fe.published_overrun l
    rw [he]
    refine ⟨((OutsideFe.updFe s _).trans outside).trans (.updFe _ _), ?_⟩
    show FrameEndAtFe n b s.fe ((readyEvent (overrunResult l) u).fe.latch n b)
    rw [hw]
    refine ⟨?_, rfl, rfl, hz, hp, hl, fun hn => (by rw [h] at hn; cases hn), fun x hx => ?_⟩
    · show some ((u.fe.published (overrunResult l)).latchedFrame n b) = some (s.fe.latchedFrame n b)
      simp only [Fe.latchedFrame, hz, hp, hl, hc]
      rfl
    · rw [h] at hx
      cases hx
      exact ⟨ho, locked, hlatest⟩

/-! ## The counts of an ended frame, and the rows of its missing lines (R16, R20) -/

/-- The DRAM once the rows of the missing lines of a taken frame are filled with BL (R20). -/
def Frame.restFilled (f : Frame) (m : Mode) (d : Memory) : Memory :=
  match f.capture with
  | some c => (List.range (m.lines - max f.nextLine 16)).foldl (fun d i =>
      writeChain d c.chain ((max f.nextLine 16 - 16 + i) * m.rowBytes) (blankRow m (f.finalBl m))) d
  | none => d

theorem fillLines_rest (f : Frame) (m : Mode) (d : Memory) :
    fillLines { f with bl := some (f.finalBl m) } m f.nextLine m.lines d = f.restFilled m d := by
  unfold Frame.restFilled
  split
  case _ c hc => exact fillLines_taken (f := { f with bl := some (f.finalBl m) }) hc rfl ..
  case _ hc => exact fillLines_untaken (f := { f with bl := some (f.finalBl m) }) hc ..

theorem restFilled_whole {f : Frame} {m : Mode} (h : m.lines ≤ f.nextLine) (d : Memory) : f.restFilled m d = d := by
  rw [← fillLines_rest, fillLines_none (by omega)]

/-- The sensor link once a frame with a mode has ended, TRUNCATED or not (R16, R20). -/
def Siu.frameDone (u : Siu) (f : Frame) (m : Mode) (truncated : Bool) : Siu :=
  { u with
    frame := none
    syncFaults := if truncated || f.framingFault then sat16 u.syncFaults else u.syncFaults
    lastBl := some (f.finalBl m)
    ended := match f.capture with
      | some c => u.ended ++ [{ capture := c, bl := f.finalBl m, truncated := truncated }]
      | none => u.ended }

theorem endFrame_noMode {f : Frame} (hm : f.mode = none) (b : Bool) (s : State) :
    endFrame f b s = (feFrameEnd f.number b s).setFrame none := by
  unfold endFrame
  rw [hm]

theorem endFrame_mode {f : Frame} {m : Mode} (hm : f.mode = some m) (b : Bool) (s : State) :
    endFrame f b s = (feFrameEnd f.number (b || decide (f.nextLine < m.lines))
      { s with dram := f.restFilled m s.dram
               siu := { s.siu.frameDone f m (b || decide (f.nextLine < m.lines)) with frame := s.siu.frame } }).setFrame none := by
  unfold endFrame
  rw [hm]
  dsimp only
  rw [Frame.closeOb_eq]
  dsimp only
  rw [← fillLines_rest f m s.dram]
  rfl

/-- An ended frame, whatever its mode: what its end leaves of the sensor link and the DRAM, and what at the FE (R16, R20, R21, R75). -/
structure FrameEnded (f : Frame) (b : Bool) (s t : State) : Prop where
  noMode : f.mode = none → t.siu = { s.siu with frame := none } ∧ t.dram = s.dram ∧ FrameEndAtFe f.number b s.fe t.fe
  mode : ∀ m, f.mode = some m → t.siu = s.siu.frameDone f m (b || decide (f.nextLine < m.lines)) ∧ t.dram = f.restFilled m s.dram
    ∧ FrameEndAtFe f.number (b || decide (f.nextLine < m.lines)) s.fe t.fe
  fsc : t.fsc = s.fsc
  ttc : t.ttc = s.ttc
  thm : t.thm = s.thm
  pending : t.pending = s.pending
  timeBase : t.ptc.timeBase = s.ptc.timeBase

theorem endFrame_ended (f : Frame) (b : Bool) (s : State) : FrameEnded f b s (endFrame f b s) := by
  cases hm : f.mode with
  | none =>
    rw [endFrame_noMode hm]
    obtain ⟨out, atFe⟩ := feFrameEnd_atFe f.number b s
    refine ⟨fun _ => ⟨?_, out.dram, atFe⟩, fun m h => (by cases hm.symm.trans h), out.fsc, out.ttc, out.thm, out.pending, out.timeBase⟩
    show { (feFrameEnd f.number b s).siu with frame := none } = _
    rw [out.siu]
  | some m =>
    rw [endFrame_mode hm]
    generalize hu : ({ s with dram := _, siu := _ } : State) = u
    obtain ⟨out, atFe⟩ := feFrameEnd_atFe f.number (b || decide (f.nextLine < m.lines)) u
    subst hu
    refine ⟨fun h => (by cases hm.symm.trans h), fun m' h => ?_, out.fsc, out.ttc, out.thm, out.pending, out.timeBase⟩
    cases hm.symm.trans h
    refine ⟨?_, out.dram, atFe⟩
    show { (feFrameEnd f.number _ _).siu with frame := none } = _
    rw [out.siu]
    rfl

/-! ## FRAME_END (R20, R21) -/

theorem exec_frameEnd {s : State} {f : Frame} (hf : s.siu.frame = some f) : exec .frameEnd s = .next (endFrame f false s) := by
  show Host.Outcome.next (frameEnds s) = _
  unfold frameEnds
  rw [hf]

theorem frameEnds_noFrame {s : State} (hf : s.siu.frame = none) :
    frameEnds s = s.updSiu fun u => { u with syncFaults := sat16 u.syncFaults } := by
  unfold frameEnds
  rw [hf]

/-- The rows of one value leave every address outside them alone (R5, R20). -/
theorem fillRows_other (m : Mode) (chain : List Nat) (bl first n a : Nat) (d : Memory)
    (h : ∀ o, first * m.rowBytes ≤ o → o < (first + n) * m.rowBytes → chainAddr chain o ≠ some a) :
    ((List.range n).foldl (fun d i => writeChain d chain ((first + i) * m.rowBytes) (blankRow m bl)) d).read a = d.read a := by
  induction n with
  | zero => rfl
  | succ n ih =>
    have row : (first + (n + 1)) * m.rowBytes = (first + n) * m.rowBytes + m.rowBytes := by ring
    have low : first * m.rowBytes ≤ (first + n) * m.rowBytes := Nat.mul_le_mul_right _ (Nat.le_add_right _ _)
    rw [List.range_succ, List.foldl_append, List.foldl_cons, List.foldl_nil, writeChain_other, ih]
    · exact fun o lo hi => h o lo (by omega)
    · intro k hk
      rw [blankRow, packRow_width m _ List.length_replicate] at hk
      exact h _ (by omega) (by omega)

theorem activeRows_bytes (m : Mode) : (m.lines - 16) * m.rowBytes = m.rawBytes := by cases m <;> rfl

/-- The rows of the missing lines leave every address outside them alone (R20). -/
theorem restFilled_other {f : Frame} {m : Mode} {c : Capture} (hc : f.capture = some c) (hl : f.nextLine < m.lines) {a : Nat}
    (h : ∀ o, (max 16 f.nextLine - 16) * m.rowBytes ≤ o → o < m.rawBytes → chainAddr c.chain o ≠ some a) (d : Memory) :
    (f.restFilled m d).read a = d.read a := by
  have hm := obLines_lt m
  unfold Frame.restFilled
  rw [hc]
  refine fillRows_other m c.chain _ _ _ _ _ fun o lo hi => h o (by rwa [Nat.max_comm]) ?_
  rwa [show max f.nextLine 16 - 16 + (m.lines - max f.nextLine 16) = m.lines - 16 by omega, activeRows_bytes] at hi

/-- FRAME_END with no computation in flight (R20, R21, R75). -/
theorem frameEnd_idle {s : State} {f : Frame} (hf : s.siu.frame = some f) (hi : s.fe.inFlight = none) :
    (f.mode = none → exec .frameEnd s = .next { s with siu := { s.siu with frame := none }, fe := s.fe.latch f.number false })
      ∧ ∀ m, f.mode = some m → m.lines ≤ f.nextLine →
        exec .frameEnd s = .next { s with siu := s.siu.frameDone f m false, fe := s.fe.latch f.number false } := by
  rw [exec_frameEnd hf]
  refine ⟨fun hm => ?_, fun m hm hl => ?_⟩
  · rw [endFrame_noMode hm, feFrameEnd_idle hi]
    rfl
  · rw [endFrame_mode hm, restFilled_whole hl, decide_eq_false (Nat.not_lt.mpr hl), feFrameEnd_idle (by exact hi)]
    rfl

/-- Settles O20, by what an ended frame leaves. -/
theorem frameEnd : Obligations.FrameEnd := by
  refine ⟨fun s => ⟨fun hf => ?_, fun f hf => ⟨?_, ?_, fun l hl => ?_⟩⟩, fun s f m hf hm hl => ?_⟩
  · show Host.Outcome.next (frameEnds s) = _
    rw [frameEnds_noFrame hf]
    rfl
  · exact fun hm hi => (frameEnd_idle hf hi).1 hm
  · exact fun m hm hl hi => (frameEnd_idle hf hi).2 m hm hl
  · have done := endFrame_ended f false s
    have atFe : FrameEndAtFe f.number (f.mode.any fun m => f.nextLine < m.lines) s.fe (endFrame f false s).fe := by
      cases hm : f.mode with
      | none => exact (done.noMode hm).2.2
      | some m =>
        rw [Option.any_some, ← Bool.false_or (decide _)]
        exact (done.mode m hm).2.2
    obtain ⟨counted, locked, published⟩ := atFe.overrun l hl
    refine ⟨_, _, exec_frameEnd hf, atFe.inFlight, atFe.collectFrame, atFe.collect, counted, published, rfl, rfl, rfl, rfl, rfl,
      overrunPublication_validCount l locked, overrunPublication_map l locked, fun hm => ?_, fun m hm hn => ?_⟩
    · obtain ⟨siu, dram, -⟩ := done.noMode hm
      exact ⟨siu, dram⟩
    · obtain ⟨siu, dram, -⟩ := done.mode m hm
      rw [decide_eq_false (Nat.not_lt.mpr hn)] at siu
      exact ⟨siu, dram.trans (restFilled_whole hn _)⟩
  · obtain ⟨siu, dram, atFe⟩ := (endFrame_ended f false s).mode m hm
    rw [decide_eq_true hl] at siu atFe
    refine ⟨_, exec_frameEnd hf, siu, ⟨_, atFe.inFlight, rfl, rfl⟩, dram, fun c hc a ha => ?_⟩
    rw [dram]
    exact restFilled_other hc hl ha _

end Sys2Proof.Machine
end

section
/-! SUPPORT. FRAME_START (R16): the capture decision by the engine's state (R31), what every decision leaves alone, and the frame start
as a whole. -/

namespace Sys2Proof.Machine

variable {s t u : State} {f : Frame}

/-! ## The decision by the engine's state (R31) -/

theorem decideCapture_noMode (hm : f.mode = none) (locked : Bool) (s : State) : decideCapture locked f s = s := by
  unfold decideCapture
  rw [hm]

theorem decideCapture_shoot {m : Mode} {p : PendingShoot} (hm : f.mode = some m) (he : s.siu.engine = .singlePending)
    (hp : s.siu.shoot = some p) (locked : Bool) : decideCapture locked f s = decideShoot locked p f m s := by
  unfold decideCapture
  rw [hm, he, hp]

theorem decideCapture_burst {m : Mode} (hm : f.mode = some m) (he : s.siu.engine = .burst) (locked : Bool) :
    decideCapture locked f s = decideBurst locked f m s := by
  unfold decideCapture
  rw [hm, he]

theorem decideCapture_armed {m : Mode} (hm : f.mode = some m) (he : s.siu.engine = .idle) (ha : s.siu.pre.armed = true)
    (locked : Bool) : decideCapture locked f s = decidePre f m s := by
  unfold decideCapture
  rw [hm, he]
  exact if_pos ha

theorem decideCapture_disarmed (he : s.siu.engine = .idle) (ha : s.siu.pre.armed = false) (locked : Bool) :
    decideCapture locked f s = s := by
  cases hm : f.mode with
  | none => exact decideCapture_noMode hm locked s
  | some m =>
    unfold decideCapture
    rw [hm, he]
    exact if_neg (by rw [ha]; decide)

/-- Without the lock a candidate with focus priority fails its first test (R32). -/
theorem testCandidate_focus {focus locked : Bool} (hf : focus = true) (hl : locked = false) (m : Mode) (s : State) :
    testCandidate focus locked m s = (.failed .focus, s) := by
  unfold testCandidate
  rw [hf, hl]
  rfl

/-- A candidate that passes its first test is tested for space (R32). -/
theorem testCandidate_space {focus locked : Bool} (h : focus = true → locked = true) (m : Mode) (s : State) :
    testCandidate focus locked m s = testSpace m s := by
  unfold testCandidate
  cases focus with
  | false => rfl
  | true => rw [h rfl]; rfl

/-- What a pending SHOOT comes to when its candidate fails (R27, R34). -/
theorem decideShoot_failed {locked : Bool} {p : PendingShoot} {m : Mode} {b : Blocking}
    (h : testCandidate p.focus locked m s = (.failed b, t)) (f : Frame) :
    (p.timer.isSome = true → decideShoot locked p f m s = t.setEngine .singlePending (some { p with reason := b }))
      ∧ (p.timer = none → decideShoot locked p f m s = failShoot { p with reason := b } t) := by
  unfold decideShoot
  rw [h]
  refine ⟨fun ht => if_neg ?_, fun ht => if_pos ht⟩
  rw [← Option.not_isSome_iff_eq_none]
  exact not_not_intro ht

/-! ## What every decision leaves alone -/

/-- The state after a capture decision for the frame `f` in progress: the link's counts and the blocks that take no part stand, and
the frame may have been taken. -/
structure Decided (f : Frame) (s t : State) : Prop where
  frame : ∃ c, t.siu.frame = some { f with capture := c }
  link : t.siu.frameCounter = s.siu.frameCounter ∧ t.siu.syncFaults = s.siu.syncFaults ∧ t.siu.ended = s.siu.ended
    ∧ t.siu.lastBl = s.siu.lastBl
  dram : t.dram = s.dram
  fe : t.fe = s.fe
  thm : t.thm = s.thm
  pending : t.pending = s.pending
  timeBase : t.ptc.timeBase = s.ptc.timeBase
  mode : t.fsc.mode = s.fsc.mode
  configured : t.fsc.configured = s.fsc.configured
  attached : t.ttc.attached = s.ttc.attached

theorem Decided.refl (h : s.siu.frame = some f) : Decided f s s :=
  ⟨⟨f.capture, h⟩, ⟨rfl, rfl, rfl, rfl⟩, rfl, rfl, rfl, rfl, rfl, rfl, rfl, rfl⟩

theorem Decided.cascade (h : Decided f s t) (c : Cascade t u) : Decided f s u := by
  obtain ⟨hpending, hdram, hsiu, hfe, hthm⟩ := c.frame
  obtain ⟨hconfigured, -, hmode, -⟩ := c.store
  exact ⟨hsiu ▸ h.frame, hsiu ▸ h.link, hdram.trans h.dram, hfe.trans h.fe, hthm.trans h.thm, hpending.trans h.pending,
    c.ports.1.trans h.timeBase, hmode.trans h.mode, hconfigured.trans h.configured, c.session.1.trans h.attached⟩

/-- A change of engine, SHOOT, burst or pre-capture. -/
theorem Decided.updSiu (h : Decided f s t) (g : Siu → Siu)
    (hg : (g t.siu).frameCounter = t.siu.frameCounter ∧ (g t.siu).syncFaults = t.siu.syncFaults ∧ (g t.siu).ended = t.siu.ended
      ∧ (g t.siu).lastBl = t.siu.lastBl ∧ (g t.siu).frame = t.siu.frame := by exact ⟨rfl, rfl, rfl, rfl, rfl⟩) :
    Decided f s (t.updSiu g) := by
  obtain ⟨c1, c2, c3, c4, cf⟩ := hg
  obtain ⟨l1, l2, l3, l4⟩ := h.link
  obtain ⟨c, hf⟩ := h.frame
  exact ⟨⟨c, cf.trans hf⟩, ⟨c1.trans l1, c2.trans l2, c3.trans l3, c4.trans l4⟩, h.dram, h.fe, h.thm, h.pending, h.timeBase, h.mode,
    h.configured, h.attached⟩

theorem Decided.takeFrame (h : Decided f s t) (kind : CaptureKind) (m : Mode) (chain : List Nat) :
    Decided f s (takeFrame kind f m chain t) :=
  ⟨⟨_, rfl⟩, h.link, h.dram, h.fe, h.thm, h.pending, h.timeBase, h.mode, h.configured, h.attached⟩

theorem Decided.failShoot (h : Decided f s t) (p : PendingShoot) : Decided f s (failShoot p t) :=
  (h.updSiu _).cascade (.respond _ _ _ _ _ _ (by decide))

theorem Decided.decideShoot (h : Decided f s t) (locked : Bool) (p : PendingShoot) (m : Mode) :
    Decided f s (decideShoot locked p f m t) := by
  have tested := h.cascade (testCandidate_cascade p.focus locked m t)
  unfold Machine.decideShoot
  split <;> (rename_i he; rw [he] at tested; dsimp only at tested ⊢)
  · exact Decided.cascade ((tested.takeFrame _ _ _).updSiu _) (.respond _ _ _ _ _ _ (by decide))
  · split
    · exact tested.failShoot _
    · exact tested.updSiu _

theorem Decided.endBurst (h : Decided f s t) : Decided f s (endBurst t) := h.updSiu _

theorem Decided.countBurstShot (h : Decided f s t) : Decided f s (countBurstShot t) := by
  unfold Machine.countBurstShot
  dsimp only
  split
  · exact (h.updSiu _).endBurst
  · exact h.updSiu _

theorem Decided.skipBurstFrame (h : Decided f s t) (b : Blocking) : Decided f s (skipBurstFrame f b t) := by
  unfold Machine.skipBurstFrame
  dsimp only
  split
  · exact ((h.updSiu _).updSiu _).cascade (.offerClass _ _ _ rfl)
  · exact h.updSiu _

theorem Decided.decideBurst (h : Decided f s t) (locked : Bool) (m : Mode) : Decided f s (decideBurst locked f m t) := by
  unfold Machine.decideBurst
  extract_lets v
  have counted : Decided f s v := h.updSiu _
  have tested := counted.cascade (testCandidate_cascade v.siu.burst.focus locked m v)
  split
  · split <;> (rename_i he; rw [he] at tested; dsimp only at tested)
    · exact (tested.takeFrame _ _ _).countBurstShot
    · exact tested.skipBurstFrame _
  · exact counted

theorem Decided.decidePre (h : Decided f s t) (m : Mode) : Decided f s (decidePre f m t) := by
  unfold Machine.decidePre
  extract_lets v w
  have counted : Decided f s v := h.updSiu _
  have room : Decided f s w := by
    refine counted.cascade ?_
    simp only [w]
    split
    · split
      · exact discardMember_cascade _ _
      · exact .refl _
    · exact .refl _
  split
  · split
    case _ chain x hx =>
      obtain ⟨-, -, -, -, rfl⟩ := spaceAndSlabs_some hx
      refine Decided.takeFrame (t := w.updFsc _) ?_ _ _ _
      exact room.cascade (.fsc w fun _ => ⟨rfl, rfl, rfl, rfl⟩)
    · exact room
  · exact counted

theorem decideCapture_decided (h : s.siu.frame = some f) (locked : Bool) : Decided f s (decideCapture locked f s) := by
  unfold decideCapture
  split
  · exact .refl h
  · split
    · exact (Decided.refl h).decideShoot _ _ _
    · exact .refl h
    · exact (Decided.refl h).decideBurst _ _
    · split
      · exact (Decided.refl h).decidePre _
      · exact .refl h

/-- A pending SHOOT with focus priority leaves the frame as it is while there is no lock (R32). -/
theorem decideCapture_noFocus {p : PendingShoot} (he : s.siu.engine = .singlePending) (hp : s.siu.shoot = some p)
    (hf : p.focus = true) : (decideCapture false f s).siu.frame = s.siu.frame := by
  cases hm : f.mode with
  | none => rw [decideCapture_noMode hm]
  | some m =>
    obtain ⟨waits, fails⟩ := decideShoot_failed (testCandidate_focus hf rfl m s) f
    rw [decideCapture_shoot hm he hp]
    cases ht : p.timer with
    | none => rw [fails ht]; rfl
    | some n => rw [waits (by rw [ht]; rfl)]; rfl

/-! ## FRAME_START (R16) -/

/-- The frame that a frame start opens (R16). -/
def State.openedFrame (s : State) : Frame :=
  { number := (s.siu.frameCounter + 1) % 4294967296, mode := s.fsc.mode, nextLine := 0, obSum := 0, bl := none, framingFault := false,
    capture := none }

theorem withNewFrame_frame (s : State) : s.withNewFrame.siu.frame = some s.openedFrame := rfl

theorem exec_frameStart_first (hf : s.siu.frame = none) :
    exec .frameStart s = .next (decideCapture s.fe.locked s.openedFrame s.withNewFrame) := by
  show Host.Outcome.next (frameStarts s) = _
  unfold frameStarts
  rw [hf]
  rfl

theorem exec_frameStart_next (hf : s.siu.frame = some f) :
    exec .frameStart s = .next (decideCapture s.fe.locked (endFrame f true s).openedFrame (endFrame f true s).withNewFrame) := by
  show Host.Outcome.next (frameStarts s) = _
  unfold frameStarts
  rw [hf]
  rfl

/-- The state in which a frame start opens its frame: the one in progress, if there was one, has ended (R16). -/
structure ReadyToOpen (s u : State) : Prop where
  first : s.siu.frame = none → u = s
  next : ∀ f, s.siu.frame = some f → FrameEnded f true s u
  counter : u.siu.frameCounter = s.siu.frameCounter
  engine : u.siu.engine = s.siu.engine
  shoot : u.siu.shoot = s.siu.shoot
  fsc : u.fsc = s.fsc
  ttc : u.ttc = s.ttc
  thm : u.thm = s.thm
  pending : u.pending = s.pending
  timeBase : u.ptc.timeBase = s.ptc.timeBase
  inputs : u.fe.zones = s.fe.zones ∧ u.fe.params = s.fe.params ∧ u.fe.lens = s.fe.lens

theorem endFrame_readyToOpen (hf : s.siu.frame = some f) : ReadyToOpen s (endFrame f true s) := by
  have ended := endFrame_ended f true s
  have next : ∀ g, s.siu.frame = some g → FrameEnded g true s (endFrame f true s) := fun g hg => by
    cases hf.symm.trans hg
    exact ended
  cases hm : f.mode with
  | none =>
    obtain ⟨siu, -, fe⟩ := ended.noMode hm
    exact ⟨fun h => (by cases hf.symm.trans h), next, by rw [siu], by rw [siu], by rw [siu], ended.fsc, ended.ttc, ended.thm,
      ended.pending, ended.timeBase, fe.zones, fe.params, fe.lens⟩
  | some m =>
    obtain ⟨siu, -, fe⟩ := ended.mode m hm
    exact ⟨fun h => (by cases hf.symm.trans h), next, by rw [siu]; rfl, by rw [siu]; rfl, by rw [siu]; rfl, ended.fsc, ended.ttc,
      ended.thm, ended.pending, ended.timeBase, fe.zones, fe.params, fe.lens⟩

/-- Every frame start closes the frame in progress, opens the next one and decides on it (R16). -/
theorem exec_frameStart (s : State) :
    ∃ u, ReadyToOpen s u ∧ exec .frameStart s = .next (decideCapture s.fe.locked u.openedFrame u.withNewFrame) := by
  cases hf : s.siu.frame with
  | none => exact ⟨s, ⟨fun _ => rfl, fun f h => (by cases hf.symm.trans h), rfl, rfl, rfl, rfl, rfl, rfl, rfl, rfl, rfl, rfl, rfl⟩,
      exec_frameStart_first hf⟩
  | some f => exact ⟨_, endFrame_readyToOpen hf, exec_frameStart_next hf⟩

/-- Settles O13, by the end of the frame in progress and what no decision touches. -/
theorem frameStart : Obligations.FrameStart := by
  refine ⟨fun s hf h => ?_, fun s => ?_⟩
  · rw [exec_frameStart_first hf]
    rcases h with hm | ⟨he, ha⟩
    · rw [decideCapture_noMode (show s.openedFrame.mode = none from hm)]
    · rw [decideCapture_disarmed (by exact he) (by exact ha)]
  · obtain ⟨u, ready, run⟩ := exec_frameStart s
    have decided := decideCapture_decided (withNewFrame_frame u) s.fe.locked
    have notTaken : ∀ p, s.siu.engine = .singlePending → s.siu.shoot = some p → p.focus = true → s.fe.locked = false →
        (decideCapture s.fe.locked u.openedFrame u.withNewFrame).siu.frame = some u.openedFrame := fun p he hp hfocus hl => by
      rw [hl]
      exact decideCapture_noFocus (s := u.withNewFrame) (ready.engine.trans he) (ready.shoot.trans hp) hfocus
    revert run decided notTaken
    generalize decideCapture s.fe.locked u.openedFrame u.withNewFrame = t
    intro run decided notTaken
    obtain ⟨c, frame⟩ := decided.frame
    obtain ⟨counter, syncFaults, ended, lastBl⟩ : t.siu.frameCounter = u.withNewFrame.siu.frameCounter
      ∧ t.siu.syncFaults = u.siu.syncFaults ∧ t.siu.ended = u.siu.ended ∧ t.siu.lastBl = u.siu.lastBl := decided.link
    obtain ⟨zones, params, lens⟩ := ready.inputs
    have count : t.siu.frameCounter = (s.siu.frameCounter + 1) % 4294967296 := by
      rw [counter, ← ready.counter]
      rfl
    refine ⟨t, _, run, count, frame, counter.symm, congrArg Fsc.mode ready.fsc, rfl, rfl, rfl, rfl, ?_, ?_, ?_, ?_, ?_, ?_,
      decided.pending.trans ready.pending, decided.thm.trans ready.thm, decided.timeBase.trans ready.timeBase,
      decided.mode.trans (congrArg Fsc.mode ready.fsc), decided.configured.trans (congrArg Fsc.configured ready.fsc),
      decided.attached.trans (congrArg Ttc.attached ready.ttc), fun hf => ?_, fun f hf => ?_⟩
    · intro p he hp hfocus hl
      cases frame.symm.trans (notTaken p he hp hfocus hl)
      rfl
    · rw [decided.fe, counter]; rfl
    · rw [decided.fe]; rfl
    · rw [decided.fe]; exact zones
    · rw [decided.fe]; exact params
    · rw [decided.fe]; exact lens
    · obtain rfl := ready.first hf
      exact ⟨decided.dram, syncFaults, ended, lastBl, by rw [decided.fe]; rfl, by rw [decided.fe]; rfl⟩
    · have closed := ready.next f hf
      have atFe : FrameEndAtFe f.number true s.fe u.fe := by
        cases hm : f.mode with
        | none => exact (closed.noMode hm).2.2
        | some m => exact (closed.mode m hm).2.2
      refine ⟨by rw [decided.fe]; exact atFe.inFlight, fun hi => ?_, fun l hl => ?_, fun hm => ?_, fun m hm => ?_⟩
      · rw [decided.fe]
        exact atFe.idle hi
      · obtain ⟨counted, locked, published⟩ := atFe.overrun l hl
        rw [decided.fe]
        exact ⟨counted, _, published, rfl, rfl⟩
      · obtain ⟨siu, dram, -⟩ := closed.noMode hm
        exact ⟨decided.dram.trans dram, syncFaults.trans (by rw [siu]), lastBl.trans (by rw [siu]), ended.trans (by rw [siu])⟩
      · obtain ⟨siu, dram, -⟩ := closed.mode m hm
        exact ⟨syncFaults.trans (congrArg Siu.syncFaults siu), lastBl.trans (congrArg Siu.lastBl siu),
          ended.trans (congrArg Siu.ended siu), decided.dram.trans dram⟩

end Sys2Proof.Machine
end

section
/-! SUPPORT. A candidate's tests for space and what taking it leaves (R32, R33), for a pending SHOOT and for a burst. -/

namespace Sys2Proof.Machine

variable {s t u : State} {f : Frame} {m : Mode}

/-! ## Space (R32) -/

theorem catalogSpace_iff : s.catalogSpace = true ↔ s.cat.records.length < 256 ∧ s.cat.nextShot < 4294967296 := by
  unfold State.catalogSpace
  rw [Bool.and_eq_true, decide_eq_true_iff, decide_eq_true_iff]
  rfl

/-- A candidate that finds a place in the catalog and its slabs gets the first slabs of the free list (R7, R32). -/
theorem spaceAndSlabs_granted (hc : s.fsc.configured = true) (hr : s.cat.records.length < 256) (hn : s.cat.nextShot < 4294967296)
    (hk : m.rawSlabs ≤ s.fsc.freeList.length) :
    spaceAndSlabs m s = some (s.fsc.freeList.take m.rawSlabs, s.takeSlabs m.rawSlabs) := by
  unfold spaceAndSlabs claimCapture
  rw [if_pos (catalogSpace_iff.mpr ⟨hr, hn⟩), if_pos (by rw [hc, decide_eq_true hk]; rfl)]

/-- Without a place in the catalog, or without the slabs, it gets nothing (R32). -/
theorem spaceAndSlabs_refused (h : 256 ≤ s.cat.records.length ∨ s.fsc.freeList.length < m.rawSlabs) : spaceAndSlabs m s = none := by
  unfold spaceAndSlabs claimCapture
  split
  case isTrue hs =>
    have hr := (catalogSpace_iff.mp hs).1
    rw [if_neg]
    intro hk
    rw [Bool.and_eq_true, decide_eq_true_iff] at hk
    omega
  case isFalse => rfl

theorem testSpace_granted (hc : s.fsc.configured = true) (hr : s.cat.records.length < 256) (hn : s.cat.nextShot < 4294967296)
    (hk : m.rawSlabs ≤ s.fsc.freeList.length) :
    testSpace m s = (.taken (s.fsc.freeList.take m.rawSlabs), s.takeSlabs m.rawSlabs) := by
  unfold testSpace
  rw [spaceAndSlabs_granted hc hr hn hk]

/-- Relief frees what the candidate needs (R32, R61). -/
theorem testSpace_relieved (h : 256 ≤ s.cat.records.length ∨ s.fsc.freeList.length < m.rawSlabs)
    (hu : relieve m.rawSlabs s.ttc.queue.length s = u) (hc : u.fsc.configured = true) (hr : u.cat.records.length < 256)
    (hn : u.cat.nextShot < 4294967296) (hk : m.rawSlabs ≤ u.fsc.freeList.length) :
    testSpace m s = (.taken (u.fsc.freeList.take m.rawSlabs), u.takeSlabs m.rawSlabs) := by
  unfold testSpace
  rw [spaceAndSlabs_refused h]
  dsimp only
  rw [hu, spaceAndSlabs_granted hc hr hn hk]

/-- Relief does not help (R32, R61). -/
theorem testSpace_refused (h : 256 ≤ s.cat.records.length ∨ s.fsc.freeList.length < m.rawSlabs)
    (hu : relieve m.rawSlabs s.ttc.queue.length s = u) (h' : 256 ≤ u.cat.records.length ∨ u.fsc.freeList.length < m.rawSlabs) :
    testSpace m s = (.failed .space, u) := by
  unfold testSpace
  rw [spaceAndSlabs_refused h]
  dsimp only
  rw [hu, spaceAndSlabs_refused h']

theorem needMet_iff {k : Nat} : needMet k s = true ↔ s.cat.records.length < 256 ∧ k ≤ s.fsc.freeList.length := by
  unfold needMet
  rw [Bool.and_eq_true, decide_eq_true_iff, decide_eq_true_iff]
  rfl

/-- With the yield off relief does nothing (R61). -/
theorem relieve_yieldOff {k : Nat} (h : s.cat.pressureYield = false) (fuel : Nat) : relieve k fuel s = s := by
  cases fuel with
  | zero => rfl
  | succ fuel =>
    unfold relieve
    exact if_pos (by rw [h]; simp)

/-- While the need is met relief does nothing (R61). -/
theorem relieve_met {k : Nat} (h : s.cat.records.length < 256 ∧ k ≤ s.fsc.freeList.length) (fuel : Nat) : relieve k fuel s = s := by
  cases fuel with
  | zero => rfl
  | succ fuel =>
    unfold relieve
    exact if_pos (by rw [needMet_iff.mpr h]; rfl)

/-! ## A frame taken (R33) -/

/-- The new frame with the burst's or pre-capture's count of it (R16, R31). -/
def State.withCountedFrame (s : State) (b : Burst) (p : Precapture) : State :=
  { s.withNewFrame with siu := { s.withNewFrame.siu with burst := b, pre := p } }

/-- The new frame taken as it is opened leaves what `withFrameTaken` says (R33, R40, R41). -/
theorem takeFrame_opened (hm : s.fsc.mode = some m) (kind : CaptureKind) (b : Burst) (p : Precapture) :
    takeFrame kind s.openedFrame m (s.fsc.freeList.take m.rawSlabs) ((s.withCountedFrame b p).takeSlabs m.rawSlabs)
      = { s.withFrameTaken kind m with siu := { (s.withFrameTaken kind m).siu with burst := b, pre := p } } := by
  unfold takeFrame State.openedFrame State.withFrameTaken State.withCountedFrame State.withNewFrame
  rw [hm]
  rfl

/-- The frame of a SHOOT that passes its tests is taken, and the SHOOT is answered (R33). -/
theorem decideShoot_taken {locked : Bool} {p : PendingShoot} {chain : List Nat}
    (h : testCandidate p.focus locked m s = (.taken chain, t)) (f : Frame) :
    decideShoot locked p f m s
      = ((takeFrame .shot f m chain t).setEngine .idle none).respond .shoot .body p.tag .ok (le 4 t.cat.nextShot) := by
  unfold decideShoot
  rw [h]

/-- Settles O14, by the grant of the space test. -/
theorem shootTaken : Obligations.ShootTaken := by
  intro s p m hf hm hc he hp hfocus hr hn hk
  rw [exec_frameStart_first hf, decideCapture_shoot (by exact hm) (by exact he) (by exact hp),
    decideShoot_taken ((testCandidate_space hfocus m _).trans (testSpace_granted (by exact hc) (by exact hr) (by exact hn) (by exact hk)))]
  exact congrArg (fun t : State => Host.Outcome.next ((t.setEngine .idle none).respond .shoot .body p.tag .ok (le 4 s.cat.nextShot)))
    (takeFrame_opened hm .shot s.siu.burst s.siu.pre)

/-! ## Bursts (R31, R33, R34) -/

/-- The burst once its frame is counted (R31). -/
def Burst.counted (b : Burst) : Burst :=
  { b with frames := if b.fresh then b.frames else (b.frames + 1) % 4294967296, fresh := false }

/-- The new frame opened and counted in the burst (R16, R31). -/
def State.withBurstFrame (s : State) : State := s.withCountedFrame s.siu.burst.counted s.siu.pre

/-- Every frame start in a burst counts its frame first (R31). -/
theorem exec_frameStart_burst (hf : s.siu.frame = none) (hm : s.fsc.mode = some m) (he : s.siu.engine = .burst) :
    exec .frameStart s = .next (decideBurst s.fe.locked s.openedFrame m s.withNewFrame) := by
  rw [exec_frameStart_first hf, decideCapture_burst (by exact hm) (by exact he)]

/-- A burst decides on its frame once it is counted (R31, R33, R34). -/
theorem decideBurst_opened (locked : Bool) (m : Mode) (s : State) :
    decideBurst locked s.openedFrame m s.withNewFrame
      = if s.siu.burst.counted.frames % s.siu.burst.counted.divisor = 0 then
          match testCandidate s.siu.burst.focus locked m s.withBurstFrame with
          | (.taken chain, t) => countBurstShot (takeFrame .shot s.openedFrame m chain t)
          | (.failed reason, t) => skipBurstFrame s.openedFrame reason t
        else s.withBurstFrame := by
  unfold decideBurst
  rfl

theorem decideBurst_noCandidate (hn : s.siu.burst.counted.frames % s.siu.burst.counted.divisor ≠ 0) (locked : Bool) :
    decideBurst locked s.openedFrame m s.withNewFrame = s.withBurstFrame := by
  rw [decideBurst_opened, if_neg hn]

theorem decideBurst_taken {locked : Bool} {chain : List Nat} (hn : s.siu.burst.counted.frames % s.siu.burst.counted.divisor = 0)
    (h : testCandidate s.siu.burst.focus locked m s.withBurstFrame = (.taken chain, t)) :
    decideBurst locked s.openedFrame m s.withNewFrame = countBurstShot (takeFrame .shot s.openedFrame m chain t) := by
  rw [decideBurst_opened, if_pos hn, h]

theorem decideBurst_failed {locked : Bool} {b : Blocking} (hn : s.siu.burst.counted.frames % s.siu.burst.counted.divisor = 0)
    (h : testCandidate s.siu.burst.focus locked m s.withBurstFrame = (.failed b, t)) :
    decideBurst locked s.openedFrame m s.withNewFrame = skipBurstFrame s.openedFrame b t := by
  rw [decideBurst_opened, if_pos hn, h]

theorem countBurstShot_eq (s : State) :
    countBurstShot s = { s with
      siu := if 0 < s.siu.burst.maximum ∧ s.siu.burst.maximum ≤ sat16 s.siu.burst.taken then
          { s.siu with engine := .idle, burst := { s.siu.burst with taken := sat16 s.siu.burst.taken, shortage := false } }
        else { s.siu with burst := { s.siu.burst with taken := sat16 s.siu.burst.taken } } } := by
  unfold countBurstShot
  by_cases h : 0 < s.siu.burst.maximum ∧ s.siu.burst.maximum ≤ sat16 s.siu.burst.taken
  · rw [if_pos h]
    exact if_pos (by rw [Bool.and_eq_true, decide_eq_true_iff, decide_eq_true_iff]; exact h)
  · rw [if_neg h]
    exact if_neg (by rw [Bool.and_eq_true, decide_eq_true_iff, decide_eq_true_iff]; exact h)

/-- The burst with one more skip for want of space (R34). -/
def State.burstSkipped (s : State) : State :=
  { s with siu := { s.siu with burst := { s.siu.burst with skips := sat16 s.siu.burst.skips, shortage := true } } }

/-- A frame skipped for want of space counts as a skip, and the first of them raises SHORTAGE (R34). -/
theorem skipBurstFrame_space (f : Frame) (s : State) :
    skipBurstFrame f .space s = if s.ptc.enables.shortage = true ∧ s.siu.burst.shortage = false then
        s.burstSkipped.offer .body (.shortage f.number s.fsc.freeList.length s.cat.records.length (sat16 s.siu.burst.skips))
      else s.burstSkipped := by
  unfold skipBurstFrame
  dsimp only
  cases hb : s.siu.burst.shortage with
  | true =>
    rw [if_neg (by simp [State.updSiu, hb]), if_neg (by simp)]
    exact congrArg (fun x => { s with siu := { s.siu with burst := { s.siu.burst with skips := sat16 s.siu.burst.skips, shortage := x } } }) hb
  | false =>
    rw [if_pos (by simp [State.updSiu, hb])]
    unfold State.offerClass
    simp only [and_true]
    rfl

/-- Settles O16, by the verdict on the counted frame. -/
theorem burstFrame : Obligations.BurstFrame := by
  intro s m hf hm hc he
  have run := exec_frameStart_burst hf hm he
  refine ⟨fun hn => ?_, fun hn hfocus hr hs hk => ?_, fun hn hfocus hl => ?_, fun hn hfocus hk hy => ?_⟩
  · exact run.trans (congrArg _ (decideBurst_noCandidate hn _))
  · have passed : testCandidate s.siu.burst.focus s.fe.locked m s.withBurstFrame = _ :=
      (testCandidate_space hfocus m _).trans (testSpace_granted (s := s.withBurstFrame) hc hr hs hk)
    refine run.trans (congrArg _ ?_)
    rw [decideBurst_taken hn passed]
    exact (congrArg countBurstShot (takeFrame_opened hm .shot _ _)).trans (countBurstShot_eq _)
  · exact run.trans (congrArg _ (decideBurst_failed hn (testCandidate_focus hfocus hl m _)))
  · have failed : testCandidate s.siu.burst.focus s.fe.locked m s.withBurstFrame = _ := (testCandidate_space hfocus m _).trans
      (testSpace_refused (s := s.withBurstFrame) (.inr hk) (relieve_yieldOff (by exact hy) _) (.inr hk))
    exact run.trans (congrArg _ ((decideBurst_failed hn failed).trans (skipBurstFrame_space _ _)))

end Sys2Proof.Machine
end

section
/-! SUPPORT. Ring members discarded (R35, R49, R10): one at a time and several together, as `withDiscarded` says. -/

namespace Sys2Proof.Machine

variable {s t u : State}

/-! ## Chains in use (R6, R10) -/

/-- The uses of a chain: accesses, the frame in progress, ended frames, running jobs with their chains and the raws they read (R6). -/
theorem chainInUse_eq (s : State) (c : List Nat) :
    s.chainInUse c = (s.fsc.accesses.any (fun a => a.chain == c) || (s.siu.frame.bind Frame.capture).any (fun x => x.chain == c)
      || s.siu.ended.any (fun e => e.capture.chain == c)
      || s.dve.jobs.any fun j => j.state == .running
        && (j.progress.any (fun p => p.chain == c) || ((s.record j.shot).map Record.raw).any (· == some c))) := by
  unfold State.chainInUse
  refine congrArg₂ or (congrArg₂ or (congrArg₂ or rfl ?_) rfl) (congrArg _ (funext fun j => congrArg₂ and rfl (congrArg₂ or ?_ ?_)))
  · cases s.siu.frame with
    | none => rfl
    | some f => cases h : f.capture <;> simp [h]
  · cases j.progress <;> rfl
  · cases s.record j.shot <;> rfl

theorem chainInUse_congr (ha : t.fsc.accesses = s.fsc.accesses)
    (hf : (t.siu.frame.bind Frame.capture) = (s.siu.frame.bind Frame.capture)) (he : t.siu.ended = s.siu.ended)
    (hj : t.dve.jobs = s.dve.jobs) (hr : ∀ j ∈ s.dve.jobs, (t.record j.shot).map Record.raw = (s.record j.shot).map Record.raw)
    (c : List Nat) : t.chainInUse c = s.chainInUse c := by
  rw [chainInUse_eq, chainInUse_eq, ha, hf, he, hj]
  congr 1
  rw [Bool.eq_iff_iff, List.any_eq_true, List.any_eq_true]
  constructor <;> (rintro ⟨j, hm, h⟩; exact ⟨j, hm, by simpa only [hr j hm] using h⟩)

/-- A shot without a job: none of the jobs is its. -/
theorem ne_of_noJob {n : Nat} (h : s.job n = none) {j : Job} (hj : j ∈ s.dve.jobs) : j.shot ≠ n := by
  have := List.find?_eq_none.mp h j hj
  simpa using this

theorem chainInUse_withNewFrame (hf : s.siu.frame = none) (c : List Nat) : s.withNewFrame.chainInUse c = s.chainInUse c :=
  chainInUse_congr (t := s.withNewFrame) (s := s) rfl (by rw [hf, withNewFrame_frame]; rfl) rfl rfl (fun _ _ => rfl) c

theorem chainInUse_updRecord {n : Nat} (hj : s.job n = none) (g : Record → Record) (c : List Nat) :
    (s.updRecord n g).chainInUse c = s.chainInUse c :=
  chainInUse_congr (t := s.updRecord n g) (s := s) rfl rfl rfl rfl (fun _ hm => by rw [updRecord_record_ne s g (ne_of_noJob hj hm)]) c

/-! ## A chain given back (R10, R11) -/

/-- The frame store once a chain is given back with no job waiting for slabs: free, or waiting for its last access (R10). -/
def State.storeWith (s : State) (c : List Nat) : Fsc :=
  if s.chainInUse c then { s.fsc with releasing := s.fsc.releasing ++ [c] } else { s.fsc with freeList := s.fsc.freeList ++ c }

theorem releaseChain_noWaiting (h : ∀ j, s.currentJob = some j → j.state = .running) (c : List Nat) :
    releaseChain c s = { s with fsc := s.storeWith c } := by
  unfold releaseChain State.storeWith carryOutRelease
  split
  · rfl
  · exact announceSlabs_noWaiting (s := s.updFsc _) h

/-! ## One record out of the catalog (R49) -/

/-- A record in its place: no other has its shot number. -/
theorem record_split (hn : (s.cat.records.map Record.shot).Nodup) {n : Nat} {r : Record} (hr : s.record n = some r) :
    ∃ as bs, s.cat.records = as ++ r :: bs ∧ (∀ a ∈ as, a.shot ≠ n) ∧ ∀ b ∈ bs, b.shot ≠ n := by
  obtain ⟨hs, as, bs, hl, ha⟩ := List.find?_eq_some_iff_append.mp hr
  have hs : r.shot = n := by simpa using hs
  refine ⟨as, bs, hl, fun a hm => by simpa using ha a hm, fun b hb e => ?_⟩
  rw [hl, List.map_append, List.map_cons] at hn
  exact (List.nodup_cons.mp (List.nodup_append.mp hn).2.1).1 (hs.trans e.symm ▸ List.mem_map_of_mem hb)

theorem dropRecord_updRecord (s : State) (n : Nat) (g : Record → Record) : (s.updRecord n g).dropRecord n = s.dropRecord n := by
  have gone : ((s.cat.records.map fun r => if r.shot == n then { g r with shot := r.shot } else r).filter fun r => r.shot != n)
      = s.cat.records.filter fun r => r.shot != n := by
    induction s.cat.records with
    | nil => rfl
    | cons r rs ih =>
      rw [List.map_cons, List.filter_cons, List.filter_cons, ih]
      cases h : r.shot == n <;> simp [h, bne]
  exact congrArg (fun l => { s with cat := { s.cat with records := l } }) gone

/-- A record with a raw is gone, and its raw given back (R49, R10). -/
theorem removeRecord_raw {n : Nat} {r : Record} {c : List Nat} (hr : s.record n = some r) (hc : r.raw = some c) (hj : s.job n = none)
    (hw : ∀ j, s.currentJob = some j → j.state = .running) :
    removeRecord n s = { s.dropRecord n with fsc := s.storeWith c } := by
  unfold removeRecord
  rw [hr]
  dsimp only
  rw [hc]
  dsimp only
  rw [releaseChain_noWaiting (by exact hw)]
  have store : (s.updRecord n fun x => { x with raw := none }).storeWith c = s.storeWith c := by
    unfold State.storeWith
    rw [chainInUse_updRecord hj]
    rfl
  rw [store]
  have gone := dropRecord_updRecord s n fun x => { x with raw := none }
  exact congrArg (fun t : State => { t with fsc := s.storeWith c }) gone

theorem removeRecord_noRaw {n : Nat} {r : Record} (hr : s.record n = some r) (hc : r.raw = none) : removeRecord n s = s.dropRecord n := by
  unfold removeRecord
  rw [hr]
  dsimp only
  rw [hc]

/-! ## Members discarded (R35, R49) -/

/-- The members of a list that a discard takes out of the catalog at once (R49). -/
def Record.leavesAmong (ns : List Nat) (r : Record) : Bool := ns.contains r.shot && r.state == .provisional

/-- The discard mark of a member that stays until its raw completion (R49). -/
def Record.discardMark (ns : List Nat) (r : Record) : Record := if ns.contains r.shot = true then { r with mark := .discard } else r

/-- The raws of the members that leave, in the catalog's order. -/
def State.rawsLeaving (s : State) (ns : List Nat) : List (List Nat) :=
  (s.cat.records.filter (Record.leavesAmong ns)).filterMap Record.raw

theorem withDiscarded_eq (s : State) (ns : List Nat) :
    s.withDiscarded ns = { s with
      fsc := { s.fsc with freeList := s.fsc.freeList ++ ((s.rawsLeaving ns).filter fun c => !s.chainInUse c).flatten
                          releasing := s.fsc.releasing ++ (s.rawsLeaving ns).filter fun c => s.chainInUse c }
      cat := { s.cat with
        records := (s.cat.records.filter fun r => !r.leavesAmong ns).map (Record.discardMark ns) } } := rfl

/-- The catalog of `withDiscarded` for one member, in its place. -/
theorem discarded_one {n : Nat} {r : Record} {as bs : List Record} (hr : r.shot = n) (ha : ∀ a ∈ as, a.shot ≠ n)
    (hb : ∀ b ∈ bs, b.shot ≠ n) :
    ((as ++ r :: bs).filter fun x => !x.leavesAmong [n]).map (Record.discardMark [n])
      = if r.state = .provisional then as ++ bs else as ++ { r with mark := .discard } :: bs := by
  have others : ∀ l : List Record, (∀ x ∈ l, x.shot ≠ n) →
      (l.filter fun x => !x.leavesAmong [n]).map (Record.discardMark [n]) = l := by
    intro l hl
    rw [List.filter_eq_self.mpr fun x hx => by simp [Record.leavesAmong, hl x hx]]
    exact (List.map_congr_left fun x hx => by simp [Record.discardMark, hl x hx]).trans (List.map_id l)
  rw [List.filter_append, List.map_append, others as ha]
  split
  case isTrue h => rw [List.filter_cons_of_neg (by simp [Record.leavesAmong, hr, h]), others bs hb]
  case isFalse h =>
    rw [List.filter_cons_of_pos (by simp [Record.leavesAmong, hr, h]), List.map_cons, others bs hb]
    simp [Record.discardMark, hr]

/-- One member that leaves. -/
theorem filter_leaves_one {n : Nat} {r : Record} {as bs : List Record} (hl : s.cat.records = as ++ r :: bs) (hr : r.shot = n)
    (ha : ∀ a ∈ as, a.shot ≠ n) (hb : ∀ b ∈ bs, b.shot ≠ n) :
    s.cat.records.filter (Record.leavesAmong [n]) = if r.state = .provisional then [r] else [] := by
  have others : ∀ l : List Record, (∀ x ∈ l, x.shot ≠ n) → l.filter (Record.leavesAmong [n]) = [] := fun l hl =>
    List.filter_eq_nil_iff.mpr fun x hx => by simp [Record.leavesAmong, hl x hx]
  rw [hl, List.filter_append, others as ha, List.nil_append, List.filter_cons, others bs hb]
  by_cases h : r.state = .provisional <;> simp [Record.leavesAmong, hr, h]

/-- The raws of one member that leaves. -/
theorem rawsLeaving_one {n : Nat} {r : Record} {as bs : List Record} (hl : s.cat.records = as ++ r :: bs) (hr : r.shot = n)
    (ha : ∀ a ∈ as, a.shot ≠ n) (hb : ∀ b ∈ bs, b.shot ≠ n) :
    s.rawsLeaving [n] = if r.state = .provisional then r.raw.toList else [] := by
  unfold State.rawsLeaving
  rw [filter_leaves_one hl hr ha hb]
  split
  · cases h : r.raw <;> simp [h]
  · rfl

theorem storeWith_eq (s : State) (c : List Nat) : s.storeWith c = { s.fsc with
    freeList := s.fsc.freeList ++ ([c].filter fun c => !s.chainInUse c).flatten
    releasing := s.fsc.releasing ++ [c].filter fun c => s.chainInUse c } := by
  unfold State.storeWith
  cases h : s.chainInUse c <;> simp [h]

theorem withDiscarded_none (s : State) {ns : List Nat} (h : ∀ r ∈ s.cat.records, r.shot ∉ ns) : s.withDiscarded ns = s := by
  have stay : (s.cat.records.filter fun r => !r.leavesAmong ns).map (Record.discardMark ns) = s.cat.records := by
    rw [List.filter_eq_self.mpr fun x hx => by simp [Record.leavesAmong, h x hx]]
    exact (List.map_congr_left fun x hx => by simp [Record.discardMark, h x hx]).trans (List.map_id _)
  have noRaws : s.rawsLeaving ns = [] := by
    unfold State.rawsLeaving
    rw [List.filter_eq_nil_iff.mpr fun x hx => by simp [Record.leavesAmong, h x hx]]
    rfl
  rw [withDiscarded_eq, stay, noRaws]
  simp

/-- A member discarded, its slabs free or held up (R35, R49, R10). -/
theorem discardMember_eq (hn : (s.cat.records.map Record.shot).Nodup) {n : Nat} (hj : s.job n = none)
    (hw : ∀ j, s.currentJob = some j → j.state = .running) : discardMember n s = s.withDiscarded [n] := by
  unfold discardMember
  cases hr : s.record n with
  | none => exact (withDiscarded_none s fun r hm => by simpa using record_none.mp hr r hm).symm
  | some r =>
    obtain ⟨as, bs, hl, ha, hb⟩ := record_split hn hr
    have others : ∀ l : List Record, (∀ x ∈ l, x.shot ≠ n) → l.filter (fun x => x.shot != n) = l := fun l hl =>
      List.filter_eq_self.mpr fun x hx => by simpa using hl x hx
    have dropped : s.cat.records.filter (fun x => x.shot != n) = as ++ bs := by
      rw [hl, List.filter_append, others as ha, List.filter_cons_of_neg (by simp [record_shot hr]), others bs hb]
    dsimp only
    rw [withDiscarded_eq, rawsLeaving_one hl (record_shot hr) ha hb, hl, discarded_one (record_shot hr) ha hb]
    by_cases hp : r.state = .provisional
    · rw [if_pos (by rw [hp]; rfl), if_pos hp, if_pos hp]
      cases hc : r.raw with
      | none =>
        rw [removeRecord_noRaw hr hc]
        simp only [Option.toList_none, List.filter_nil, List.flatten_nil, List.append_nil]
        exact congrArg (fun l => { s with cat := { s.cat with records := l } }) dropped
      | some c =>
        have gone : s.dropRecord n = { s with cat := { s.cat with records := as ++ bs } } :=
          congrArg (fun l => { s with cat := { s.cat with records := l } }) dropped
        rw [removeRecord_raw hr hc hj hw, storeWith_eq, gone]
        rfl
    · rw [if_neg (by simpa using hp), if_neg hp, if_neg hp]
      simp only [List.filter_nil, List.flatten_nil, List.append_nil]
      refine congrArg (fun l => { s with cat := { s.cat with records := l } }) ?_
      have same : ∀ l : List Record, (∀ x ∈ l, x.shot ≠ n) →
          l.map (fun x => if x.shot == n then { { x with mark := .discard } with shot := x.shot } else x) = l := fun l hl =>
        (List.map_congr_left fun x hx => by simp [hl x hx]).trans (List.map_id l)
      rw [hl, List.map_append, List.map_cons, same as ha, same bs hb, if_pos (by simpa using record_shot hr)]

/-! ## Several members (R35) -/

theorem withDiscarded_record {n m : Nat} (hn : (s.cat.records.map Record.shot).Nodup) (h : m ≠ n) :
    (s.withDiscarded [n]).record m = s.record m := by
  cases hr : s.record n with
  | none => rw [withDiscarded_none s fun r hm => by simpa using record_none.mp hr r hm]
  | some r =>
    obtain ⟨as, bs, hl, ha, hb⟩ := record_split hn hr
    have hs := record_shot hr
    have skip : (r.shot == m) = false := by simpa [hs] using h.symm
    unfold State.record
    rw [withDiscarded_eq]
    dsimp only
    rw [hl, discarded_one hs ha hb]
    split <;> simp [List.find?_append, skip]

theorem withDiscarded_chainInUse {n : Nat} (hn : (s.cat.records.map Record.shot).Nodup) (hj : s.job n = none) (c : List Nat) :
    (s.withDiscarded [n]).chainInUse c = s.chainInUse c :=
  chainInUse_congr (t := s.withDiscarded [n]) (s := s) rfl rfl rfl rfl
    (fun _ hm => by rw [withDiscarded_record hn (ne_of_noJob hj hm)]) c

/-- What comes after the first of a sublist comes after it in the list. -/
theorem sublist_after {n : Nat} {ns as bs : List Nat} (h : (n :: ns).Sublist (as ++ n :: bs)) (ha : n ∉ as) : ns.Sublist bs := by
  induction as with
  | nil => exact List.cons_sublist_cons.mp h
  | cons a as ih =>
    rw [List.cons_append, List.cons_sublist_cons'] at h
    rcases h with h | ⟨rfl, -⟩
    · exact ih h fun hm => ha (List.mem_cons_of_mem a hm)
    · exact absurd List.mem_cons_self ha

/-- The catalog after the first member and then the others is the catalog after all of them. -/
theorem discarded_cons (n : Nat) (ns : List Nat) (rs : List Record) :
    ((((rs.filter fun r => !r.leavesAmong [n]).map (Record.discardMark [n])).filter fun r => !r.leavesAmong ns).map
        (Record.discardMark ns)) = (rs.filter fun r => !r.leavesAmong (n :: ns)).map (Record.discardMark (n :: ns)) := by
  rw [List.filter_map, List.filter_filter, List.map_map]
  have leave : ∀ r : Record, (((fun r : Record => !r.leavesAmong ns) ∘ Record.discardMark [n]) r && !r.leavesAmong [n])
      = !r.leavesAmong (n :: ns) := by
    intro r
    by_cases h : r.shot = n <;> simp +contextual [Record.leavesAmong, Record.discardMark, h]
  have mark : Record.discardMark ns ∘ Record.discardMark [n] = Record.discardMark (n :: ns) := by
    funext r
    by_cases h : r.shot = n <;> by_cases h' : r.shot ∈ ns <;> simp [Record.discardMark, h, h']
  rw [mark, List.filter_congr fun r _ => leave r]

/-- The members of a list in the catalog's order: the first stands before the others. -/
theorem members_inOrder (hd : (s.cat.records.map Record.shot).Nodup) {n : Nat} {ns : List Nat}
    (hs : (n :: ns).Sublist (s.cat.records.map Record.shot)) :
    ∃ r as bs, s.record n = some r ∧ s.cat.records = as ++ r :: bs ∧ (∀ a ∈ as, a.shot ≠ n ∧ a.shot ∉ ns) ∧ (∀ b ∈ bs, b.shot ≠ n)
      ∧ ns.Sublist (bs.map Record.shot) := by
  obtain ⟨x, hm, hx⟩ := List.mem_map.mp (hs.subset List.mem_cons_self)
  obtain ⟨r, hr⟩ := Option.isSome_iff_exists.mp (List.find?_isSome.mpr ⟨x, hm, by simpa using hx⟩ : (s.record n).isSome = true)
  obtain ⟨as, bs, hl, ha, hb⟩ := record_split hd hr
  rw [hl, List.map_append, List.map_cons, record_shot hr] at hs hd
  have later : ns.Sublist (bs.map Record.shot) :=
    sublist_after hs fun hm => (by obtain ⟨a, hma, e⟩ := List.mem_map.mp hm; exact ha a hma e)
  have before : ∀ a ∈ as, a.shot ∉ ns := fun a hma hm =>
    (List.nodup_append.mp hd).2.2 _ (List.mem_map_of_mem hma) _ (List.mem_cons_of_mem _ (later.subset hm)) rfl
  exact ⟨r, as, bs, hr, hl, fun a hm => ⟨ha a hm, before a hm⟩, hb, later⟩

/-- The first of several members that leave, and then the others. -/
theorem filter_leaves_cons (hd : (s.cat.records.map Record.shot).Nodup) {n : Nat} {ns : List Nat}
    (hs : (n :: ns).Sublist (s.cat.records.map Record.shot)) :
    s.cat.records.filter (Record.leavesAmong (n :: ns))
      = s.cat.records.filter (Record.leavesAmong [n]) ++ s.cat.records.filter (Record.leavesAmong ns) := by
  have hn : n ∉ ns := (List.nodup_cons.mp (hs.nodup hd)).1
  obtain ⟨r, as, bs, hr, hl, ha, hb, -⟩ := members_inOrder hd hs
  have hr := record_shot hr
  have noneBefore : ∀ ms, (∀ m ∈ ms, m = n ∨ m ∈ ns) → as.filter (Record.leavesAmong ms) = [] := fun ms hms =>
    List.filter_eq_nil_iff.mpr fun x hx h => by
      simp only [Record.leavesAmong, Bool.and_eq_true, List.contains_iff_mem] at h
      exact (hms _ h.1).elim (ha x hx).1 (ha x hx).2
  have after : bs.filter (Record.leavesAmong (n :: ns)) = bs.filter (Record.leavesAmong ns) :=
    List.filter_congr fun x hx => by simp [Record.leavesAmong, hb x hx]
  have noneAfter : bs.filter (Record.leavesAmong [n]) = [] :=
    List.filter_eq_nil_iff.mpr fun x hx => by simp [Record.leavesAmong, hb x hx]
  rw [hl, List.filter_append, List.filter_append, List.filter_append, noneBefore (n :: ns) (by simp), noneBefore [n] (by simp),
    noneBefore ns (fun m hm => .inr hm), List.nil_append, List.nil_append, List.nil_append, List.filter_cons, List.filter_cons,
    List.filter_cons, after, noneAfter]
  by_cases h : r.state = .provisional <;> simp [Record.leavesAmong, hr, hn, h]

/-- The first member discarded, the raws of the others are as before. -/
theorem rawsLeaving_withDiscarded {n : Nat} {ns : List Nat} (hn : n ∉ ns) : (s.withDiscarded [n]).rawsLeaving ns = s.rawsLeaving ns := by
  have raw : Record.raw ∘ Record.discardMark [n] = Record.raw := by
    funext r
    by_cases h : r.shot = n <;> simp [Record.discardMark, h]
  have leave : ∀ r : Record, ((Record.leavesAmong ns ∘ Record.discardMark [n]) r && !r.leavesAmong [n]) = r.leavesAmong ns := by
    intro r
    by_cases h : r.shot = n <;> simp [Record.leavesAmong, Record.discardMark, h, hn]
  unfold State.rawsLeaving
  rw [withDiscarded_eq]
  dsimp only
  rw [List.filter_map, List.filter_filter, List.filterMap_map, raw, List.filter_congr fun r _ => leave r]

theorem withDiscarded_cons (hd : (s.cat.records.map Record.shot).Nodup) {n : Nat} (hj : s.job n = none) {ns : List Nat}
    (hs : (n :: ns).Sublist (s.cat.records.map Record.shot)) : (s.withDiscarded [n]).withDiscarded ns = s.withDiscarded (n :: ns) := by
  have uses : (s.withDiscarded [n]).chainInUse = s.chainInUse := funext (withDiscarded_chainInUse hd hj)
  have raws : s.rawsLeaving (n :: ns) = s.rawsLeaving [n] ++ s.rawsLeaving ns := by
    unfold State.rawsLeaving
    rw [filter_leaves_cons hd hs, List.filterMap_append]
  rw [withDiscarded_eq (s.withDiscarded [n]), withDiscarded_eq s (n :: ns), raws,
    rawsLeaving_withDiscarded (List.nodup_cons.mp (hs.nodup hd)).1, uses, List.filter_append, List.filter_append,
    List.flatten_append, ← List.append_assoc, ← List.append_assoc, ← discarded_cons]
  rfl

/-- Members discarded one after the other, in the catalog's order, are discarded together (R35, R49, R10). -/
theorem discardMembers_eq (hd : (s.cat.records.map Record.shot).Nodup) {ns : List Nat}
    (hs : ns.Sublist (s.cat.records.map Record.shot)) (hj : ∀ n ∈ ns, s.job n = none)
    (hw : ∀ j, s.currentJob = some j → j.state = .running) : discardMembers ns s = s.withDiscarded ns := by
  induction ns generalizing s with
  | nil => exact (withDiscarded_none s fun r _ => List.not_mem_nil).symm
  | cons n ns ih =>
    have hjn := hj n List.mem_cons_self
    have hd' : ((s.withDiscarded [n]).cat.records.map Record.shot).Nodup := by
      rw [← discardMember_eq hd hjn hw]
      exact (discardMember_cascade n s).keeps_nodup hd
    have left : ns.Sublist ((s.withDiscarded [n]).cat.records.map Record.shot) := by
      obtain ⟨r, as, bs, hr, hl, ha, hb, later⟩ := members_inOrder hd hs
      rw [withDiscarded_eq]
      dsimp only
      rw [hl, discarded_one (record_shot hr) (fun a hm => (ha a hm).1) hb]
      refine later.trans ?_
      split <;> simp [List.map_append]
    rw [discardMembers, discardMember_eq hd hjn hw, ih hd' left (fun m hm => hj m (List.mem_cons_of_mem n hm)) (by exact hw)]
    exact withDiscarded_cons hd hjn hs

end Sys2Proof.Machine
end

section
/-! SUPPORT. Frame starts under pre-capture (R31, R36): the count, the room made in the ring, and the taking of the frame. -/

namespace Sys2Proof.Machine

variable {s t u : State} {m : Mode}

/-- Pre-capture once its frame is counted (R31). -/
def Precapture.counted (p : Precapture) : Precapture :=
  { p with frames := if p.fresh then p.frames else (p.frames + 1) % 4294967296, fresh := false }

/-- The new frame opened and counted under pre-capture (R16, R31). -/
def State.withPreFrame (s : State) : State := s.withCountedFrame s.siu.burst s.siu.pre.counted

/-- The oldest member of a full ring gives way (R35). -/
def makeRoom (s : State) : State :=
  match s.ring with
  | oldest :: rest => if s.siu.pre.depth ≤ rest.length + 1 then discardMember oldest s else s
  | [] => s

theorem makeRoom_fits (h : s.ring.length < s.siu.pre.depth) : makeRoom s = s := by
  unfold makeRoom
  split
  case _ oldest rest hr => exact if_neg (by rw [hr, List.length_cons] at h; omega)
  · rfl

theorem makeRoom_full {oldest : Nat} {rest : List Nat} (hr : s.ring = oldest :: rest) (h : s.siu.pre.depth ≤ rest.length + 1) :
    makeRoom s = discardMember oldest s := by
  unfold makeRoom
  rw [hr]
  exact if_pos h

/-- Pre-capture decides on its frame once it is counted (R31, R36). -/
theorem decidePre_opened (m : Mode) (s : State) :
    decidePre s.openedFrame m s.withNewFrame
      = if s.siu.pre.counted.frames % s.siu.pre.counted.divisor = 0 && 0 < s.siu.pre.depth then
          match spaceAndSlabs m (makeRoom s.withPreFrame) with
          | some (chain, t) => takeFrame .pre s.openedFrame m chain t
          | none => makeRoom s.withPreFrame
        else s.withPreFrame := by
  unfold decidePre
  rfl

theorem decidePre_noCandidate (h : s.siu.pre.counted.frames % s.siu.pre.counted.divisor ≠ 0 ∨ s.siu.pre.depth = 0) :
    decidePre s.openedFrame m s.withNewFrame = s.withPreFrame := by
  rw [decidePre_opened, if_neg]
  rw [Bool.and_eq_true, decide_eq_true_iff, decide_eq_true_iff]
  omega

theorem decidePre_taken (hn : s.siu.pre.counted.frames % s.siu.pre.counted.divisor = 0) (hd : 0 < s.siu.pre.depth)
    (hu : makeRoom s.withPreFrame = u) {chain : List Nat} (h : spaceAndSlabs m u = some (chain, t)) :
    decidePre s.openedFrame m s.withNewFrame = takeFrame .pre s.openedFrame m chain t := by
  rw [decidePre_opened, if_pos (by rw [Bool.and_eq_true, decide_eq_true_iff, decide_eq_true_iff]; exact ⟨hn, hd⟩), hu, h]

theorem decidePre_noSpace (hn : s.siu.pre.counted.frames % s.siu.pre.counted.divisor = 0) (hd : 0 < s.siu.pre.depth)
    (hu : makeRoom s.withPreFrame = u) (h : spaceAndSlabs m u = none) : decidePre s.openedFrame m s.withNewFrame = u := by
  rw [decidePre_opened, if_pos (by rw [Bool.and_eq_true, decide_eq_true_iff, decide_eq_true_iff]; exact ⟨hn, hd⟩), hu, h]

/-- The member discarded before or after the frame is opened: the same (R16, R35). -/
theorem withCountedFrame_discarded (hf : s.siu.frame = none) (ns : List Nat) (b : Burst) (p : Precapture) :
    (s.withCountedFrame b p).withDiscarded ns = (s.withDiscarded ns).withCountedFrame b p := by
  have uses : (s.withCountedFrame b p).chainInUse = s.chainInUse := funext (chainInUse_withNewFrame hf)
  rw [withDiscarded_eq (s.withCountedFrame b p), withDiscarded_eq s, uses]
  rfl

/-- Settles O17, by the room in the ring and the grant of the space test. -/
theorem precaptureFrame : Obligations.PrecaptureFrame := by
  intro s m hf hm hc he ha
  have run : exec .frameStart s = .next (decidePre s.openedFrame m s.withNewFrame) := by
    rw [exec_frameStart_first hf, decideCapture_armed (by exact hm) (by exact he) (by exact ha)]
  rw [run]
  refine ⟨fun hn => congrArg _ (decidePre_noCandidate hn), fun hn hd hr hs hk => congrArg _ ?_, fun hn hd h => congrArg _ ?_,
    fun oldest rest hn hd hr hl hnd hj hw => ?_⟩
  · exact (decidePre_taken hn (Nat.zero_lt_of_lt hd) (makeRoom_fits (by exact hd))
      (spaceAndSlabs_granted (s := s.withPreFrame) hc hr hs hk)).trans (takeFrame_opened hm .pre _ _)
  · exact decidePre_noSpace hn (Nat.zero_lt_of_lt hd) (makeRoom_fits (by exact hd)) (spaceAndSlabs_refused (by exact h))
  · have room : makeRoom s.withPreFrame = (s.withDiscarded [oldest]).withPreFrame := by
      rw [makeRoom_full (s := s.withPreFrame) hr hl, discardMember_eq (by exact hnd) (by exact hj) (by exact hw)]
      exact withCountedFrame_discarded hf _ _ _
    refine ⟨fun hr' hs hk => congrArg _ ?_, fun h => congrArg _ ?_⟩
    · exact (decidePre_taken hn hd room (spaceAndSlabs_granted (s := (s.withDiscarded [oldest]).withPreFrame) hc hr' hs hk)).trans
        (takeFrame_opened (s := s.withDiscarded [oldest]) hm .pre _ _)
    · exact decidePre_noSpace hn hd room (spaceAndSlabs_refused (by exact h))

end Sys2Proof.Machine
end

section
/-! SUPPORT. PRECAPTURE (R30, R35): its refusals, and the ring kept, cut down or discarded. -/

namespace Sys2Proof.Machine

variable {s t : State}

/-- A request that only the body port may make finds its owner with the state as it is. -/
theorem exec_bodyRequest {c : Instr} {r : Request} {h : Header} (hr : reachesOwner c h s) (hc : c.asRequest = some (r, h))
    (hb : granted r .tether = false) : exec c s = .next (ownerAct c s) := by
  have port : h.port ≠ .tether := fun hp => by
    obtain ⟨r', hc', hg, -⟩ := hr
    cases hc.symm.trans hc'
    rw [hp, hb] at hg
    cases hg
  rw [exec_owner hr, atOwner_body port]

/-! ## Members marked (R35) -/

/-- The records of the shots of a list with a ring mark. -/
def State.withMarks (s : State) (k : RingMark) (ns : List Nat) : State :=
  { s with cat := { s.cat with records := s.cat.records.map fun r => if ns.contains r.shot = true then { r with mark := k } else r } }

theorem withMarks_nil (s : State) (k : RingMark) : s.withMarks k [] = s := by
  unfold State.withMarks
  rw [show (s.cat.records.map fun r => if ([] : List Nat).contains r.shot = true then { r with mark := k } else r) = s.cat.records
    from List.map_id _]

theorem withMarks_cons (s : State) (k : RingMark) (n : Nat) (ns : List Nat) :
    (s.updRecord n fun x => { x with mark := k }).withMarks k ns = s.withMarks k (n :: ns) := by
  refine congrArg (fun l => { s with cat := { s.cat with records := l } }) ?_
  refine (List.map_map ..).trans (List.map_congr_left fun r _ => ?_)
  by_cases h : r.shot = n <;> by_cases h' : r.shot ∈ ns <;> simp [h, h']

/-- No shot of a list is PROVISIONAL. -/
def State.noneProvisional (s : State) (ns : List Nat) : Prop := ∀ r ∈ s.cat.records, r.shot ∈ ns → r.state ≠ .provisional

theorem noneProvisional_mark {ns : List Nat} (h : s.noneProvisional ns) (n : Nat) (k : RingMark) :
    (s.updRecord n fun x => { x with mark := k }).noneProvisional ns := by
  intro r hm hs
  obtain ⟨x, hx, rfl⟩ := List.mem_map.mp hm
  by_cases e : x.shot = n
  · rw [if_pos (by simpa using e)] at hs ⊢
    exact h x hx hs
  · rw [if_neg (by simpa using e)] at hs ⊢
    exact h x hx hs

/-- An operation that only marks a member that is not PROVISIONAL, on one member after the other (R35). -/
theorem members_marks {one : Nat → State → State} {k : RingMark}
    (hone : ∀ n s, (∀ r, s.record n = some r → r.state ≠ .provisional) → one n s = s.updRecord n fun x => { x with mark := k })
    {ns : List Nat} (h : s.noneProvisional ns) : ns.foldl (fun s n => one n s) s = s.withMarks k ns := by
  induction ns generalizing s with
  | nil => exact (withMarks_nil s _).symm
  | cons n ns ih =>
    have head : ∀ r, s.record n = some r → r.state ≠ .provisional := fun r hr => by
      obtain ⟨hm, rfl⟩ := record_mem hr
      exact h r hm List.mem_cons_self
    have rest : s.noneProvisional ns := fun r hm hs => h r hm (List.mem_cons_of_mem n hs)
    rw [List.foldl_cons, hone n s head, ih (noneProvisional_mark rest n _), withMarks_cons]

theorem discardMembers_foldl (ns : List Nat) (s : State) : discardMembers ns s = ns.foldl (fun s n => discardMember n s) s := by
  induction ns generalizing s with
  | nil => rfl
  | cons n ns ih => exact ih _

/-- Where no member is PROVISIONAL every discard is a mark (R35, R49). -/
theorem discardMembers_marks {ns : List Nat} (h : s.noneProvisional ns) : discardMembers ns s = s.withMarks .discard ns := by
  rw [discardMembers_foldl]
  refine members_marks (fun n s hn => ?_) h
  unfold discardMember
  cases hr : s.record n with
  | none => exact (updRecord_absent s _ hr).symm
  | some r => exact if_neg (by simpa using hn r hr)

/-! ## The ring (R35) -/

/-- In a catalog of different shots the ring holds the shot numbers of its members and of no other record. -/
theorem mem_ring_iff (hn : (s.cat.records.map Record.shot).Nodup) {r : Record} (hm : r ∈ s.cat.records) :
    r.shot ∈ s.ring ↔ r.inRing = true := by
  constructor
  · intro h
    obtain ⟨x, hx, e⟩ := List.mem_map.mp h
    obtain ⟨hx, hin⟩ := List.mem_filter.mp hx
    rwa [← eq_of_key_eq hn hx hm e]
  · exact fun h => List.mem_map_of_mem (List.mem_filter.mpr ⟨hm, h⟩)

theorem ring_sublist (s : State) : s.ring.Sublist (s.cat.records.map Record.shot) := List.filter_sublist.map _

theorem ring_noneProvisional (hn : (s.cat.records.map Record.shot).Nodup)
    (h : ∀ r ∈ s.cat.records, r.inRing = true → r.state = .exposing) : s.noneProvisional s.ring := fun r hm hs => by
  rw [h r hm ((mem_ring_iff hn hm).mp hs)]
  decide

/-- The ring's members marked, each by its own record. -/
theorem withMarks_ring (hn : (s.cat.records.map Record.shot).Nodup) (k : RingMark) :
    s.withMarks k s.ring = { s with cat := { s.cat with
      records := s.cat.records.map fun r => if r.inRing = true then { r with mark := k } else r } } := by
  refine congrArg (fun l => { s with cat := { s.cat with records := l } }) (List.map_congr_left fun r hm => ?_)
  simp only [List.contains_iff_mem, mem_ring_iff hn hm]

/-! ## PRECAPTURE (R30) -/

theorem exec_precapture {h : Header} {action depth divisor : Byte} (hr : reachesOwner (.precapture h action depth divisor) h s) :
    exec (.precapture h action depth divisor) s = .next (ownPrecapture h action depth.toNat divisor.toNat s) :=
  exec_bodyRequest hr rfl rfl

theorem readArm_none {b : Byte} (h : 1 < b.toNat) : readArm b = none := by
  unfold readArm
  rw [if_neg (by rintro rfl; exact absurd h (by decide)), if_neg (by rintro rfl; exact absurd h (by decide))]

theorem ownPrecapture_disarm (h : Header) (depth divisor : Nat) (s : State) :
    ownPrecapture h 1 depth divisor s = (disarmRing s).answer .precapture h [] := rfl

/-- ARM with its new settings, before the ring is cut down to its depth (R30). -/
def State.withArmed (s : State) (depth divisor : Nat) : State :=
  { s with siu := { s.siu with pre := { armed := true, depth := min 24 depth, divisor := max 1 (min 16 divisor), frames := 0,
                                        fresh := true } } }

theorem ownPrecapture_arm (hc : s.fsc.configured = true) (ht : s.siu.thermal = .normal) (h : Header) (depth divisor : Nat) :
    ownPrecapture h 0 depth divisor s
      = (discardMembers (s.ring.take (s.ring.length - min 24 depth)) (s.withArmed depth divisor)).answer .precapture h [] := by
  show (if (!s.fsc.configured) = true then _ else if (s.siu.thermal != .normal) = true then _ else _) = _
  rw [if_neg (by simp [hc]), if_neg (by simp [ht])]
  dsimp only
  rw [clampNat_zero, clampNat_eq (by decide)]
  rfl

theorem ownPrecapture_unconfigured (hc : s.fsc.configured = false) (h : Header) (depth divisor : Nat) :
    ownPrecapture h 0 depth divisor s = s.refuse .precapture h .notConfigured := by
  show (if (!s.fsc.configured) = true then _ else _) = _
  rw [if_pos (by rw [hc]; rfl)]

theorem ownPrecapture_thermal (hc : s.fsc.configured = true) (ht : s.siu.thermal ≠ .normal) (h : Header) (depth divisor : Nat) :
    ownPrecapture h 0 depth divisor s = s.refuse .precapture h .thermal := by
  show (if (!s.fsc.configured) = true then _ else if (s.siu.thermal != .normal) = true then _ else _) = _
  rw [if_neg (by simp [hc]), if_pos (by simpa using ht)]

/-- Settles O25, by the discards of the members that leave the ring. -/
theorem precapture : Obligations.Precapture := by
  intro h action depth divisor s hr
  rw [exec_precapture hr]
  refine ⟨fun hb => ?_, ?_, ?_, ?_, ?_, fun hn hj hw => ⟨?_, ?_⟩⟩
  · unfold ownPrecapture
    rw [readArm_none hb]
    rfl
  · rintro rfl hc
    exact congrArg _ (ownPrecapture_unconfigured hc h _ _)
  · rintro rfl hc ht
    exact congrArg _ (ownPrecapture_thermal hc ht h _ _)
  · rintro rfl hc ht hl
    rw [ownPrecapture_arm hc ht, Nat.sub_eq_zero_of_le hl]
    rfl
  · rintro rfl hn he
    rw [ownPrecapture_disarm, disarmRing, discardMembers_marks (by exact ring_noneProvisional hn he)]
    exact congrArg (fun t : State => Host.Outcome.next (State.answer
      { t with siu := { s.siu with pre := { s.siu.pre with armed := false } } } .precapture h [])) (withMarks_ring hn .discard)
  · rintro rfl hc ht
    rw [ownPrecapture_arm hc ht, discardMembers_eq (s := s.withArmed _ _) (by exact hn)
      (by exact (List.take_sublist _ _).trans (ring_sublist s)) (fun n hm => hj n (List.mem_of_mem_take hm)) (by exact hw)]
    rfl
  · rintro rfl
    rw [ownPrecapture_disarm, disarmRing, discardMembers_eq (by exact hn) (by exact ring_sublist s) (by exact hj) (by exact hw)]
    rfl

end Sys2Proof.Machine
end

section
/-! SUPPORT. A record that becomes STORED where slot A alone waits for it (R48, R139), with and without a job of auto-develop (R114), and
the ring promoted member after member (R35, R37). -/

namespace Sys2Proof.Machine

variable {s t : State}

/-! ## A record changed, as the statements write it -/

theorem updRecord_eq_withRecord (s : State) (n : Nat) {f : Record → Record} (hf : ∀ r, (f r).shot = r.shot) :
    s.updRecord n f = s.withRecord n f := by
  refine congrArg (fun l => { s with cat := { s.cat with records := l } }) (List.map_congr_left fun r _ => ?_)
  by_cases h : r.shot = n
  · rw [if_pos (by simpa using h), if_pos h, ← hf r]
  · rw [if_neg (by simpa using h), if_neg h]

/-- The record of a shot after a change of it. -/
theorem record_changed {n : Nat} {r : Record} (hr : s.record n = some r) (f : Record → Record) (hf : ∀ r, (f r).shot = r.shot)
    (hc : t.cat.records = (s.withRecord n f).cat.records) : t.record n = some (f r) := by
  have same : t.record n = (s.withRecord n f).record n := by rw [State.record, State.record, hc]
  rw [same, ← updRecord_eq_withRecord s n hf, updRecord_record_same, hr, Option.map_some, Record.updated, ← hf r]

theorem withRecord_withRecord (s : State) (n : Nat) {f : Record → Record} (hf : ∀ r, (f r).shot = r.shot) (g : Record → Record) :
    (s.withRecord n f).withRecord n g = s.withRecord n fun r => g (f r) := by
  refine congrArg (fun l => { s with cat := { s.cat with records := l } })
    ((List.map_map ..).trans (List.map_congr_left fun r _ => ?_))
  by_cases h : r.shot = n <;> simp [h, hf]

/-- A record that a card item keeps: nothing of it is released (R54 to R56). -/
theorem testRelease_kept {n : Nat} {r : Record} (hr : s.record n = some r) (hraw : r.raw.isSome = true) (hp : r.proof = none)
    (ha : r.reqA.settled = false) : testRelease n s = s := by
  obtain ⟨c, hc⟩ := Option.isSome_iff_exists.mp hraw
  have raw : releaseRaw n s = s := by
    unfold releaseRaw
    rw [hr]
    dsimp only
    rw [hc]
    exact if_neg (by simp [Record.rawFree, ha])
  have proof : releaseProof n s = s := by
    unfold releaseProof
    rw [hr]
    dsimp only
    rw [hp]
  unfold testRelease
  rw [raw, proof]
  unfold freeRecord
  rw [hr]
  exact if_neg (by simp [Record.freeable, hc])

/-! ## STORED where slot A alone waits (R48, R139) -/

/-- Raws go to slot A, which is not IDLE, and not to slot B; no rule acts. -/
structure SlotAWaits (s : State) : Prop where
  contentA : s.crw.contentA = true
  contentB : s.crw.contentB = false
  busy : s.crw.slotA.state ≠ .idle
  noRules : s.ttc.attached = false ∨ s.ttc.armed = false

/-- A record's item at the tail of slot A's queue. -/
def State.queuedAtA (s : State) (r : Record) : State :=
  { s with crw := { s.crw with slotA := { s.crw.slotA with
    queue := s.crw.slotA.queue ++ [{ shot := r.shot, mode := r.mode }] } } }

/-- A record STORED, its item at the tail of slot A's queue. -/
def State.storedAtA (s : State) (r : Record) : State :=
  (s.queuedAtA r).withRecord r.shot fun x => { x with state := .stored, reqA := .queued }

theorem enqueueCard_slotA (h : SlotAWaits s) (r : Record) :
    enqueueCard r (s.updRecord r.shot fun x => { x with state := .stored }) = s.storedAtA r := by
  let u := s.updRecord r.shot fun x => { x with state := .stored }
  have noOverflow : u.overflowInForce = false := by
    show (s.crw.contentA && s.crw.contentB && s.crw.overflow) = false
    rw [h.contentB, Bool.and_false, Bool.false_and]
  have queued : tryIdle .a (queueItem .a { shot := r.shot, mode := r.mode } u)
      = queueItem .a { shot := r.shot, mode := r.mode } u := if_neg fun e => h.busy (eq_of_beq e)
  have stored : queueItem .a { shot := r.shot, mode := r.mode } u = s.storedAtA r := by
    unfold queueItem State.setReq
    rw [updRecord_eq_withRecord (f := fun x => { x with reqA := .queued }) _ _ fun _ => rfl,
      show u = _ from updRecord_eq_withRecord s r.shot fun _ => rfl]
    exact withRecord_withRecord (f := fun x => { x with state := .stored })
      (s.queuedAtA r) r.shot (fun _ => rfl)
      fun x => { x with reqA := .queued }
  show (if u.overflowInForce = true then _ else if (if u.crw.contentA = true then _ else u).crw.contentB = true then _ else _) = _
  rw [if_neg (by rw [noOverflow]; decide), if_pos (show u.crw.contentA = true from h.contentA), queued, stored]
  exact if_neg (by rw [show (s.storedAtA r).crw.contentB = false from h.contentB]; decide)

theorem evaluateRules_none (h : s.ttc.attached = false ∨ s.ttc.armed = false) (n : Nat) : evaluateRules n s = s := by
  unfold evaluateRules
  rw [if_neg]
  rcases h with h | h <;> simp [h]

theorem storedAtA_record {n : Nat} {r : Record} (hr : s.record n = some r) :
    (s.storedAtA r).record n = some { r with state := .stored, reqA := .queued } := by
  refine record_changed hr (fun x => { x with state := .stored, reqA := .queued }) (fun _ => rfl) ?_
  unfold State.storedAtA
  rw [record_shot hr]
  rfl

/-! ## The job of auto-develop (R114) -/

/-- A job of an internal request at the tail of the list (R114). -/
def State.withJobListed (s : State) (n : Nat) (m : Mode) (p : DevelopParams) (o : JobOrigin) : State :=
  { s with dve := { s.dve with
      jobs := s.dve.jobs ++ [{ number := s.newJobNumber, shot := n, mode := m, params := p, cls := .normal, origin := o,
                               state := .queued, cancel := false, progress := none }]
      nextJob := (s.newJobNumber + 1) % 65536 } }

/-- The same, its record's proof PENDING (R114, R115). -/
def State.withNewJob (s : State) (n : Nat) (m : Mode) (p : DevelopParams) (o : JobOrigin) : State :=
  (s.withJobListed n m p o).withRecord n fun x => { x with proofState := .pending }

/-- Every PROOF item of a shot waits for its proof. -/
def State.proofItemsWait (s : State) (n : Nat) : Prop :=
  ∀ i ∈ s.ttc.queue, i.shot = n → i.content = .proof → i.state = .waitingProof

theorem proofItemsWait_none {n : Nat} (h : s.itemFor n .proof = none) : s.proofItemsWait n := fun i hi hs hc => by
  have := List.find?_eq_none.mp h i hi
  simp [hs, hc] at this

theorem proofSending_waiting {n : Nat} (h : s.proofItemsWait n) : s.proofSending n = false := by
  unfold State.proofSending
  rw [List.any_eq_false]
  intro i hi hb
  simp only [Bool.and_eq_true, beq_iff_eq] at hb
  obtain ⟨⟨hs, hc⟩, hst⟩ := hb
  rw [h i hi hs hc] at hst
  cases hst

theorem ttcJobCreated_waiting {n : Nat} (h : s.proofItemsWait n) : ttcJobCreated n s = s := by
  unfold ttcJobCreated
  cases hi : s.itemFor n .proof with
  | none => rfl
  | some i =>
    have hb := List.find?_some hi
    simp only [Bool.and_eq_true, beq_iff_eq] at hb
    exact if_neg (by rw [h i (List.mem_of_find?_eq_some hi) hb.1 hb.2]; decide)

/-- The list is full: nothing is made (R114). -/
theorem internalRequest_full {n : Nat} {r : Record} (hr : s.record n = some r) (hj : s.job n = none) (hl : 32 ≤ s.dve.jobs.length)
    (p : DevelopParams) (c : Priority) (o : JobOrigin) : (internalRequest n p c o s).2 = s := by
  unfold internalRequest
  rw [hr, hj]
  dsimp only
  split
  · rfl
  · split
    · rfl
    · rw [if_pos (by exact hl)]

/-- The list is full, and the answer says so (R114). -/
theorem internalRequest_queueFull {n : Nat} {r : Record} (hr : s.record n = some r) (hs : r.state = .stored) (hraw : r.raw.isSome = true)
    (hj : s.job n = none) (hi : s.proofItemsWait n) (hl : 32 ≤ s.dve.jobs.length) (p : DevelopParams) (c : Priority) (o : JobOrigin) :
    internalRequest n p c o s = (.queueFull, s) := by
  obtain ⟨x, hraw⟩ := Option.isSome_iff_exists.mp hraw
  unfold internalRequest
  rw [hr, hj]
  dsimp only
  rw [if_neg (by simp [hs, hraw]), if_neg (by rw [proofSending_waiting hi]; decide), if_pos (by exact hl)]

/-- With a place in the list a job joins it; the engine, which has a current job, picks nothing (R114, R115, R117). -/
theorem internalRequest_new {n : Nat} {r : Record} (hr : s.record n = some r) (hs : r.state = .stored) (hraw : r.raw.isSome = true)
    (hj : s.job n = none) (hi : s.proofItemsWait n) (hl : s.dve.jobs.length < 32) (hc : s.currentJob.isSome = true)
    (p : DevelopParams) (o : JobOrigin) : internalRequest n p .normal o s = (.new, s.withNewJob n r.mode p o) := by
  have made : createJob n r.mode p .normal o s = pick (s.withNewJob n r.mode p o) := by
    unfold createJob
    dsimp only
    rw [updRecord_eq_withRecord (f := fun x => { x with proofState := .pending }) _ _ fun _ => rfl]
    show pick (ttcJobCreated n (s.withNewJob n r.mode p o)) = _
    rw [ttcJobCreated_waiting (by exact hi)]
  have current : (s.withNewJob n r.mode p o).currentJob.isSome = true := by
    obtain ⟨j, hj⟩ := Option.isSome_iff_exists.mp hc
    show ((s.dve.jobs ++ [_]).find? _).isSome = true
    rw [List.find?_append, show s.dve.jobs.find? _ = some j from hj]
    rfl
  have noPick : pick (s.withNewJob n r.mode p o) = s.withNewJob n r.mode p o := by
    obtain ⟨j, hj⟩ := Option.isSome_iff_exists.mp current
    unfold pick
    rw [hj]
  obtain ⟨c, hraw⟩ := Option.isSome_iff_exists.mp hraw
  unfold internalRequest
  rw [hr, hj]
  dsimp only
  rw [if_neg (by simp [hs, hraw]), if_neg (by rw [proofSending_waiting hi]; decide), if_neg (by exact Nat.not_le.mpr hl), made, noPick]

/-- The follow-on work of a record that becomes STORED for slot A alone: auto-develop, SHOT_STORED and the release test are left. -/
theorem storeRecord_slotA (h : SlotAWaits s) {n : Nat} {r : Record} (hr : s.record n = some r) :
    storeRecord n s = testRelease n (State.offer
      (if s.dve.auto = true then (internalRequest n r.snapshot .normal .auto (s.storedAtA r)).2 else s.storedAtA r)
      .body (.shotStored n r.frame r.mode r.kind r.truncated)) := by
  obtain ⟨-, rfl⟩ := record_mem hr
  unfold storeRecord
  rw [hr]
  dsimp only
  rw [enqueueCard_slotA h, evaluateRules_none (by exact h.noRules)]
  rfl

/-- STORED for slot A alone, and no job: auto-develop is off, or the list is full (R48, R114). -/
theorem storeRecord_noJob (h : SlotAWaits s) {n : Nat} {r : Record} (hr : s.record n = some r) (hraw : r.raw.isSome = true)
    (hp : r.proof = none) (hd : s.dve.auto = false ∨ s.job n = none ∧ 32 ≤ s.dve.jobs.length) :
    storeRecord n s = (s.storedAtA r).offer .body (.shotStored n r.frame r.mode r.kind r.truncated) := by
  have stored := storedAtA_record hr
  have noJob : (if s.dve.auto = true then (internalRequest n r.snapshot .normal .auto (s.storedAtA r)).2 else s.storedAtA r)
      = s.storedAtA r := by
    rcases hd with hd | ⟨hj, hl⟩
    · exact if_neg (by rw [hd]; decide)
    · rw [internalRequest_full stored (by exact hj) (by exact hl), ite_self]
  rw [storeRecord_slotA h hr, noJob]
  exact testRelease_kept (r := { r with state := .stored, reqA := .queued }) stored hraw hp rfl

/-- STORED for slot A alone, and a job of auto-develop joins the list (R48, R114). -/
theorem storeRecord_autoJob (h : SlotAWaits s) {n : Nat} {r : Record} (hr : s.record n = some r) (hraw : r.raw.isSome = true)
    (hp : r.proof = none) (hd : s.dve.auto = true) (hj : s.job n = none) (hi : s.itemFor n .proof = none)
    (hl : s.dve.jobs.length < 32) (hc : s.currentJob.isSome = true) :
    storeRecord n s = ((s.storedAtA r).withNewJob n r.mode r.snapshot .auto).offer .body
      (.shotStored n r.frame r.mode r.kind r.truncated) := by
  have stored := storedAtA_record hr
  have made := internalRequest_new (s := s.storedAtA r) stored rfl hraw hj (proofItemsWait_none hi) hl hc r.snapshot .auto
  have pending : ((s.storedAtA r).withNewJob n r.mode r.snapshot .auto).record n
      = some { r with state := .stored, reqA := .queued, proofState := .pending } :=
    record_changed stored (fun x => { x with proofState := .pending }) (fun _ => rfl) rfl
  rw [storeRecord_slotA h hr, if_pos hd, made]
  exact testRelease_kept (r := { r with state := .stored, reqA := .queued, proofState := .pending }) pending hraw hp rfl

end Sys2Proof.Machine
end

section
/-! SUPPORT. RAW_COMPLETION (R24, R47): the oldest ended frame's record by its kind and its mark. -/

namespace Sys2Proof.Machine

variable {s t : State}

theorem exec_rawCompletion_none (h : s.siu.ended = []) : exec .rawCompletion s = .next s := by
  show Host.Outcome.next (rawCompletes s) = _
  unfold rawCompletes
  rw [h]

/-- The oldest ended frame leaves its list, and its record takes BL and TRUNCATED (R24). -/
def State.withRawReport (s : State) (e : EndedFrame) (es : List EndedFrame) (n : Nat) : State :=
  State.withRecord { s with siu := { s.siu with ended := es } } n fun x => { x with bl := some e.bl, truncated := e.truncated }

/-- The report of an EXPOSING record's raw goes by kind and mark (R47). -/
theorem exec_rawCompletion {e : EndedFrame} {es : List EndedFrame} {r : Record} (he : s.siu.ended = e :: es)
    (hr : s.record e.capture.shot = some r) (hrel : s.fsc.releasing = []) (hs : r.state = .exposing) :
    exec .rawCompletion s = .next (match r.kind, r.mark with
      | .shot, _ => storeRecord r.shot (s.withRawReport e es r.shot)
      | .pre, .promote => storeRecord r.shot (s.withRawReport e es r.shot)
      | .pre, .discard => removeRecord r.shot (s.withRawReport e es r.shot)
      | .pre, .none => (s.withRawReport e es r.shot).updRecord r.shot fun x => { x with state := .provisional }) := by
  have hn := record_shot hr
  have left : State.record (s.updSiu fun u => { u with ended := es }) e.capture.shot = some r := hr
  show Host.Outcome.next (rawCompletes s) = _
  unfold rawCompletes
  rw [he]
  dsimp only
  rw [show (s.updSiu fun u => { u with ended := es }).fsc.releasing = [] from hrel, settleReleases]
  unfold reportRaw
  dsimp only
  rw [left]
  dsimp only
  rw [if_neg (by rw [hs]; decide), updRecord_eq_withRecord (f := fun x => { x with bl := some e.bl, truncated := e.truncated }) _ _
    fun _ => rfl, ← hn]
  rfl

theorem withRawReport_record {e : EndedFrame} {es : List EndedFrame} {r : Record} (hr : s.record r.shot = some r) :
    (s.withRawReport e es r.shot).record r.shot = some { r with bl := some e.bl, truncated := e.truncated } :=
  record_changed hr (fun x => { x with bl := some e.bl, truncated := e.truncated }) (fun _ => rfl) rfl

theorem withRawReport_dropRecord (s : State) (e : EndedFrame) (es : List EndedFrame) (n : Nat) :
    (s.withRawReport e es n).dropRecord n = State.dropRecord { s with siu := { s.siu with ended := es } } n := by
  unfold State.withRawReport
  rw [← updRecord_eq_withRecord (f := fun x => { x with bl := some e.bl, truncated := e.truncated }) _ _ fun _ => rfl,
    dropRecord_updRecord]

/-- The raw of a discarded frame goes to the free list, or waits for its last access (R10). -/
theorem withRawReport_storeWith {e : EndedFrame} {es : List EndedFrame} {n : Nat} (hrel : s.fsc.releasing = []) (hj : s.job n = none)
    (c : List Nat) :
    (s.withRawReport e es n).storeWith c = if State.chainInUse { s with siu := { s.siu with ended := es } } c = true then
        { s.fsc with releasing := [c] } else { s.fsc with freeList := s.fsc.freeList ++ c } := by
  have uses := chainInUse_updRecord (s := { s with siu := { s.siu with ended := es } }) hj
    (fun x => { x with bl := some e.bl, truncated := e.truncated }) c
  rw [updRecord_eq_withRecord (f := fun x => { x with bl := some e.bl, truncated := e.truncated }) _ _ fun _ => rfl] at uses
  unfold State.storeWith
  rw [show (s.withRawReport e es n).chainInUse c = _ from uses, show (s.withRawReport e es n).fsc = s.fsc from rfl, hrel,
    List.nil_append]

theorem withRawReport_storedAtA (s : State) (e : EndedFrame) (es : List EndedFrame) (r : Record) :
    (s.withRawReport e es r.shot).storedAtA { r with bl := some e.bl, truncated := e.truncated }
      = (State.queuedAtA { s with siu := { s.siu with ended := es } } r).withRecord r.shot fun x =>
          { x with bl := some e.bl, truncated := e.truncated, state := .stored, reqA := .queued } :=
  withRecord_withRecord (f := fun x => { x with bl := some e.bl, truncated := e.truncated })
    (State.queuedAtA { s with siu := { s.siu with ended := es } } r) r.shot (fun _ => rfl)
    fun x => { x with state := .stored, reqA := .queued }

/-- Settles O22, by the row of R47 that kind and mark pick out. -/
theorem rawCompletion : Obligations.RawCompletion := by
  intro s
  refine ⟨exec_rawCompletion_none, fun e es r he hr hrel hs => ?_⟩
  have run := exec_rawCompletion he hr hrel hs
  have hr' : s.record r.shot = some r := (record_shot hr) ▸ hr
  have reported := withRawReport_record (e := e) (es := es) hr'
  refine ⟨fun hk hm => ?_, fun hk hm hj hw c hc => ?_, fun hkm ha hb hbusy hrules hp hraw => ?_⟩
  · rw [run, hk, hm]
    dsimp only
    rw [updRecord_eq_withRecord (f := fun x => { x with state := .provisional }) _ _ fun _ => rfl]
    exact congrArg _ (withRecord_withRecord (f := fun x => { x with bl := some e.bl, truncated := e.truncated })
      { s with siu := { s.siu with ended := es } } r.shot (fun _ => rfl) fun x => { x with state := .provisional })
  · rw [run, hk, hm]
    dsimp only
    rw [removeRecord_raw reported hc (by exact hj) (by exact hw), withRawReport_dropRecord, withRawReport_storeWith hrel hj]
    rfl
  · have waits : SlotAWaits (s.withRawReport e es r.shot) := ⟨ha, hb, hbusy, hrules⟩
    have stored : exec .rawCompletion s = .next (storeRecord r.shot (s.withRawReport e es r.shot)) := by
      rw [run]
      cases hk : r.kind with
      | shot => rfl
      | pre => rw [hkm.resolve_left (by rw [hk]; decide)]
    rw [stored]
    refine ⟨fun hd => ?_, fun hd hj hi hl hcur => ?_⟩
    · rw [storeRecord_noJob waits reported hraw hp hd, withRawReport_storedAtA]
      rfl
    · rw [storeRecord_autoJob waits reported hraw hp hd hj hi hl hcur, withRawReport_storedAtA]
      exact congrArg (fun t : State => Host.Outcome.next (t.offer .body _)) (withRecord_withRecord
        (f := fun x => { x with bl := some e.bl, truncated := e.truncated, state := .stored, reqA := .queued })
        ((State.queuedAtA { s with siu := { s.siu with ended := es } } r).withJobListed r.shot r.mode r.snapshot .auto) r.shot
        (fun _ => rfl) fun x => { x with proofState := .pending })

end Sys2Proof.Machine
end

section
/-! SUPPORT. The ring promoted where slot A alone waits for what is STORED (R35, R37, R48), SHOOT with its wait timer (R26, R27), and
BURST_BEGIN and BURST_END (R28, R29). -/

namespace Sys2Proof.Machine

variable {s t : State}

/-! ## Members promoted (R35, R37, R48) -/

/-- A member of a list promoted: STORED at once when PROVISIONAL, by mark when EXPOSING. -/
def Record.promotedAmong (ns : List Nat) (r : Record) : Record :=
  if ns.contains r.shot = true then
    if r.state = .provisional then { r with state := .stored, reqA := .queued } else { r with mark := .promote }
  else r

/-- Notices offered to the body port one after the other. -/
def Ptc.bodyOffers (p : Ptc) (ns : List Notice) : Ptc := ns.foldl (fun p n => { p with bodyQueue := offerTo 32 p.bodyQueue n }) p

theorem foldl_offer (ns : List Notice) (s : State) : ns.foldl (fun t n => t.offer .body n) s = { s with ptc := s.ptc.bodyOffers ns } := by
  induction ns generalizing s with
  | nil => rfl
  | cons n ns ih => rw [List.foldl_cons, ih]; rfl

/-- Members of a list promoted together. -/
def State.withPromotedAmong (s : State) (ns : List Nat) : State :=
  let ready := s.cat.records.filter (Record.leavesAmong ns)
  { s with
    ptc := s.ptc.bodyOffers (ready.map fun r => .shotStored r.shot r.frame r.mode r.kind r.truncated)
    crw := { s.crw with slotA := { s.crw.slotA with
      queue := s.crw.slotA.queue ++ ready.map fun r => { shot := r.shot, mode := r.mode } } }
    cat := { s.cat with records := s.cat.records.map (Record.promotedAmong ns) } }

/-- What promotes a PROVISIONAL member of a list without a release: its raw is there, and it has no proof. -/
def State.promotable (s : State) (ns : List Nat) : Prop :=
  ∀ r ∈ s.cat.records, r.shot ∈ ns → r.state = .provisional → r.raw.isSome = true ∧ r.proof = none

theorem withPromotedAmong_none (s : State) {ns : List Nat} (h : ∀ r ∈ s.cat.records, r.shot ∉ ns) : s.withPromotedAmong ns = s := by
  have stay : s.cat.records.map (Record.promotedAmong ns) = s.cat.records :=
    (List.map_congr_left fun x hx => by simp [Record.promotedAmong, h x hx]).trans (List.map_id _)
  have noneReady : s.cat.records.filter (Record.leavesAmong ns) = [] :=
    List.filter_eq_nil_iff.mpr fun x hx => by simp [Record.leavesAmong, h x hx]
  unfold State.withPromotedAmong
  dsimp only
  rw [stay, noneReady, List.map_nil, List.map_nil, List.append_nil]
  rfl

/-- One member promoted (R35, R48). -/
theorem promoteMember_eq (hd : (s.cat.records.map Record.shot).Nodup) (hA : SlotAWaits s) (ha : s.dve.auto = false) {n : Nat}
    (hp : s.promotable [n]) : promoteMember n s = s.withPromotedAmong [n] := by
  unfold promoteMember
  cases hr : s.record n with
  | none => exact (withPromotedAmong_none s fun r hm => by simpa using record_none.mp hr r hm).symm
  | some r =>
    obtain ⟨as, bs, hl, has, hbs⟩ := record_split hd hr
    obtain ⟨hm, rfl⟩ := record_mem hr
    have ready := filter_leaves_one hl rfl has hbs
    unfold State.withPromotedAmong
    dsimp only
    by_cases hst : r.state = .provisional
    · obtain ⟨hraw, hproof⟩ := hp r hm List.mem_cons_self hst
      have catalog : (s.storedAtA r).cat.records = s.cat.records.map (Record.promotedAmong [r.shot]) :=
        List.map_congr_left fun x hx => by
          by_cases h : x.shot = r.shot
          · rw [record_unique hd hr hx h]
            simp [Record.promotedAmong, hst]
          · simp [Record.promotedAmong, h]
      rw [if_pos (by rw [hst]; rfl), storeRecord_noJob hA hr hraw hproof (.inl ha), ready, if_pos hst, ← catalog]
      rfl
    · rw [if_neg (by simpa using hst), ready, if_neg hst, updRecord_eq_withRecord (f := fun x => { x with mark := .promote }) _ _
        fun _ => rfl, List.map_nil, List.map_nil, List.append_nil]
      refine congrArg (fun l => { s with cat := { s.cat with records := l } }) (List.map_congr_left fun x hx => ?_)
      by_cases h : x.shot = r.shot
      · rw [record_unique hd hr hx h]
        simp [Record.promotedAmong, hst]
      · simp [Record.promotedAmong, h]

theorem promotedAmong_shot (ns : List Nat) (r : Record) : (r.promotedAmong ns).shot = r.shot := by
  unfold Record.promotedAmong
  split
  · split <;> rfl
  · rfl

/-- The first of several members promoted, and then the others. -/
theorem promotedAmong_cons {n : Nat} {ns : List Nat} (hn : n ∉ ns) (r : Record) :
    (r.promotedAmong [n]).promotedAmong ns = r.promotedAmong (n :: ns) := by
  by_cases h : r.shot = n
  · have rest : ∀ x : Record, x.shot = n → x.promotedAmong ns = x := fun x hx => by simp [Record.promotedAmong, hx, hn]
    rw [rest _ ((promotedAmong_shot _ _).trans h)]
    simp [Record.promotedAmong, h]
  · have first : r.promotedAmong [n] = r := by simp [Record.promotedAmong, h]
    rw [first]
    simp [Record.promotedAmong, h]

/-- The first member promoted, those that are to be STORED at once among the others are as before. -/
theorem filter_leaves_promoted {n : Nat} {ns : List Nat} (hn : n ∉ ns) (rs : List Record) :
    (rs.map (Record.promotedAmong [n])).filter (Record.leavesAmong ns) = rs.filter (Record.leavesAmong ns) := by
  have same : ∀ r : Record, r.shot ≠ n → r.promotedAmong [n] = r := fun r h => by simp [Record.promotedAmong, h]
  have leave : ∀ r : Record, (Record.leavesAmong ns ∘ Record.promotedAmong [n]) r = r.leavesAmong ns := fun r => by
    by_cases h : r.shot = n
    · simp [Record.leavesAmong, promotedAmong_shot, h, hn]
    · rw [Function.comp_apply, same r h]
  rw [List.filter_map, List.filter_congr fun r _ => leave r]
  refine (List.map_congr_left fun r hr => ?_).trans (List.map_id _)
  have hl := (List.mem_filter.mp hr).2
  simp only [Record.leavesAmong, Bool.and_eq_true, List.contains_iff_mem] at hl
  exact same r fun e => hn (e ▸ hl.1)

theorem withPromotedAmong_cons (hd : (s.cat.records.map Record.shot).Nodup) {n : Nat} {ns : List Nat}
    (hs : (n :: ns).Sublist (s.cat.records.map Record.shot)) :
    (s.withPromotedAmong [n]).withPromotedAmong ns = s.withPromotedAmong (n :: ns) := by
  have hn : n ∉ ns := (List.nodup_cons.mp (hs.nodup hd)).1
  have ready : (s.withPromotedAmong [n]).cat.records.filter (Record.leavesAmong ns) = s.cat.records.filter (Record.leavesAmong ns) :=
    filter_leaves_promoted hn _
  have catalog : (s.withPromotedAmong [n]).cat.records.map (Record.promotedAmong ns)
      = s.cat.records.map (Record.promotedAmong (n :: ns)) :=
    (List.map_map ..).trans (List.map_congr_left fun r _ => promotedAmong_cons hn r)
  unfold State.withPromotedAmong at ready catalog ⊢
  dsimp only at ready catalog ⊢
  rw [ready, catalog, filter_leaves_cons hd hs, List.map_append, List.map_append, ← List.append_assoc]
  rw [Ptc.bodyOffers, Ptc.bodyOffers, Ptc.bodyOffers, List.foldl_append]

/-- Members promoted one after the other, in the catalog's order, are promoted together (R35, R37, R48). -/
theorem promoteMembers_eq (hd : (s.cat.records.map Record.shot).Nodup) {ns : List Nat}
    (hs : ns.Sublist (s.cat.records.map Record.shot)) (hA : SlotAWaits s) (ha : s.dve.auto = false) (hp : s.promotable ns) :
    promoteMembers ns s = s.withPromotedAmong ns := by
  induction ns generalizing s with
  | nil => exact (withPromotedAmong_none s fun r _ => List.not_mem_nil).symm
  | cons n ns ih =>
    have first : s.promotable [n] := fun r hm hr => hp r hm (by rw [List.mem_singleton.mp hr]; exact List.mem_cons_self)
    have shots : (s.withPromotedAmong [n]).cat.records.map Record.shot = s.cat.records.map Record.shot :=
      (List.map_map ..).trans (List.map_congr_left fun r _ => promotedAmong_shot _ r)
    have rest : (s.withPromotedAmong [n]).promotable ns := by
      intro r hm hr
      obtain ⟨x, hx, rfl⟩ := List.mem_map.mp hm
      rw [promotedAmong_shot] at hr
      have same : x.promotedAmong [n] = x := by
        have : x.shot ≠ n := fun e => (List.nodup_cons.mp (hs.nodup hd)).1 (e ▸ hr)
        simp [Record.promotedAmong, this]
      rw [same]
      exact hp x hx (List.mem_cons_of_mem n hr)
    have waits : SlotAWaits (s.withPromotedAmong [n]) := ⟨hA.contentA, hA.contentB, hA.busy, hA.noRules⟩
    rw [promoteMembers, promoteMember_eq hd hA ha first,
      ih (by rw [shots]; exact hd) (by rw [shots]; exact (List.sublist_cons_self n ns).trans hs) waits ha rest]
    exact withPromotedAmong_cons hd hs

theorem promoteMembers_foldl (ns : List Nat) (s : State) : promoteMembers ns s = ns.foldl (fun s n => promoteMember n s) s := by
  induction ns generalizing s with
  | nil => rfl
  | cons n ns ih => exact ih _

/-- Where no member is PROVISIONAL every promotion is a mark (R35). -/
theorem promoteMembers_marks {ns : List Nat} (h : s.noneProvisional ns) : promoteMembers ns s = s.withMarks .promote ns := by
  rw [promoteMembers_foldl]
  refine members_marks (fun n s hn => ?_) h
  unfold promoteMember
  cases hr : s.record n with
  | none => exact (updRecord_absent s _ hr).symm
  | some r => exact if_neg (by simpa using hn r hr)

/-- The ring promoted, each member by its own record (R37). -/
theorem withPromotedAmong_ring (hd : (s.cat.records.map Record.shot).Nodup) : s.withPromotedAmong s.ring = s.withPromoted := by
  have ready : s.cat.records.filter (Record.leavesAmong s.ring)
      = s.cat.records.filter fun r => r.inRing && r.state == .provisional := List.filter_congr fun r hm => by
    rw [Record.leavesAmong, show s.ring.contains r.shot = r.inRing from by
      rw [Bool.eq_iff_iff, List.contains_iff_mem, mem_ring_iff hd hm]]
  have catalog : s.cat.records.map (Record.promotedAmong s.ring) = s.cat.records.map fun r => if r.inRing = true then
      if r.state = .provisional then { r with state := .stored, reqA := .queued } else { r with mark := .promote } else r :=
    List.map_congr_left fun r hm => by simp only [Record.promotedAmong, List.contains_iff_mem, mem_ring_iff hd hm]
  unfold State.withPromotedAmong State.withPromoted
  dsimp only
  rw [ready, catalog, foldl_offer]

theorem withPromoted_siu (s : State) : s.withPromoted.siu = s.siu := by
  unfold State.withPromoted
  dsimp only
  rw [foldl_offer]

/-- An armed ring promoted where slot A alone waits (R37, R48). -/
theorem promoteRing_eq (ha : s.siu.pre.armed = true) (hd : (s.cat.records.map Record.shot).Nodup) (hA : s.onlySlotAWaits)
    (hp : ∀ r ∈ s.cat.records, r.inRing = true → r.state = .provisional → r.raw.isSome = true ∧ r.proof = none) :
    promoteRing s = s.withPromoted := by
  obtain ⟨contentA, contentB, busy, auto, noRules⟩ := hA
  have promotable : s.promotable s.ring := fun r hm hr => hp r hm ((mem_ring_iff hd hm).mp hr)
  rw [promoteRing, if_pos ha, promoteMembers_eq hd (ring_sublist s) ⟨contentA, contentB, busy, noRules⟩ auto promotable,
    withPromotedAmong_ring hd]

/-- Promotion leaves the sensor link and the configuration alone (R37). -/
theorem promoteRing_siu (s : State) : (promoteRing s).siu = s.siu := (promoteRing_cascade s).frame.2.2.1

theorem promoteRing_disarmed (ha : s.siu.pre.armed = false) : promoteRing s = s := if_neg (by rw [ha]; decide)

/-- With its members EXPOSING an armed ring is promoted by marks (R35, R37). -/
theorem promoteRing_marks (hd : (s.cat.records.map Record.shot).Nodup)
    (he : ∀ r ∈ s.cat.records, r.inRing = true → r.state = .exposing) :
    promoteRing s = { s with cat := { s.cat with records := s.cat.records.map fun r =>
      if s.siu.pre.armed = true ∧ r.inRing = true then { r with mark := .promote } else r } } := by
  cases ha : s.siu.pre.armed with
  | false =>
    rw [promoteRing_disarmed ha]
    simp
  | true =>
    rw [promoteRing, if_pos ha, promoteMembers_marks (ring_noneProvisional hd he), withMarks_ring hd]
    simp

/-! ## SHOOT (R26, R27) -/

theorem exec_shoot {h : Header} {focus : Byte} (hr : reachesOwner (.shoot h focus) h s) :
    exec (.shoot h focus) s = .next (ownShoot h focus s) := exec_bodyRequest hr rfl rfl

theorem readFlag_none {b : Byte} (h : 1 < b.toNat) : readFlag b = none := by
  unfold readFlag
  rw [if_neg (by rintro rfl; exact absurd h (by decide)), if_neg (by rintro rfl; exact absurd h (by decide))]

theorem readFlag_some {b : Byte} (h : b.toNat ≤ 1) : readFlag b = some (decide (b = 1)) := by
  unfold readFlag
  by_cases h1 : b = 1
  · rw [if_pos h1, decide_eq_true h1]
  · have h0 : b = 0 := BitVec.eq_of_toNat_eq (by
      have : b.toNat ≠ 1 := fun e => h1 (BitVec.eq_of_toNat_eq e)
      show b.toNat = 0
      omega)
    rw [if_neg h1, if_pos h0, decide_eq_false h1]

/-- What a SHOOT that is accepted leaves pending (R26). -/
def State.pendingShoot (s : State) (h : Header) (focus : Byte) : PendingShoot :=
  { tag := h.tag, focus := decide (focus = 1), reason := .none, timer := if s.siu.waitLimit = 0 then none else some s.siu.waitLimit }

theorem ownShoot_accepted (h : Header) {focus : Byte} (hf : focus.toNat ≤ 1) (hc : s.fsc.configured = true)
    (he : s.siu.engine = .idle) :
    ownShoot h focus s = (promoteRing s).setEngine .singlePending (some (s.pendingShoot h focus)) := by
  unfold ownShoot
  rw [readFlag_some hf]
  dsimp only
  rw [if_neg (by rw [hc]; decide), if_neg (by rw [he]; decide), promoteRing_siu]
  rfl

theorem exec_shotWaitExpiry_due {p : PendingShoot} (hp : s.siu.shoot = some p) (ht : p.timer = some 0) :
    exec .shotWaitExpiry s = .next (failShoot p s) := by
  show Host.Outcome.next (waitExpires s) = _
  unfold waitExpires
  rw [hp]
  dsimp only
  rw [if_pos (by rw [ht]; rfl)]

theorem exec_shotWaitExpiry_notDue (h : ∀ p, s.siu.shoot = some p → p.timer ≠ some 0) : exec .shotWaitExpiry s = .next s := by
  show Host.Outcome.next (waitExpires s) = _
  unfold waitExpires
  split
  case _ p hp => rw [if_neg (by simpa using h p hp)]
  case _ => rfl

/-- Settles O23, by SHOOT's tests in order, the promotion of the ring, and the timer's end. -/
theorem shootAndItsTimer : Obligations.ShootAndItsTimer := by
  refine ⟨fun h focus s hr => ?_, fun s => ⟨fun p hp ht => ?_, exec_shotWaitExpiry_notDue⟩⟩
  · rw [exec_shoot hr]
    refine ⟨fun hf => ?_, fun hf hc => ?_, fun hf hc he => ?_, fun hf hc he hd hx => ?_, fun hf hc he ha hd hA hp => ?_⟩
    · unfold ownShoot
      rw [readFlag_none hf]
      rfl
    · unfold ownShoot
      rw [readFlag_some hf]
      exact congrArg _ (if_pos (by rw [hc]; rfl))
    · unfold ownShoot
      rw [readFlag_some hf]
      exact congrArg _ ((if_neg (by rw [hc]; decide)).trans (if_pos (by simpa using he)))
    · rw [ownShoot_accepted h hf hc he, promoteRing_marks hd hx]
      rfl
    · rw [ownShoot_accepted h hf hc he, promoteRing_eq ha hd hA hp, State.setEngine, State.updSiu, withPromoted_siu]
      rfl
  · rw [exec_shotWaitExpiry_due hp ht]
    unfold failShoot
    cases p.reason <;> rfl

/-! ## Bursts (R28, R29) -/

theorem exec_burstBegin {h : Header} {d : Byte} {m : Half} {focus : Byte} (hr : reachesOwner (.burstBegin h d m focus) h s) :
    exec (.burstBegin h d m focus) s = .next (ownBurstBegin h d.toNat m.toNat focus s) := exec_bodyRequest hr rfl rfl

theorem exec_burstEnd {h : Header} (hr : reachesOwner (.burstEnd h) h s) : exec (.burstEnd h) s = .next (ownBurstEnd h s) :=
  exec_bodyRequest hr rfl rfl

/-- A burst as BURST_BEGIN leaves it (R28). -/
def begunBurst (divisor maximum : Nat) (focus : Byte) : Burst :=
  { divisor := max 1 (min 16 divisor), maximum := min 999 maximum, focus := decide (focus = 1), frames := 0, fresh := true,
    taken := 0, skips := 0, shortage := false }

theorem ownBurstBegin_accepted (h : Header) (divisor maximum : Nat) {focus : Byte} (hf : focus.toNat ≤ 1)
    (hc : s.fsc.configured = true) (he : s.siu.engine = .idle) (ht : s.siu.thermal ≠ .hot) :
    ownBurstBegin h divisor maximum focus s = State.answer { promoteRing s with
      siu := { s.siu with engine := .burst, burst := begunBurst divisor maximum focus } } .burstBegin h [] := by
  unfold ownBurstBegin
  rw [readFlag_some hf]
  dsimp only
  rw [if_neg (by rw [hc]; decide), if_neg (by rw [he]; decide), if_neg (by simpa using ht), State.updSiu, promoteRing_siu,
    clampNat_eq (by decide), clampNat_zero]
  rfl

/-- BURST_BEGIN's refusals, in their order (R28). -/
theorem ownBurstBegin_refused (h : Header) (divisor maximum : Nat) {focus : Byte} (hf : focus.toNat ≤ 1) :
    (s.fsc.configured = false → ownBurstBegin h divisor maximum focus s = s.refuse .burstBegin h .notConfigured)
      ∧ (s.fsc.configured = true → s.siu.engine ≠ .idle →
          ownBurstBegin h divisor maximum focus s = s.refuse .burstBegin h .busy)
      ∧ (s.fsc.configured = true → s.siu.engine = .idle → s.siu.thermal = .hot →
          ownBurstBegin h divisor maximum focus s = s.refuse .burstBegin h .thermal) := by
  unfold ownBurstBegin
  rw [readFlag_some hf]
  dsimp only
  refine ⟨fun hc => if_pos (by rw [hc]; rfl), fun hc he => ?_, fun hc he ht => ?_⟩
  · exact (if_neg (by rw [hc]; decide)).trans (if_pos (by simpa using he))
  · exact (if_neg (by rw [hc]; decide)).trans ((if_neg (by rw [he]; decide)).trans (if_pos (by rw [ht]; rfl)))

theorem ownBurstEnd_eq (h : Header) (s : State) : ownBurstEnd h s = State.answer (if s.siu.engine = .burst then
      { s with siu := { s.siu with engine := .idle, burst := { s.siu.burst with shortage := false } } } else s) .burstEnd h [] := by
  unfold ownBurstEnd
  simp only [beq_iff_eq]
  rfl

/-- Settles O24, by BURST_BEGIN's tests in order and the promotion of the ring. -/
theorem bursts : Obligations.Bursts := by
  refine ⟨fun h d m focus s hr hf => ?_, fun h s hr => ?_⟩
  · obtain ⟨unconfigured, busy, hot⟩ := ownBurstBegin_refused (s := s) h d.toNat m.toNat hf
    rw [exec_burstBegin hr]
    refine ⟨fun hc => congrArg _ (unconfigured hc), fun hc he => congrArg _ (busy hc he),
      fun hc he ht => congrArg _ (hot hc he ht), fun hc he ht ha => ?_, fun hc he ht ha hd hA hp => ?_⟩
    · rw [ownBurstBegin_accepted h _ _ hf hc he ht, promoteRing_disarmed ha]
      rfl
    · rw [ownBurstBegin_accepted h _ _ hf hc he ht, promoteRing_eq ha hd hA hp]
      rfl
  · rw [exec_burstEnd hr, ownBurstEnd_eq]
    rfl

end Sys2Proof.Machine
end

section
/-! SUPPORT. A downgrade (R62), row by row: the item goes, or names PROOF, and the record is tested. -/

namespace Sys2Proof.Machine

variable {s t : State} {i : SendItem} {r : Record}

/-- The item of a serial turned to PROOF, in a state (R62). -/
def State.itemAsProof (s : State) (serial : Nat) (st : ItemState) : State :=
  { s with ttc := { s.ttc with queue := s.ttc.queue.map fun x =>
    if x.serial = serial then { x with content := .proof, state := st } else x } }

/-- An item of a shot downgraded to PROOF, the record's pins and marks with it (R62). -/
def State.downgradedTo (s : State) (i : SendItem) (st : ItemState) : State :=
  (s.itemAsProof i.serial st).withRecord i.shot Record.downgraded

theorem rawDropped_withRecord (s : State) (n : Nat) :
    s.rawDropped n = s.withRecord n fun x => { x with rawPins := x.rawPins - 1, markRaw := .dropped } := by
  rw [rawDropped_eq]
  exact updRecord_eq_withRecord s n fun _ => rfl

theorem updItem_asProof (s : State) (n : Nat) (st : ItemState) :
    s.updItem n (fun x => { x with content := .proof, state := st }) = s.itemAsProof n st := by
  refine congrArg (fun q => { s with ttc := { s.ttc with queue := q } }) (List.map_congr_left fun x _ => ?_)
  by_cases h : x.serial = n <;> simp [h]

theorem renameToProof_eq (s : State) (i : SendItem) (st : ItemState) :
    renameToProof i st (s.rawDropped i.shot) = s.downgradedTo i st := by
  unfold renameToProof State.pin State.setMark
  rw [updItem_asProof, rawDropped_withRecord,
    updRecord_eq_withRecord (f := fun x => { x with proofPins := x.proofPins + 1 }) _ _ fun _ => rfl,
    updRecord_eq_withRecord (f := fun x => { x with markProof := .queued }) _ _ fun _ => rfl,
    withRecord_withRecord (f := fun x => { x with proofPins := x.proofPins + 1 }) _ _ fun _ => rfl]
  exact withRecord_withRecord (f := fun x => { x with rawPins := x.rawPins - 1, markRaw := .dropped }) (s.itemAsProof i.serial st) i.shot
    (fun _ => rfl) fun x => { x with proofPins := x.proofPins + 1, markProof := .queued }

/-- A downgrade of a record's item: by the PROOF item of the shot, and by the record's proof (R62). -/
theorem downgrade_eq (hr : s.record i.shot = some r) :
    downgrade i s = testRelease i.shot (if (s.itemFor i.shot .proof).isSome = true then (s.rawDropped i.shot).dropItem i.serial
      else match r.proofState with
        | .done => s.downgradedTo i .ready
        | .pending => s.downgradedTo i .waitingProof
        | .none =>
          match internalRequest i.shot { r.snapshot with scale := .quarter } .normal .relief (s.downgradedTo i .waitingProof) with
          | (.new, t) => t
          | (.merged, t) => t
          | (_, t) => ((t.dropItem i.serial).unpin i.shot .proof).setMark i.shot .proof .dropped) := by
  have dropped : (s.rawDropped i.shot).record i.shot = some { r with rawPins := r.rawPins - 1, markRaw := .dropped } := by
    rw [rawDropped_record, hr]
    rfl
  unfold downgrade
  rw [show (s.unpin i.shot .raw).setMark i.shot .raw .dropped = s.rawDropped i.shot from rfl]
  dsimp only
  rw [dropped]
  dsimp only
  rw [renameToProof_eq, renameToProof_eq] <;> rfl

/-- Where a PROOF item of the shot stands the item goes (R62). -/
theorem downgrade_twin (hr : s.record i.shot = some r) (hi : (s.itemFor i.shot .proof).isSome = true) :
    downgrade i s = testRelease i.shot ((s.rawDropped i.shot).dropItem i.serial) := by
  rw [downgrade_eq hr, if_pos hi]

/-- With a done proof the item is READY (R62). -/
theorem downgrade_done (hr : s.record i.shot = some r) (hi : s.itemFor i.shot .proof = none) (hp : r.proofState = .done) :
    downgrade i s = testRelease i.shot (s.downgradedTo i .ready) := by
  rw [downgrade_eq hr, if_neg (by rw [hi]; decide), hp]

/-- With a proof on its way the item waits for it (R62). -/
theorem downgrade_pending (hr : s.record i.shot = some r) (hi : s.itemFor i.shot .proof = none) (hp : r.proofState = .pending) :
    downgrade i s = testRelease i.shot (s.downgradedTo i .waitingProof) := by
  rw [downgrade_eq hr, if_neg (by rw [hi]; decide), hp]

theorem downgradedTo_record (hr : s.record i.shot = some r) (st : ItemState) :
    (s.downgradedTo i st).record i.shot = some r.downgraded := record_changed hr Record.downgraded (fun _ => rfl) rfl

/-- The item that names PROOF now is the shot's only one. -/
theorem downgradedTo_proofItemsWait (hi : s.itemFor i.shot .proof = none) : (s.downgradedTo i .waitingProof).proofItemsWait i.shot := by
  intro x hx hs hc
  obtain ⟨y, hy, rfl⟩ := List.mem_map.mp hx
  by_cases h : y.serial = i.serial
  · rw [if_pos h]
  · rw [if_neg h] at hs hc ⊢
    exact proofItemsWait_none hi y hy hs hc

/-- The item turned to PROOF and then dropped is dropped. -/
theorem itemAsProof_dropItem (s : State) (k : Nat) (st : ItemState) : (s.itemAsProof k st).dropItem k
    = { s with ttc := { s.ttc with queue := s.queueWithout k } } := by
  refine congrArg (fun q => { s with ttc := { s.ttc with queue := q } }) ?_
  show List.filter _ (s.ttc.queue.map _) = s.ttc.queue.filter _
  induction s.ttc.queue with
  | nil => rfl
  | cons x xs ih =>
    rw [List.map_cons, List.filter_cons, List.filter_cons, ih]
    by_cases h : x.serial = k <;> simp [h]

/-- Where no job can be had the item goes, and the proof's pin and mark with it (R62). -/
theorem downgrade_full (hr : s.record i.shot = some r) (hi : s.itemFor i.shot .proof = none) (hp : r.proofState = .none)
    (hs : r.state = .stored) (hraw : r.raw.isSome = true) (hj : s.job i.shot = none) (hl : 32 ≤ s.dve.jobs.length) :
    downgrade i s = testRelease i.shot (State.withRecord { s with ttc := { s.ttc with queue := s.queueWithout i.serial } } i.shot fun x =>
      { x with rawPins := x.rawPins - 1, markRaw := .dropped, markProof := .dropped }) := by
  have full := internalRequest_queueFull (downgradedTo_record hr .waitingProof) hs hraw hj (downgradedTo_proofItemsWait hi) hl
    { r.snapshot with scale := .quarter } .normal .relief
  rw [downgrade_eq hr, if_neg (by rw [hi]; decide), hp, full]
  dsimp only
  have gone : (s.downgradedTo i .waitingProof).dropItem i.serial
      = State.withRecord { s with ttc := { s.ttc with queue := s.queueWithout i.serial } } i.shot Record.downgraded :=
    congrArg (fun t : State => t.withRecord i.shot Record.downgraded) (itemAsProof_dropItem s i.serial .waitingProof)
  unfold State.unpin State.setMark
  rw [gone, updRecord_eq_withRecord (f := fun x => { x with proofPins := x.proofPins - 1 }) _ _ fun _ => rfl,
    updRecord_eq_withRecord (f := fun x => { x with markProof := .dropped }) _ _ fun _ => rfl,
    withRecord_withRecord (f := Record.downgraded) _ _ fun _ => rfl,
    withRecord_withRecord (f := fun x => { x.downgraded with proofPins := x.downgraded.proofPins - 1 }) _ _ fun _ => rfl]
  rfl

/-- Without a proof a QUARTER job is asked for, and the item waits (R62). -/
theorem downgrade_job (hr : s.record i.shot = some r) (hi : s.itemFor i.shot .proof = none) (hp : r.proofState = .none)
    (hs : r.state = .stored) (hraw : r.raw.isSome = true) (hj : s.job i.shot = none) (hl : s.dve.jobs.length < 32)
    (hc : s.currentJob.isSome = true) :
    downgrade i s = testRelease i.shot
      ((s.downgradedTo i .waitingProof).withNewJob i.shot r.mode { r.snapshot with scale := .quarter } .relief) := by
  have made := internalRequest_new (downgradedTo_record hr .waitingProof) hs hraw hj (downgradedTo_proofItemsWait hi) hl hc
    { r.snapshot with scale := .quarter } .relief
  rw [downgrade_eq hr, if_neg (by rw [hi]; decide), hp, made]
  rfl

end Sys2Proof.Machine
end

section
/-! SUPPORT. Pressure relief (R61): a RAW item fewer with every downgrade, its end with the need met or no item left to yield, and what a
frame start that fails the pending SHOOT comes to (R34, R27). -/

namespace Sys2Proof.Machine

variable {s t u : State} {i : SendItem} {r : Record} {m : Mode}

/-! ## Relief ends (R61) -/

theorem yieldingItem_none : s.yieldingItem = none ↔ ∀ i ∈ s.ttc.queue, i.state ≠ .ready ∨ i.cls ≠ .normal ∨ i.content ≠ .raw := by
  unfold State.yieldingItem
  rw [List.find?_eq_none]
  refine forall₂_congr fun i _ => ?_
  simp only [Bool.and_eq_true, beq_iff_eq]
  tauto

theorem yieldingItem_some (h : s.yieldingItem = some i) : i ∈ s.ttc.queue ∧ i.content = .raw := by
  have hb := List.find?_some h
  simp only [Bool.and_eq_true, beq_iff_eq] at hb
  exact ⟨List.mem_of_find?_eq_some h, hb.2⟩

/-- Without an item that yields relief does nothing (R61). -/
theorem relieve_noneYields {k : Nat} (h : ∀ i ∈ s.ttc.queue, i.state ≠ .ready ∨ i.cls ≠ .normal ∨ i.content ≠ .raw) (fuel : Nat) :
    relieve k fuel s = s := by
  cases fuel with
  | zero => rfl
  | succ fuel =>
    unfold relieve
    rw [yieldingItem_none.mpr h]
    exact ite_self _

/-- One downgrade of relief (R61). -/
theorem relieve_yields {k : Nat} (hm : needMet k s = false) (hy : s.cat.pressureYield = true) (hi : s.yieldingItem = some i)
    (fuel : Nat) : relieve k (fuel + 1) s = relieve k fuel (downgrade i s) := by
  rw [relieve, if_neg (by rw [hm, hy]; decide), hi]

/-- The items that name RAW. -/
def State.rawItems (s : State) : Nat := s.ttc.queue.countP fun x => x.content == .raw

theorem rawItems_congr (h : t.ttc = s.ttc) : t.rawItems = s.rawItems := by rw [State.rawItems, h]; rfl

theorem dropItem_rawItems_le (s : State) (k : Nat) : (s.dropItem k).rawItems ≤ s.rawItems := List.filter_sublist.countP_le

/-- A RAW item that leaves is one fewer. -/
theorem dropItem_rawItems (hi : i ∈ s.ttc.queue) (hc : i.content = .raw) : (s.dropItem i.serial).rawItems < s.rawItems := by
  have split := List.countP_eq_countP_filter_add s.ttc.queue (fun x => x.content == .raw) fun x => x.serial != i.serial
  have gone : 0 < (s.ttc.queue.filter fun x => !(x.serial != i.serial)).countP fun x => x.content == .raw :=
    List.countP_pos_iff.mpr ⟨i, List.mem_filter.mpr ⟨hi, by simp⟩, by rw [hc]; rfl⟩
  show (s.ttc.queue.filter fun x => x.serial != i.serial).countP _ < s.ttc.queue.countP _
  omega

/-- A RAW item that names PROOF now is one fewer. -/
theorem itemAsProof_rawItems (s : State) (k : Nat) (st : ItemState) : (s.itemAsProof k st).rawItems = (s.dropItem k).rawItems := by
  show (s.ttc.queue.map _).countP _ = (s.ttc.queue.filter _).countP _
  rw [List.countP_map, List.countP_filter]
  refine List.countP_congr fun x _ => ?_
  by_cases h : x.serial = k <;> simp [h]

theorem ttcJobCreated_rawItems (n : Nat) (s : State) : (ttcJobCreated n s).rawItems = s.rawItems := by
  unfold ttcJobCreated
  split
  · split
    · show (s.ttc.queue.map _).countP _ = _
      rw [List.countP_map]
      refine List.countP_congr fun x _ => ?_
      simp only [Function.comp]
      split <;> rfl
    · rfl
  · rfl

/-- An internal request leaves the contents of the items alone (R114, R169). -/
theorem internalRequest_rawItems (n : Nat) (p : DevelopParams) (c : Priority) (o : JobOrigin) (s : State) :
    (internalRequest n p c o s).2.rawItems = s.rawItems := by
  unfold internalRequest
  split
  · rfl
  · split
    · rfl
    · split
      · refine rawItems_congr ?_
        unfold mergeInternal
        split
        · exact afterMerge_ttc _ _
        · rfl
      · split
        · rfl
        · split
          · rfl
          · exact (rawItems_congr (createJob_ttc ..)).trans (ttcJobCreated_rawItems n s)

/-- Every downgrade leaves a RAW item fewer (R61). -/
theorem downgrade_rawItems (hi : i ∈ s.ttc.queue) (hc : i.content = .raw) : (downgrade i s).rawItems < s.rawItems := by
  have fewer := dropItem_rawItems hi hc
  have renamed : ∀ st, (s.downgradedTo i st).rawItems < s.rawItems := fun st => by
    have := itemAsProof_rawItems s i.serial st
    show (s.itemAsProof i.serial st).rawItems < _
    omega
  cases hr : s.record i.shot with
  | none =>
    have absent : (s.rawDropped i.shot).record i.shot = none := by rw [rawDropped_record, hr]; rfl
    unfold downgrade
    rw [show (s.unpin i.shot .raw).setMark i.shot .raw .dropped = s.rawDropped i.shot from rfl]
    dsimp only
    rw [absent, rawItems_congr (testRelease_ttc ..)]
    exact fewer
  | some r =>
    rw [downgrade_eq hr, rawItems_congr (testRelease_ttc ..)]
    split
    · exact fewer
    · split
      · exact renamed _
      · exact renamed _
      · have asked := internalRequest_rawItems i.shot { r.snapshot with scale := .quarter } .normal .relief
          (s.downgradedTo i .waitingProof)
        have waits := renamed .waitingProof
        split
        case _ t he => rw [he] at asked; dsimp only at asked; omega
        case _ t he => rw [he] at asked; dsimp only at asked; omega
        case _ t _ _ he =>
          rw [he] at asked
          have dropped : (((t.dropItem i.serial).unpin i.shot .proof).setMark i.shot .proof .dropped).rawItems ≤ t.rawItems :=
            dropItem_rawItems_le t i.serial
          dsimp only at asked
          omega

/-- Relief ends with the need met or with no item left that yields (R61). -/
theorem relieve_ends {k : Nat} (fuel : Nat) (hf : s.rawItems ≤ fuel) (hy : s.cat.pressureYield = true) :
    ((relieve k fuel s).cat.records.length < 256 ∧ k ≤ (relieve k fuel s).fsc.freeList.length)
      ∨ ∀ i ∈ (relieve k fuel s).ttc.queue, i.state ≠ .ready ∨ i.cls ≠ .normal ∨ i.content ≠ .raw := by
  induction fuel generalizing s with
  | zero =>
    refine .inr fun i hi => .inr (.inr fun hc => ?_)
    exact (List.countP_pos_iff (p := fun x : SendItem => x.content == .raw)).mpr ⟨i, hi, by rw [hc]; rfl⟩ |>.ne'
      (Nat.le_zero.mp hf)
  | succ fuel ih =>
    cases hm : needMet k s with
    | true =>
      have met := needMet_iff.mp hm
      rw [relieve_met met]
      exact .inl met
    | false =>
      cases hi : s.yieldingItem with
      | none =>
        have none := yieldingItem_none.mp hi
        rw [relieve_noneYields none]
        exact .inr none
      | some i =>
        obtain ⟨hq, hc⟩ := yieldingItem_some hi
        have fewer := downgrade_rawItems hq hc
        rw [relieve_yields hm hy hi]
        exact ih (by omega) ((downgrade_cascade i s hq).ports.2.2.2.2.2.2.trans hy)

/-! ## The raw that relief frees (R61, R62) -/

/-- The state once an item of a shot with a done proof has yielded its raw: the item names PROOF, the raw's slabs are free. -/
def State.rawYielded (s : State) (i : SendItem) (chain : List Nat) : State :=
  State.withRecord { s.itemAsProof i.serial .ready with fsc := { s.fsc with freeList := s.fsc.freeList ++ chain } } i.shot fun x =>
    { x.downgraded with raw := none }

/-- What makes a shot give up its raw to a downgrade: a done proof, one pin by the item, and nothing else that needs the raw. -/
structure YieldsRaw (s : State) (i : SendItem) (r : Record) (chain : List Nat) : Prop where
  record : s.record i.shot = some r
  stored : r.state = .stored
  raw : r.raw = some chain
  proof : r.proof.isSome = true
  done : r.proofState = .done
  pins : r.rawPins = 1
  reqs : r.reqA.settled = true ∧ r.reqB.settled = true
  noJob : s.job i.shot = none
  noProofItem : s.itemFor i.shot .proof = none
  notInUse : s.chainInUse chain = false
  noWaiting : ∀ j, s.currentJob = some j → j.state = .running

/-- Such a downgrade frees the raw and nothing more (R62, R54). -/
theorem downgrade_yieldsRaw {chain : List Nat} (h : YieldsRaw s i r chain) : downgrade i s = s.rawYielded i chain := by
  let d := s.downgradedTo i .ready
  have named : d.record i.shot = some r.downgraded := downgradedTo_record h.record .ready
  have uses : (d.updRecord i.shot fun x => { x with raw := none }).chainInUse chain = false := by
    rw [chainInUse_updRecord (by exact h.noJob)]
    refine Eq.trans ?_ h.notInUse
    have changed := chainInUse_updRecord h.noJob Record.downgraded chain
    rw [updRecord_eq_withRecord (f := Record.downgraded) s i.shot fun _ => rfl] at changed
    exact changed
  have released : releaseRaw i.shot d = s.rawYielded i chain := by
    have free : r.downgraded.rawFree d = true := by
      have noJob : d.job r.shot = none := by rw [record_shot h.record]; exact h.noJob
      simp [Record.rawFree, Record.downgraded, h.stored, h.pins, h.reqs.1, h.reqs.2, noJob]
    unfold releaseRaw
    rw [named]
    dsimp only
    rw [show r.downgraded.raw = some chain from h.raw]
    dsimp only
    rw [if_pos free, releaseChain_noWaiting (by exact h.noWaiting), State.storeWith, if_neg (by rw [uses]; decide),
      updRecord_eq_withRecord (f := fun x => { x with raw := none }) d i.shot fun _ => rfl]
    exact congrArg (fun t : State => { t with fsc := { s.fsc with freeList := s.fsc.freeList ++ chain } })
      (withRecord_withRecord (f := Record.downgraded) (s.itemAsProof i.serial .ready) i.shot (fun _ => rfl) _)
  have left : (s.rawYielded i chain).record i.shot = some { r.downgraded with raw := none } :=
    record_changed h.record (fun x => { x.downgraded with raw := none }) (fun _ => rfl) rfl
  obtain ⟨p, hp⟩ := Option.isSome_iff_exists.mp h.proof
  have proofKept : releaseProof i.shot (s.rawYielded i chain) = s.rawYielded i chain := by
    unfold releaseProof
    rw [left]
    dsimp only
    rw [show r.downgraded.proof = some p from hp]
    exact if_neg (by simp [Record.downgraded])
  have recordKept : freeRecord i.shot (s.rawYielded i chain) = s.rawYielded i chain := by
    unfold freeRecord
    rw [left]
    exact if_neg (by simp [Record.freeable, Record.downgraded, hp])
  rw [downgrade_done h.record h.noProofItem h.done, testRelease]
  show freeRecord _ (releaseProof _ (releaseRaw i.shot d)) = _
  rw [released, proofKept, recordKept]

/-- The oldest item that yields is looked for past those that do not (R61). -/
theorem yieldingItem_first {before after : List SendItem} (hq : s.ttc.queue = before ++ i :: after) (hs : i.state = .ready)
    (hn : i.cls = .normal) (hc : i.content = .raw)
    (hb : ∀ x ∈ before, x.state ≠ .ready ∨ x.cls ≠ .normal ∨ x.content ≠ .raw) : s.yieldingItem = some i := by
  have none := yieldingItem_none (s := { s with ttc := { s.ttc with queue := before } }).mpr hb
  unfold State.yieldingItem at none ⊢
  rw [hq, List.find?_append, none, List.find?_cons, hs, hn, hc]
  rfl

/-! ## A pending SHOOT that is not taken (R34, R27) -/

theorem exec_frameStart_shoot {p : PendingShoot} (hf : s.siu.frame = none) (hm : s.fsc.mode = some m)
    (he : s.siu.engine = .singlePending) (hp : s.siu.shoot = some p) :
    exec .frameStart s = .next (decideShoot s.fe.locked p s.openedFrame m s.withNewFrame) := by
  rw [exec_frameStart_first hf, decideCapture_shoot (by exact hm) (by exact he) (by exact hp)]

/-- The engine stays SINGLE_PENDING where it was. -/
theorem setEngine_pending (he : s.siu.engine = .singlePending) (p : PendingShoot) :
    s.setEngine .singlePending (some p) = { s with siu := { s.siu with shoot := some p } } := by
  unfold State.setEngine State.updSiu
  rw [← he]

/-- The response code of a failed SHOOT's reason (R27). -/
theorem failShoot_eq (p : PendingShoot) (s : State) : failShoot p s = State.send { s with
      siu := { s.siu with engine := .idle, shoot := none } } .body
    (.response 0xA5 p.tag (if p.reason = .space then .bufferFull else .focusTimeout) false []) := by
  unfold failShoot
  cases p.reason <;> rfl

/-- A frame start that fails the pending SHOOT for want of focus or space (R34): the SHOOT waits on, or fails at once. -/
theorem exec_frameStart_shootFails {p : PendingShoot} {b : Blocking} (hf : s.siu.frame = none) (hm : s.fsc.mode = some m)
    (he : s.siu.engine = .singlePending) (hp : s.siu.shoot = some p)
    (ht : testCandidate p.focus s.fe.locked m s.withNewFrame = (.failed b, u)) :
    (p.timer.isSome = true → exec .frameStart s = .next (u.setEngine .singlePending (some { p with reason := b })))
      ∧ (p.timer = none → exec .frameStart s = .next (failShoot { p with reason := b } u)) := by
  rw [exec_frameStart_shoot hf hm he hp]
  obtain ⟨waits, fails⟩ := decideShoot_failed ht s.openedFrame
  exact ⟨fun h => congrArg _ (waits h), fun h => congrArg _ (fails h)⟩

/-- Relief frees a raw for the pending SHOOT's frame, and the frame is taken with it (R32, R33, R61). -/
theorem exec_frameStart_relieved {p : PendingShoot} {chain : List Nat} (hf : s.siu.frame = none) (hm : s.fsc.mode = some m)
    (hc : s.fsc.configured = true) (he : s.siu.engine = .singlePending) (hp : s.siu.shoot = some p)
    (hfocus : p.focus = true → s.fe.locked = true) (hl : s.cat.records.length < 256) (hn : s.cat.nextShot < 4294967296)
    (hk : s.fsc.freeList.length < m.rawSlabs) (hy : s.cat.pressureYield = true) (hi : s.withNewFrame.yieldingItem = some i)
    (yields : YieldsRaw s.withNewFrame i r chain) (hfree : m.rawSlabs ≤ s.fsc.freeList.length + chain.length) :
    exec .frameStart s = .next (State.send { (s.rawYielded i chain).withFrameTaken .shot m with
        siu := { ((s.rawYielded i chain).withFrameTaken .shot m).siu with engine := .idle, shoot := none } } .body
      (.response 0xA5 p.tag .ok false (le 4 s.cat.nextShot))) := by
  let d := s.rawYielded i chain
  have records : d.cat.records.length < 256 := by
    show (s.cat.records.map _).length < 256
    rwa [List.length_map]
  have slabs : m.rawSlabs ≤ d.fsc.freeList.length := by
    show m.rawSlabs ≤ (s.fsc.freeList ++ chain).length
    rwa [List.length_append]
  have unmet : needMet m.rawSlabs s.withNewFrame = false := by
    rw [Bool.eq_false_iff]
    intro h
    exact absurd (needMet_iff.mp h).2 (Nat.not_le.mpr hk)
  have relieved : relieve m.rawSlabs s.withNewFrame.ttc.queue.length s.withNewFrame = d.withNewFrame := by
    obtain ⟨fuel, hfuel⟩ : ∃ fuel, s.withNewFrame.ttc.queue.length = fuel + 1 :=
      Nat.exists_eq_succ_of_ne_zero (List.length_pos_of_mem (yieldingItem_some hi).1).ne'
    rw [hfuel, relieve_yields unmet hy hi, downgrade_yieldsRaw yields]
    exact relieve_met (s := d.withNewFrame) ⟨records, slabs⟩ fuel
  have taken : testCandidate p.focus s.fe.locked m s.withNewFrame
      = (.taken (d.fsc.freeList.take m.rawSlabs), d.withNewFrame.takeSlabs m.rawSlabs) :=
    (testCandidate_space hfocus m _).trans (testSpace_relieved (s := s.withNewFrame) (.inr hk) relieved hc records hn slabs)
  rw [exec_frameStart_shoot hf hm he hp, decideShoot_taken taken]
  exact congrArg (fun t : State => Host.Outcome.next ((t.setEngine .idle none).respond .shoot .body p.tag .ok (le 4 s.cat.nextShot)))
    (takeFrame_opened (s := d) hm .shot s.siu.burst s.siu.pre)

theorem focusOrFree {focus locked : Bool} (h : focus = false ∨ locked = true) : focus = true → locked = true := fun hf =>
  h.resolve_left (by rw [hf]; decide)

/-- Settles O15, by the verdict of the tests, relief's law, and the rows of a downgrade. -/
theorem shootBlocked : Obligations.ShootBlocked := by
  refine ⟨fun s p m hf hm he hp => ⟨fun hfocus hl => ?_, fun hfocus hs hy => ?_, fun hfocus hs => ?_, ?_⟩, fun k s => ⟨?_, ?_⟩,
    fun i r s hr => ⟨fun hi => ?_, fun hi => ⟨downgrade_done hr hi, downgrade_pending hr hi, fun hps hs hraw hj => ⟨?_, ?_⟩⟩⟩⟩
  · obtain ⟨waits, fails⟩ := exec_frameStart_shootFails hf hm he hp (testCandidate_focus hfocus hl m s.withNewFrame)
    refine ⟨fun ht => ?_, fun ht => (fails ht).trans (congrArg _ (failShoot_eq _ _))⟩
    rw [waits ht, setEngine_pending (by exact he)]
  · have idle : relieve m.rawSlabs s.withNewFrame.ttc.queue.length s.withNewFrame = s.withNewFrame := by
      rcases hy with hy | hy
      · exact relieve_yieldOff (by exact hy) _
      · exact relieve_noneYields (by exact hy) _
    obtain ⟨waits, fails⟩ := exec_frameStart_shootFails hf hm he hp
      ((testCandidate_space (focusOrFree hfocus) m s.withNewFrame).trans (testSpace_refused hs idle hs))
    refine ⟨fun ht => ?_, fun ht => (fails ht).trans (congrArg _ (failShoot_eq _ _))⟩
    rw [waits ht, setEngine_pending (by exact he)]
  · intro u hu
    obtain ⟨waits, fails⟩ := exec_frameStart_shootFails hf hm he hp
      ((testCandidate_space (focusOrFree hfocus) m s.withNewFrame).trans (testSpace_refused hs rfl hu))
    exact ⟨fun ht => waits ht, fun ht => (fails ht).trans (congrArg _ (failShoot_eq _ _))⟩
  · intro before i after r chain proof hfocus hc hl hn hk hy hq hst hcls hcont hb hr hstored hraw hproof hdone hpins hA hB hj hi huse hw
      hfree
    have yields : YieldsRaw s.withNewFrame i r chain := ⟨hr, hstored, hraw, by rw [hproof]; rfl, hdone, hpins, ⟨hA, hB⟩, hj, hi,
      (chainInUse_withNewFrame hf chain).trans huse, hw⟩
    exact exec_frameStart_relieved hf hm hc he hp (focusOrFree hfocus) hl hn hk hy
      (yieldingItem_first (s := s.withNewFrame) hq hst hcls hcont hb) yields hfree
  · rintro (hy | hmet)
    · exact relieve_yieldOff hy _
    · exact relieve_met hmet _
  · exact fun hy => relieve_ends _ List.countP_le_length hy
  · rw [downgrade_twin hr hi, rawDropped_withRecord]
    rfl
  · exact downgrade_full hr hi hps hs hraw hj
  · exact downgrade_job hr hi hps hs hraw hj

end Sys2Proof.Machine
end

section
/-! SUPPORT. The catalog's reports and the layouts they are written in (R64, R65, R103, R197, R198), and its order under every step
(R40, R41, R68). -/

namespace Sys2Proof.Machine

variable {s t : State}

/-- Settles O55: every command keeps the catalog's order (`exec_keeps_catalog`). -/
theorem catalogKeepsItsOrder : Obligations.CatalogKeepsItsOrder := by
  intro s t h hl
  unfold step at h
  split at h
  · cases h
    exact hl
  case _ rest _ => exact exec_keeps_catalog (s := { s with pending := rest }) h hl

/-! ## The state a request of either port meets (R159) -/

@[simp] theorem atOwner_cat (s : State) (h : Header) : (s.atOwner h).cat = s.cat := by
  unfold State.atOwner
  split <;> rfl

@[simp] theorem atOwner_record (s : State) (h : Header) (n : Nat) : (s.atOwner h).record n = s.record n :=
  record_of_cat (atOwner_cat s h)

/-- Only the silence timer of the TTC starts anew (R159). -/
theorem atOwner_ttc (s : State) (h : Header) : ∃ v, (s.atOwner h).ttc = { s.ttc with silence := v } := by
  unfold State.atOwner
  split
  · exact ⟨_, rfl⟩
  · exact ⟨s.ttc.silence, rfl⟩

@[simp] theorem atOwner_queue (s : State) (h : Header) : (s.atOwner h).ttc.queue = s.ttc.queue := by
  obtain ⟨v, hv⟩ := atOwner_ttc s h
  rw [hv]

theorem atOwner_rulesOff (h : Header) (hs : s.ttc.attached = false ∨ s.ttc.armed = false) :
    (s.atOwner h).ttc.attached = false ∨ (s.atOwner h).ttc.armed = false := by
  obtain ⟨v, hv⟩ := atOwner_ttc s h
  rwa [hv]

/-! ## Fields (R197) -/

theorem le_one (v : Nat) : le 1 v = [BitVec.ofNat 8 v] := rfl

theorem le_zeros (n : Nat) : le n 0 = List.replicate n 0 := by
  induction n with
  | zero => rfl
  | succ n ih => rw [le, List.replicate_succ, Nat.zero_div, ih]; rfl

theorem leBool_eq (b : Bool) : leBool b = [if b = true then 1 else 0] := by cases b <;> rfl

theorem leOpt_two (o : Option Nat) : leOpt 2 o = match o with | some v => le 2 v | none => [0xFF, 0xFF] := by cases o <;> rfl

theorem leMaybeInt_two (o : Option Int) : leMaybeInt 2 o = match o with | some v => 1 :: leInt 2 v | none => [0, 0, 0] := by
  cases o <;> rfl

theorem leInt_length (n : Nat) (v : Int) : (leInt n v).length = n := le_length n _

theorem leOpt_length (n : Nat) (o : Option Nat) : (leOpt n o).length = n := by cases o <;> exact le_length n _

theorem flagBit_eq (k : Nat) (b : Bool) : flagBit k b = if b = true then 2 ^ k else 0 := rfl

/-! ## LIST_SHOTS (R64) -/

theorem listEntry_eq (r : Record) : listEntry r = le 4 r.shot ++ [BitVec.ofNat 8 r.state.code, if r.raw.isSome = true then 1 else 0,
    BitVec.ofNat 8 r.proofState.code] := by
  unfold listEntry
  rw [leBool_eq, le_one, le_one, List.append_assoc, List.append_assoc]
  rfl

theorem listEntries_length (rs : List Record) : (rs.flatMap listEntry).length = 7 * rs.length := by
  induction rs with
  | nil => rfl
  | cons r rs ih =>
    rw [List.flatMap_cons, List.length_append, ih, listEntry_eq, List.length_append, le_length, List.length_cons]
    simp only [List.length_cons, List.length_nil]
    omega

/-- Settles O9: what is listed is the head of the records found, and the next number the first of the rest. -/
theorem listShots : Obligations.ListShots := by
  intro h first maximum s hr
  let found := s.cat.records.filter fun r => first.toNat ≤ r.shot
  let n := max 1 (min 16 maximum.toNat)
  have next : ∀ rest : List Record, le 4 (match rest with | r :: _ => r.shot | [] => 0)
      = match rest with | r :: _ => le 4 r.shot | [] => [0, 0, 0, 0] := fun rest => by cases rest <;> rfl
  refine ⟨found.take n, found.drop n, le 1 (found.take n).length ++ (found.take n).flatMap listEntry
    ++ le 4 (match found.drop n with | r :: _ => r.shot | [] => 0), (List.take_append_drop n found).symm, ?_, ?_, ?_, ?_⟩
  · rw [List.length_take, List.length_drop]
    omega
  · rw [List.length_append, List.length_append, le_length, le_length, listEntries_length]
    omega
  · rw [next, le_one, show (listEntry) = _ from funext listEntry_eq]
    rfl
  · rw [exec_owner hr]
    show Host.Outcome.next (ownListShots h first.toNat maximum.toNat (s.atOwner h)) = _
    unfold ownListShots
    rw [atOwner_cat, clampNat_eq (by decide)]
    rfl

end Sys2Proof.Machine
end

section
/-! SUPPORT. GET_ZONE_MAP and SHOT_INFO byte by byte (R65, R103, R197, R198), and SET_PARAMS at its owners (R9, R174, R196). -/

namespace Sys2Proof.Machine

variable {s t : State}

/-! ## GET_ZONE_MAP (R103) -/

/-- One entry of the zone map: state, P and Q (R103). -/
def ZoneMark.bytes (z : ZoneMark) : List Byte := le 1 z.state.code ++ leMaybeInt 2 z.p ++ leOpt 2 z.q

theorem zoneMark_bytes (z : ZoneMark) : z.bytes = BitVec.ofNat 8 z.state.code
    :: ((match z.p with | some p => 1 :: leInt 2 p | none => [0, 0, 0])
      ++ (match z.q with | some q => le 2 q | none => [0xFF, 0xFF])) := by
  unfold ZoneMark.bytes
  rw [le_one, leMaybeInt_two, leOpt_two, List.append_assoc]
  rfl

theorem zoneMark_length (z : ZoneMark) : z.bytes.length = 6 := by
  unfold ZoneMark.bytes leMaybeInt
  cases z.p <;> simp [le_length, leInt_length, leOpt_length]

theorem zoneMarks_length (zs : List ZoneMark) : (zs.flatMap ZoneMark.bytes).length = 6 * zs.length := by
  induction zs with
  | nil => rfl
  | cons z zs ih =>
    rw [List.flatMap_cons, List.length_append, ih, zoneMark_length, List.length_cons]
    omega

theorem zoneMapBody_some (p : Publication) : zoneMapBody (some p) = 1 :: le 4 p.summary.frame
    ++ [if p.summary.noLens = true then 1 else 0, if p.summary.overrun = true then 1 else 0,
      match p.summary.selection with | some w => BitVec.ofNat 8 w.zone | none => 0xFF] ++ p.map.flatMap ZoneMark.bytes := by
  have zone : leOpt 1 (p.summary.selection.map Selection.zone)
      = [match p.summary.selection with | some w => BitVec.ofNat 8 w.zone | none => 0xFF] := by
    cases p.summary.selection <;> rfl
  show leBool true ++ le 4 p.summary.frame ++ leBool p.summary.noLens ++ leBool p.summary.overrun
    ++ leOpt 1 (p.summary.selection.map Selection.zone) ++ p.map.flatMap ZoneMark.bytes = _
  rw [leBool_eq, leBool_eq, leBool_eq, zone, List.append_assoc (1 :: _), List.append_assoc (_ ++ _) [_] [_], List.append_assoc (_ ++ _) [_]]
  rfl

theorem exec_getZoneMap {h : Header} (hr : reachesOwner (.getZoneMap h) h s) :
    exec (.getZoneMap h) s = .next (s.answered .getZoneMap h (zoneMapBody s.fe.latest)) := exec_bodyRequest hr rfl rfl

/-! ## SHOT_INFO (R65, R198) -/

theorem focusBytes_length (f : FocusRecord) : (focusBytes f).length = 20 := by
  cases f with
  | filled f =>
    unfold focusBytes
    dsimp only
    cases f.selection <;> simp [le_length, leInt_length, leBool]
  | _ => exact le_length 20 0

theorem proofBytes_length (p : Option DoneProof) : (Machine.proofBytes p).length = 12 := by
  cases p with
  | none => exact le_length 12 0
  | some p => simp [Machine.proofBytes, le_length]

/-- Bytes 0 to 39 of the shot info record (R198). -/
def infoHead (r : Record) : List Byte :=
  le 4 r.shot ++ le 4 r.frame ++ le 4 r.time
    ++ le 1 r.mode.code ++ le 1 r.kind.code ++ le 1 r.mark.code ++ le 1 r.state.code
    ++ le 2 r.tags.toNat ++ le 1 r.rating ++ le 1 (recordFlags r)
    ++ leOpt 2 r.bl ++ le 2 r.clip
    ++ le 1 r.reqA.code ++ le 1 r.reqB.code ++ le 1 r.markRaw.code ++ le 1 r.markProof.code
    ++ le 1 r.rawPins ++ le 1 r.proofPins ++ le 1 r.proofState.code ++ le 1 r.focus.code
    ++ le 2 r.snapshot.wr ++ le 2 r.snapshot.wg ++ le 2 r.snapshot.wb ++ le 1 r.snapshot.tone ++ le 1 r.snapshot.scale.code

theorem infoRecord_eq (r : Record) : infoRecord r = infoHead r ++ focusBytes r.focus ++ Machine.proofBytes r.proof ++ List.replicate 8 0 := by
  rw [← le_zeros]
  rfl

theorem infoHead_length (r : Record) : (infoHead r).length = 40 := by
  unfold infoHead
  simp only [List.length_append, le_length, leOpt_length]

theorem focusCode_eq (f : FocusRecord) :
    BitVec.ofNat 8 f.code = match f with | .pending => 0 | .absent => 1 | .filled _ => 2 := by cases f <;> rfl

theorem infoHead_eq (r : Record) : infoHead r = le 4 r.shot ++ le 4 r.frame ++ le 4 r.time ++ [BitVec.ofNat 8 r.mode.code,
      BitVec.ofNat 8 r.kind.code, BitVec.ofNat 8 r.mark.code, BitVec.ofNat 8 r.state.code] ++ le 2 r.tags.toNat
    ++ [BitVec.ofNat 8 r.rating,
      BitVec.ofNat 8 ((if r.raw.isSome = true then 1 else 0) + (if r.truncated = true then 2 else 0)
        + (if r.guarded = true then 4 else 0) + (if r.hold = true then 8 else 0) + (if r.proof.isSome = true then 16 else 0))]
    ++ (match r.bl with | some v => le 2 v | none => [0xFF, 0xFF]) ++ le 2 r.clip
    ++ [BitVec.ofNat 8 r.reqA.code, BitVec.ofNat 8 r.reqB.code, BitVec.ofNat 8 r.markRaw.code,
      BitVec.ofNat 8 r.markProof.code, BitVec.ofNat 8 r.rawPins, BitVec.ofNat 8 r.proofPins,
      BitVec.ofNat 8 r.proofState.code, match r.focus with | .pending => 0 | .absent => 1 | .filled _ => 2]
    ++ le 2 r.snapshot.wr ++ le 2 r.snapshot.wg ++ le 2 r.snapshot.wb
    ++ [BitVec.ofNat 8 r.snapshot.tone, BitVec.ofNat 8 r.snapshot.scale.code] := by
  unfold infoHead
  rw [← focusCode_eq, leOpt_two]
  simp only [le_one, recordFlags, flagBit_eq, List.append_assoc, List.cons_append, List.nil_append]
  rfl

theorem focusBytes_eq (f : FocusRecord) : focusBytes f = match f with
    | .filled f => (match f.selection with
        | some w => [BitVec.ofNat 8 w.zone, BitVec.ofNat 8 ZoneState.valid.code] ++ leInt 2 w.p ++ le 2 w.q
            ++ leInt 2 w.d ++ leInt 4 w.t ++ leInt 2 w.tPred ++ [BitVec.ofNat 8 w.flag.code]
        | none => 0xFF :: List.replicate 14 0) ++ [if f.locked = true then 1 else 0] ++ le 2 f.lensPosition
        ++ [BitVec.ofNat 8 f.negEdges, BitVec.ofNat 8 f.posEdges]
    | _ => List.replicate 20 0 := by
  cases f with
  | filled f =>
    unfold focusBytes
    dsimp only
    rw [leBool_eq, List.append_assoc _ (le 1 _) (le 1 _)]
    cases f.selection <;> rfl
  | pending => exact le_zeros 20
  | absent => exact le_zeros 20

theorem proofBytes_eq (p : Option DoneProof) : Machine.proofBytes p = match p with
    | some p => [BitVec.ofNat 8 p.params.scale.code, BitVec.ofNat 8 p.params.tone] ++ le 2 p.params.wr
        ++ le 2 p.params.wg ++ le 2 p.params.wb ++ le 4 p.clipCount
    | none => List.replicate 12 0 := by
  cases p with
  | none => exact le_zeros 12
  | some p => rfl

end Sys2Proof.Machine
end

section
/-! SUPPORT. SET_PARAMS at its owners (R9, R118, R174, R196), and the engine's claim with and without slabs (R8, R118). -/

namespace Sys2Proof.Machine

variable {s t : State}

/-! ## Jobs changed, as the statements write it -/

theorem updJob_eq (s : State) (n : Nat) {f : Job → Job} (hf : ∀ x, (f x).shot = x.shot ∧ (f x).number = x.number) :
    s.updJob n f = { s with dve := { s.dve with jobs := s.dve.jobs.map fun x => if x.shot = n then f x else x } } := by
  refine congrArg (fun l => { s with dve := { s.dve with jobs := l } }) (List.map_congr_left fun x _ => ?_)
  by_cases h : x.shot = n
  · obtain ⟨hs, hn⟩ := hf x
    rw [if_pos (by simpa using h), if_pos h, ← hs, ← hn]
  · rw [if_neg (by simpa using h), if_neg h]

/-- The progress of a job whose chain has just been claimed (R118). -/
def Progress.begun (chain : List Nat) : Progress := { chain := chain, next := 0, clipCount := 0, histogram := List.replicate 64 0 }

/-- A claim that is granted: the first slabs leave the free list, and the job is RUNNING (R8, R118). -/
theorem claimFor_granted {j : Job} (hc : s.fsc.configured = true)
    (hl : s.fsc.reserve + j.mode.proofSlabs j.params.scale ≤ s.fsc.freeList.length) :
    claimFor j s = { s with
      fsc := { s.fsc with freeList := s.fsc.freeList.drop (j.mode.proofSlabs j.params.scale) }
      dve := { s.dve with jobs := s.dve.jobs.map fun x => if x.shot = j.shot then
        { x with state := .running, progress := some (.begun (s.fsc.freeList.take (j.mode.proofSlabs j.params.scale))) } else x } } := by
  unfold claimFor
  rw [claimDevelop_granted hc hl]
  dsimp only
  rw [updJob_eq]
  · rfl
  · exact fun _ => ⟨rfl, rfl⟩

/-- A claim that is not granted: the job waits for slabs (R8, R118). -/
theorem claimFor_refused {j : Job}
    (hl : s.fsc.configured = false ∨ s.fsc.freeList.length < s.fsc.reserve + j.mode.proofSlabs j.params.scale) :
    claimFor j s = { s with dve := { s.dve with
      jobs := s.dve.jobs.map fun x => if x.shot = j.shot then { x with state := .waitSlabs } else x } } := by
  have refused : claimDevelop (j.mode.proofSlabs j.params.scale) s = none := by
    unfold claimDevelop
    rw [if_neg]
    rcases hl with hl | hl
    · simp [hl]
    · simp only [Bool.and_eq_true, decide_eq_true_eq, not_and]
      omega
  unfold claimFor
  rw [refused]
  exact updJob_eq s j.shot fun _ => ⟨rfl, rfl⟩

/-- A claim touches the store and the jobs alone. -/
theorem claimFor_shape (j : Job) (s : State) : claimFor j s = { s with fsc := (claimFor j s).fsc, dve := (claimFor j s).dve } := by
  by_cases hl : s.fsc.configured = true ∧ s.fsc.reserve + j.mode.proofSlabs j.params.scale ≤ s.fsc.freeList.length
  · rw [claimFor_granted hl.1 hl.2]
  · rw [claimFor_refused]
    cases hc : s.fsc.configured with
    | false => exact .inl rfl
    | true => exact .inr (Nat.lt_of_not_le fun h => hl ⟨hc, h⟩)

theorem announceSlabs_shape (s : State) :
    announceSlabs s = { s with fsc := (announceSlabs s).fsc, dve := (announceSlabs s).dve } := by
  unfold announceSlabs
  split
  · split
    · exact claimFor_shape _ _
    · rfl
  · rfl

/-! ## Choices (R197) -/

theorem readChoice_none {α : Type} {b : Byte} (h : 1 < b.toNat) (x y : α) :
    (if b = 0 then some x else if b = 1 then some y else none) = none := by
  rw [if_neg (by rintro rfl; exact absurd h (by decide)), if_neg (by rintro rfl; exact absurd h (by decide))]

theorem readChoice_some {α : Type} {b : Byte} (h : b.toNat ≤ 1) (x y : α) :
    (if b = 0 then some x else if b = 1 then some y else none) = some (if b = 0 then x else y) := by
  split
  · rfl
  · rw [if_pos (by bv_omega)]

/-- The parameters as SET_PARAMS sets them (R196). -/
def paramsTaken (o : ParamsOps) : Params :=
  { reserve := min 512 o.reserve.toNat, contentA := o.contentA = 0, contentB := o.contentB = 0, overflow := o.modeB = 1,
    yielding := o.yielding = 1, policy := if o.detach = 0 then .keep else .drop, silence := max 1 (min 60 o.silence.toNat),
    threshold := max 1 (min 31 o.threshold.toNat), stall := max 100 (min 5000 o.stall.toNat),
    shotWait := min 5000 o.shotWait.toNat, clip := min 16383 o.clip.toNat }

/-- A choice outside its values leaves no parameters to take (R196). -/
theorem readParams_none {o : ParamsOps} (h : 1 < o.contentA.toNat ∨ 1 < o.contentB.toNat ∨ 1 < o.modeB.toNat
    ∨ 1 < o.yielding.toNat ∨ 1 < o.detach.toNat) : readParams o = none := by
  unfold readParams
  split
  case _ ca cb ov y pol ha hb hm hy hd =>
    rcases h with h | h | h | h | h
    · cases ha.symm.trans (readChoice_none h true false)
    · cases hb.symm.trans (readChoice_none h true false)
    · cases hm.symm.trans (readChoice_none h false true)
    · cases hy.symm.trans (readFlag_none h)
    · cases hd.symm.trans (readChoice_none h DetachPolicy.keep .drop)
  · rfl

theorem readParams_some {o : ParamsOps} (ha : o.contentA.toNat ≤ 1) (hb : o.contentB.toNat ≤ 1) (hm : o.modeB.toNat ≤ 1)
    (hy : o.yielding.toNat ≤ 1) (hd : o.detach.toNat ≤ 1) : readParams o = some (paramsTaken o) := by
  have isOne : ∀ {b : Byte}, b.toNat ≤ 1 → (if b = 0 then false else true) = decide (b = 1) := by
    intro b h
    by_cases h0 : b = 0
    · rw [if_pos h0, h0]; rfl
    · rw [if_neg h0, decide_eq_true (by bv_omega)]
  have isZero : ∀ b : Byte, (if b = 0 then true else false) = decide (b = 0) := fun b => by
    by_cases h0 : b = 0 <;> simp [h0]
  have ca : readSlotContent o.contentA = _ := readChoice_some ha true false
  have cb : readSlotContent o.contentB = _ := readChoice_some hb true false
  have ov : readSlotMode o.modeB = _ := readChoice_some hm false true
  have pol : readPolicy o.detach = _ := readChoice_some hd DetachPolicy.keep .drop
  unfold readParams paramsTaken
  rw [ca, cb, ov, readFlag_some hy, pol, isZero, isZero, isOne hm]
  simp only [clampNat_zero]
  rw [clampNat_eq (by decide), clampNat_eq (by decide), clampNat_eq (by decide), Nat.min_comm 512, Nat.min_comm 5000 o.shotWait.toNat,
    Nat.min_comm 16383]

/-! ## The owners (R9, R174, R196) -/

/-- A reserve that is not lowered, or that no job waits for, leaves the store and the jobs as they are (R9). -/
theorem takeReserve_quiet {v : Nat} (h : s.fsc.reserve ≤ v ∨ ∀ j, s.currentJob = some j → j.state = .running) :
    takeReserve v s = { s with fsc := { s.fsc with reserve := v } } := by
  unfold takeReserve
  dsimp only
  split
  case isTrue hv => exact announceSlabs_noWaiting (s := s.updFsc _) (h.resolve_left (by omega))
  case isFalse => rfl

/-- A lowered reserve has the job that waits claim at once (R9, R118). -/
theorem takeReserve_waiting {v : Nat} {j : Job} (hj : s.currentJob = some j) (hw : j.state = .waitSlabs) (hv : v < s.fsc.reserve) :
    takeReserve v s = claimFor j { s with fsc := { s.fsc with reserve := v } } := by
  unfold takeReserve
  rw [if_pos hv]
  exact announceSlabs_waiting (s := s.updFsc _) hj hw

theorem takeReserve_shape (v : Nat) (s : State) :
    takeReserve v s = { s with fsc := (takeReserve v s).fsc, dve := (takeReserve v s).dve } := by
  unfold takeReserve
  dsimp only
  split
  · exact announceSlabs_shape (s.updFsc _)
  · rfl

/-- The owners but the store's take their values, the reserve already set (R174, R196). -/
def State.withParams (s : State) (p : Params) (e : Nat) (suspends : Bool) : State :=
  { s with
    crw := { s.crw with contentA := p.contentA, contentB := p.contentB, overflow := p.overflow, stallLimit := p.stall }
    cat := { s.cat with pressureYield := p.yielding, clipLevel := p.clip }
    siu := { s.siu with waitLimit := p.shotWait }
    ttc := { s.ttc with policy := p.policy, silenceLimit := p.silence, threshold := p.threshold, errors := e,
                        armed := s.ttc.armed && !suspends }
    ptc := { s.ptc with
      tetherQueue := if suspends then offerTo 32 s.ptc.tetherQueue (.autosendSuspended e p.threshold) else s.ptc.tetherQueue
      bodyQueue := if suspends && s.ptc.enables.autosend then
        offerTo 32 s.ptc.bodyQueue (.autosendSuspended e p.threshold) else s.ptc.bodyQueue } }

theorem suspendAutosend_eq (s : State) : suspendAutosend s = { s with
    ttc := { s.ttc with armed := false }
    ptc := { s.ptc with
      tetherQueue := offerTo 32 s.ptc.tetherQueue (.autosendSuspended s.ttc.errors s.ttc.threshold)
      bodyQueue := if s.ptc.enables.autosend = true then
        offerTo 32 s.ptc.bodyQueue (.autosendSuspended s.ttc.errors s.ttc.threshold) else s.ptc.bodyQueue } } := by
  unfold suspendAutosend State.offerClass
  dsimp only
  split
  case isTrue h => rw [if_pos (by exact h)]; rfl
  case isFalse h => rw [if_neg (by exact h)]; rfl

theorem takeParams_eq (p : Params) (s : State) : takeParams p s = (takeReserve p.reserve s).withParams p (min s.ttc.errors p.threshold)
    (s.ttc.armed && p.threshold ≤ min s.ttc.errors p.threshold) := by
  unfold takeParams takeThreshold
  rw [takeReserve_shape]
  generalize (takeReserve p.reserve s).fsc = f
  generalize (takeReserve p.reserve s).dve = d
  unfold State.withParams
  dsimp only [State.updCrw, State.updCat, State.updTtc, State.updSiu]
  by_cases h : (s.ttc.armed && decide (p.threshold ≤ min s.ttc.errors p.threshold)) = true
  · rw [if_pos h, suspendAutosend_eq]
    simp only [h, if_true, Bool.true_and, Bool.not_true, Bool.and_false]
  · rw [if_neg h]
    simp only [Bool.eq_false_iff.mpr h, Bool.false_and, Bool.not_false, Bool.and_true, Bool.false_eq_true, if_false]

theorem exec_setParams {h : Header} {o : ParamsOps} (hr : reachesOwner (.setParams h o) h s) :
    exec (.setParams h o) s = .next (ownSetParams h o s) := exec_bodyRequest hr rfl rfl

theorem setParams_accepted {o : ParamsOps} (ha : o.contentA.toNat ≤ 1) (hb : o.contentB.toNat ≤ 1) (hm : o.modeB.toNat ≤ 1)
    (hy : o.yielding.toNat ≤ 1) (hd : o.detach.toNat ≤ 1) (h : Header) (s : State) :
    ownSetParams h o s = ((takeReserve (paramsTaken o).reserve s).withParams (paramsTaken o) (min s.ttc.errors (paramsTaken o).threshold)
      (s.ttc.armed && (paramsTaken o).threshold ≤ min s.ttc.errors (paramsTaken o).threshold)).answer .setParams h [] := by
  unfold ownSetParams
  rw [readParams_some ha hb hm hy hd]
  exact congrArg (fun t : State => t.answer .setParams h []) (takeParams_eq _ s)

/-- The port of a request that only the body port may make. -/
theorem bodyPort {c : Instr} {r : Request} {h : Header} (hr : reachesOwner c h s) (hc : c.asRequest = some (r, h))
    (ht : granted r .tether = false) (hl : granted r .lens = false) : h.port = .body := by
  obtain ⟨r', hc', hg, -⟩ := hr
  cases hc.symm.trans hc'
  cases hp : h.port with
  | body => rfl
  | tether => rw [hp, ht] at hg; cases hg
  | lens => rw [hp, hl] at hg; cases hg

/-- Settles O12: the layouts field by field, and each owner's own change with the store's announcement first. -/
theorem reportsAndParameters : Obligations.ReportsAndParameters := by
  refine ⟨fun h s hr => ⟨fun hn => ?_, fun p hp => ⟨?_, ?_⟩⟩, fun h shot s hr => ⟨fun hn => ?_, fun r hs => ⟨?_, ?_, ?_, ?_⟩⟩,
    fun h o s hr => ⟨fun hb => ?_, fun ha hb hm hy hd => ?_⟩⟩
  · rw [exec_getZoneMap hr, hn]
    rfl
  · rw [exec_getZoneMap hr, hp, zoneMapBody_some]
    exact congrArg (fun mark => Host.Outcome.next (s.answered .getZoneMap h (_ ++ p.map.flatMap mark))) (funext zoneMark_bytes)
  · refine (congrArg (fun mark => (_ ++ p.map.flatMap mark : List Byte).length) (funext zoneMark_bytes)).symm.trans ?_
    simp only [List.length_append, List.length_cons, List.length_nil, le_length, zoneMarks_length]
  · rw [exec_owner hr]
    show Host.Outcome.next (ownShotInfo h shot.toNat (s.atOwner h)) = _
    unfold ownShotInfo
    rw [atOwner_record, hn]
    rfl
  · rw [exec_owner hr]
    refine Eq.trans (b := .next ((s.atOwner h).answered .shotInfo h (infoRecord r))) ?_
      (congrArg (fun b => Host.Outcome.next ((s.atOwner h).answered .shotInfo h b)) ((infoRecord_eq r).trans
        (congrArg₂ (fun a b => a ++ b ++ _ ++ _) (infoHead_eq r) (focusBytes_eq r.focus) |>.trans
          (congrArg (fun b => _ ++ b ++ _) (proofBytes_eq r.proof)))))
    show Host.Outcome.next (ownShotInfo h shot.toNat (s.atOwner h)) = _
    unfold ownShotInfo
    rw [atOwner_record, hs]
    rfl
  · exact (congrArg List.length (infoHead_eq r)).symm.trans (infoHead_length r)
  · exact (congrArg List.length (focusBytes_eq r.focus)).symm.trans (focusBytes_length r.focus)
  · exact (congrArg List.length (proofBytes_eq r.proof)).symm.trans (proofBytes_length r.proof)
  · rw [exec_setParams hr]
    unfold ownSetParams
    rw [readParams_none hb]
    rfl
  · rw [exec_setParams hr, setParams_accepted ha hb hm hy hd, takeReserve_shape]
    generalize hf : (takeReserve (paramsTaken o).reserve s).fsc = f
    generalize hg : (takeReserve (paramsTaken o).reserve s).dve = d
    have port : h.port = .body := bodyPort hr rfl rfl rfl
    refine ⟨_, rfl, rfl, rfl, rfl, ?_, ?_, rfl, rfl, rfl, rfl, fun hq => ?_, fun j hj hw hv => ⟨fun hc hk => ?_, fun hk => ?_⟩⟩
    · have still : (s.ttc.armed && !(s.ttc.armed && decide ((paramsTaken o).threshold ≤ min s.ttc.errors (paramsTaken o).threshold)))
          = (s.ttc.armed && decide (min s.ttc.errors (paramsTaken o).threshold < (paramsTaken o).threshold)) := by
        cases s.ttc.armed
        · rfl
        · rw [Bool.true_and, Bool.true_and, Bool.true_and, ← decide_not, decide_eq_decide]
          exact Nat.not_le
      exact congrArg (fun b => ({ s.ttc with
        policy := (paramsTaken o).policy, silenceLimit := (paramsTaken o).silence, threshold := (paramsTaken o).threshold,
        errors := min s.ttc.errors (paramsTaken o).threshold, armed := b } : Ttc)) still
    · unfold State.answer State.respond State.send State.withParams
      rw [port]
      simp only [State.updPtc_ptc, Bool.and_eq_true, decide_eq_true_eq]
      rfl
    · rw [takeReserve_quiet (v := (paramsTaken o).reserve) hq] at hf hg
      exact ⟨hg.symm, hf.symm⟩
    · rw [takeReserve_waiting (v := (paramsTaken o).reserve) hj hw hv, claimFor_granted (by exact hc) (by exact hk)] at hf hg
      exact ⟨hf.symm, hg.symm⟩
    · rw [takeReserve_waiting (v := (paramsTaken o).reserve) hj hw hv, claimFor_refused (by exact hk)] at hf hg
      exact ⟨hf.symm, hg.symm⟩

end Sys2Proof.Machine
end

section
/-! SUPPORT. The release test by its cases (R10, R54 to R57): what each of the three releases does and when it does nothing, and what
the test leaves of a record whose raw goes. -/

namespace Sys2Proof.Machine

variable {s t : State} {n : Nat} {r : Record} {c : List Nat}

/-! ## When the conditions hold -/

theorem rawFree_iff : r.rawFree s = true ↔ (r.state = .stored ∨ r.state = .deleting) ∧ r.rawPins = 0 ∧ r.reqA.settled = true
    ∧ r.reqB.settled = true ∧ s.job r.shot = none := by
  simp [Record.rawFree, and_assoc]

/-- Something wants the raw (R54). -/
theorem rawFree_wanted (h : r.rawPins ≠ 0 ∨ r.reqA.settled = false ∨ r.reqB.settled = false ∨ (s.job r.shot).isSome = true) :
    r.rawFree s = false := by
  rw [Bool.eq_false_iff]
  intro hf
  obtain ⟨-, hp, ha, hb, hj⟩ := rawFree_iff.mp hf
  rcases h with h | h | h | h
  · exact h hp
  · rw [ha] at h; cases h
  · rw [hb] at h; cases h
  · rw [hj] at h; cases h

/-- Nothing refers to a shot: no job, no card item being written, no send item being sent, no READ stream (R56). -/
structure State.Unreferenced (s : State) (n : Nat) : Prop where
  job : s.job n = none
  writing : ∀ i w, (s.slot i).writing = some w → w.item.shot ≠ n
  sending : ∀ i ∈ s.ttc.queue, i.shot = n → i.state ≠ .sending
  read : ∀ x, s.ptc.read = some x → x.shot ≠ n

/-- What R56 asks of a record, each reference as a test of the field that holds it. -/
theorem freeable_eq : r.freeable s = ((r.state == .stored || r.state == .deleting) && r.raw.isNone && r.proof.isNone
    && (s.job r.shot).isNone && s.crw.slotA.writing.all (fun w => w.item.shot != r.shot)
    && s.crw.slotB.writing.all (fun w => w.item.shot != r.shot)
    && !(s.ttc.queue.any fun i => i.shot == r.shot && i.state == .sending) && s.ptc.read.all fun x => x.shot != r.shot) := by
  unfold Record.freeable
  refine congrArg₂ and (congrArg₂ and (congrArg₂ and (congrArg₂ and rfl ?_) ?_) rfl) ?_
  · cases s.crw.slotA.writing <;> rfl
  · cases s.crw.slotB.writing <;> rfl
  · cases s.ptc.read <;> rfl

theorem freeable_iff : r.freeable s = true ↔ (r.state = .stored ∨ r.state = .deleting) ∧ r.raw = none ∧ r.proof = none
    ∧ s.Unreferenced r.shot := by
  have slots : (∀ i w, (s.slot i).writing = some w → w.item.shot ≠ r.shot)
      ↔ (∀ w, s.crw.slotA.writing = some w → w.item.shot ≠ r.shot) ∧ ∀ w, s.crw.slotB.writing = some w → w.item.shot ≠ r.shot :=
    ⟨fun h => ⟨h .a, h .b⟩, fun h i => by cases i <;> [exact h.1; exact h.2]⟩
  have parts : s.Unreferenced r.shot ↔ s.job r.shot = none ∧ (∀ i w, (s.slot i).writing = some w → w.item.shot ≠ r.shot)
      ∧ (∀ i ∈ s.ttc.queue, i.shot = r.shot → i.state ≠ .sending) ∧ ∀ x, s.ptc.read = some x → x.shot ≠ r.shot :=
    ⟨fun ⟨hj, hw, hq, hx⟩ => ⟨hj, hw, hq, hx⟩, fun ⟨hj, hw, hq, hx⟩ => ⟨hj, hw, hq, hx⟩⟩
  have all : ∀ {α : Type} (o : Option α) (k : α → Nat), o.all (fun w => k w != r.shot) = true ↔ ∀ w, o = some w → k w ≠ r.shot := by
    intro α o k
    cases o <;> simp
  rw [parts, slots, freeable_eq]
  simp [and_assoc, all]

/-! ## The three releases -/

theorem releaseRaw_kept (hr : s.record n = some r) (h : r.raw = none ∨ r.rawFree s = false) : releaseRaw n s = s := by
  unfold releaseRaw
  rw [hr]
  dsimp only
  split
  case _ c hc => exact if_neg (by rw [h.resolve_left (by rw [hc]; nofun)]; decide)
  · rfl

theorem releaseRaw_freed (hr : s.record n = some r) (hc : r.raw = some c) (hf : r.rawFree s = true) :
    releaseRaw n s = releaseChain c (s.withRecord n fun x => { x with raw := none }) := by
  unfold releaseRaw
  rw [hr]
  dsimp only
  rw [hc]
  dsimp only
  rw [if_pos hf, updRecord_eq_withRecord (f := fun x => { x with raw := none }) s n fun _ => rfl]

theorem releaseProof_kept (hr : s.record n = some r)
    (h : r.proof = none ∨ r.proofPins ≠ 0 ∨ r.raw.isSome = true ∧ r.state ≠ .deleting) : releaseProof n s = s := by
  unfold releaseProof
  rw [hr]
  dsimp only
  split
  case _ p hp =>
    rcases h with h | h | ⟨hraw, hst⟩
    · rw [hp] at h; cases h
    · exact if_neg (by simp [h])
    · exact if_neg (by cases hc : r.raw <;> simp_all)
  · rfl

theorem freeRecord_kept (hr : s.record n = some r) (h : r.freeable s = false) : freeRecord n s = s := by
  unfold freeRecord
  rw [hr]
  exact if_neg (by rw [h]; decide)

theorem freeRecord_freed (hr : s.record n = some r) (h : r.freeable s = true) (ht : r.deleteTag = none) :
    freeRecord n s = (s.dropRecord n).offer .body (.shotReleased n (r.state == .deleting)) := by
  unfold freeRecord
  rw [hr]
  dsimp only
  rw [if_pos h, ht]
  rfl

theorem freeRecord_answered {tag : Byte} (hr : s.record n = some r) (h : r.freeable s = true) (ht : r.deleteTag = some tag) :
    freeRecord n s = ((s.dropRecord n).offer .body (.shotReleased n (r.state == .deleting))).respond .delete .body tag .ok [] := by
  unfold freeRecord
  rw [hr]
  dsimp only
  rw [if_pos h, ht]
  rfl

/-! ## The test -/

/-- A record whose raw is still wanted, and whose proof stays with it, is left as it is. -/
theorem testRelease_rawWanted (hr : s.record n = some r) (hraw : r.raw.isSome = true) (hf : r.rawFree s = false)
    (hp : r.proof = none ∨ r.state ≠ .deleting) : testRelease n s = s := by
  have notFree : r.freeable s = false := by
    rw [Bool.eq_false_iff]
    intro h
    rw [(freeable_iff.mp h).2.1] at hraw
    cases hraw
  unfold testRelease
  rw [releaseRaw_kept hr (.inr hf), releaseProof_kept hr (hp.imp id fun h => .inr ⟨hraw, h⟩), freeRecord_kept hr notFree]

/-- A record bare of raw and proof that something refers to is left as it is (R56). -/
theorem testRelease_bareKept (hr : s.record n = some r) (hraw : r.raw = none) (hp : r.proof = none) (h : ¬ s.Unreferenced n) :
    testRelease n s = s := by
  have notFree : r.freeable s = false := by
    rw [Bool.eq_false_iff]
    intro hf
    exact h (record_shot hr ▸ (freeable_iff.mp hf).2.2.2)
  unfold testRelease
  rw [releaseRaw_kept hr (.inl hraw), releaseProof_kept hr (.inl hp), freeRecord_kept hr notFree]

/-- A DELETING record bare of raw and proof that nothing refers to is gone, and its DELETE answered (R56, R58). -/
theorem testRelease_bareFreed {tag : Byte} (hr : s.record n = some r) (hst : r.state = .deleting) (ht : r.deleteTag = some tag)
    (hraw : r.raw = none) (hp : r.proof = none) (h : s.Unreferenced n) : testRelease n s
      = ((s.dropRecord n).offer .body (.shotReleased n true)).respond .delete .body tag .ok [] := by
  have free : r.freeable s = true := freeable_iff.mpr ⟨.inr hst, hraw, hp, (record_shot hr).symm ▸ h⟩
  unfold testRelease
  rw [releaseRaw_kept hr (.inl hraw), releaseProof_kept hr (.inl hp), freeRecord_answered hr free ht, hst]
  rfl

/-! ## A raw given back by the test (R54, R10) -/

/-- A chain given back: it waits for its last access, or is free with no job that waits for slabs (R10, R11). -/
theorem releaseChain_storeWith (h : s.chainInUse c = true ∨ ∀ j, s.currentJob = some j → j.state = .running) :
    releaseChain c s = { s with fsc := s.storeWith c } := by
  rcases h with h | h
  · unfold releaseChain State.storeWith
    rw [if_pos h, if_pos h]
    rfl
  · exact releaseChain_noWaiting h c

/-- The raw of a shot gone from its record and given back to the store. -/
def State.rawGiven (s : State) (n : Nat) (c : List Nat) : State :=
  { s.withRecord n (fun x => { x with raw := none }) with fsc := s.storeWith c }

theorem chainInUse_withRecord (hj : s.job n = none) {f : Record → Record} (hf : ∀ r, (f r).shot = r.shot) (c : List Nat) :
    (s.withRecord n f).chainInUse c = s.chainInUse c := by
  rw [← updRecord_eq_withRecord s n hf, chainInUse_updRecord hj]

/-- What has to be so for a record to give its raw back at once or at its last access. -/
structure GivesRaw (s : State) (n : Nat) (r : Record) (c : List Nat) : Prop where
  record : s.record n = some r
  raw : r.raw = some c
  free : r.rawFree s = true
  store : s.chainInUse c = true ∨ ∀ j, s.currentJob = some j → j.state = .running

theorem GivesRaw.noJob (h : GivesRaw s n r c) : s.job n = none := by
  obtain ⟨-, -, -, -, hj⟩ := rawFree_iff.mp h.free
  rwa [record_shot h.record] at hj

theorem releaseRaw_given (h : GivesRaw s n r c) : releaseRaw n s = s.rawGiven n c := by
  have uses := chainInUse_withRecord h.noJob (f := fun x => { x with raw := none }) (fun _ => rfl) c
  rw [releaseRaw_freed h.record h.raw h.free, releaseChain_storeWith (uses.symm ▸ h.store)]
  unfold State.rawGiven State.storeWith
  rw [uses]
  rfl

theorem rawGiven_record (hr : s.record n = some r) : (s.rawGiven n c).record n = some { r with raw := none } :=
  record_changed hr (fun x => { x with raw := none }) (fun _ => rfl) rfl

theorem rawGiven_dropRecord : (s.rawGiven n c).dropRecord n = { s.dropRecord n with fsc := s.storeWith c } := by
  have gone := dropRecord_updRecord s n fun x => { x with raw := none }
  rw [updRecord_eq_withRecord (f := fun x => { x with raw := none }) s n fun _ => rfl] at gone
  exact congrArg (fun t : State => { t with fsc := s.storeWith c }) gone

/-- Its raw given back, a record with a pinned proof stays (R54, R55). -/
theorem testRelease_proofPinned (h : GivesRaw s n r c) (hp : r.proof.isSome = true) (hn : r.proofPins ≠ 0) :
    testRelease n s = s.rawGiven n c := by
  have left := rawGiven_record (c := c) h.record
  have notFree : Record.freeable { r with raw := none } (s.rawGiven n c) = false := by
    rw [Bool.eq_false_iff]
    intro hf
    obtain ⟨-, -, hproof, -⟩ := freeable_iff.mp hf
    rw [show r.proof = none from hproof] at hp
    cases hp
  unfold testRelease
  rw [releaseRaw_given h, releaseProof_kept left (.inr (.inl hn)), freeRecord_kept left notFree]

/-- Its raw given back, a record without a proof that something refers to stays (R54, R56). -/
theorem testRelease_referenced (h : GivesRaw s n r c) (hp : r.proof = none) (hu : ¬ s.Unreferenced n) :
    testRelease n s = s.rawGiven n c := by
  have left := rawGiven_record (c := c) h.record
  have notFree : Record.freeable { r with raw := none } (s.rawGiven n c) = false := by
    rw [Bool.eq_false_iff]
    intro hf
    obtain ⟨-, -, -, hj, hw, hq, hx⟩ := freeable_iff.mp hf
    rw [show Record.shot { r with raw := none } = r.shot from rfl, record_shot h.record] at hj hw hq hx
    exact hu ⟨hj, hw, hq, hx⟩
  unfold testRelease
  rw [releaseRaw_given h, releaseProof_kept left (.inl hp), freeRecord_kept left notFree]

/-- What is left of a record without proof and references once its raw is given back: nothing (R54, R56). -/
theorem rawGiven_freeable (h : GivesRaw s n r c) (hp : r.proof = none) (hu : s.Unreferenced n) :
    Record.freeable { r with raw := none } (s.rawGiven n c) = true := by
  obtain ⟨hst, -⟩ := rawFree_iff.mp h.free
  have same : r.shot = n := record_shot h.record
  exact freeable_iff.mpr ⟨hst, rfl, hp, same.symm ▸ ⟨hu.job, hu.writing, hu.sending, hu.read⟩⟩

theorem testRelease_gone (h : GivesRaw s n r c) (hp : r.proof = none) (hu : s.Unreferenced n) (ht : r.deleteTag = none) :
    testRelease n s = State.offer { s.dropRecord n with fsc := s.storeWith c } .body (.shotReleased n (r.state == .deleting)) := by
  have left := rawGiven_record (c := c) h.record
  unfold testRelease
  rw [releaseRaw_given h, releaseProof_kept left (.inl hp), freeRecord_freed left (rawGiven_freeable h hp hu) ht, rawGiven_dropRecord]

theorem testRelease_goneAnswered {tag : Byte} (h : GivesRaw s n r c) (hp : r.proof = none) (hu : s.Unreferenced n)
    (ht : r.deleteTag = some tag) : testRelease n s = (State.offer { s.dropRecord n with fsc := s.storeWith c } .body
      (.shotReleased n (r.state == .deleting))).respond .delete .body tag .ok [] := by
  have left := rawGiven_record (c := c) h.record
  unfold testRelease
  rw [releaseRaw_given h, releaseProof_kept left (.inl hp), freeRecord_answered left (rawGiven_freeable h hp hu) ht,
    rawGiven_dropRecord]

theorem storeWith_free (h : s.chainInUse c = false) : s.storeWith c = { s.fsc with freeList := s.fsc.freeList ++ c } :=
  if_neg (by rw [h]; decide)

theorem storeWith_inUse (h : s.chainInUse c = true) : s.storeWith c = { s.fsc with releasing := s.fsc.releasing ++ [c] } := if_pos h

end Sys2Proof.Machine
end

section
/-! SUPPORT. SET_TAGS, PROTECT, HOLD, UNHOLD (R50 to R52) and the READ streams (R66, R67). -/

namespace Sys2Proof.Machine

variable {s t : State} {n : Nat} {r : Record}

/-! ## SET_TAGS, PROTECT, HOLD, UNHOLD (R50 to R52) -/

theorem readRating_eq (b : Byte) (old : Nat) : readRating b old = if b = 255 then old else min 5 b.toNat := by
  unfold readRating
  by_cases h : b = 255
  · rw [if_pos (by rw [h]; rfl), if_pos h]
  · rw [if_neg (fun e : b.toNat = 255 => h (BitVec.eq_of_toNat_eq e)), if_neg h]

theorem exec_setTags {h : Header} {m : Word} {a b : Half} {rate : Byte} (hr : reachesOwner (.setTags h m a b rate) h s) :
    exec (.setTags h m a b rate) s = .next (ownSetTags h m.toNat a b rate (s.atOwner h)) := exec_owner hr

/-- SET_TAGS of a record that is not DELETING, with no rule to act (R50). -/
theorem ownSetTags_accepted (h : Header) (a b : Half) (rate : Byte) (hr : s.record n = some r) (hd : r.state ≠ .deleting)
    (hn : r.state ≠ .stored ∨ s.ttc.attached = false ∨ s.ttc.armed = false) :
    ownSetTags h n a b rate s = (s.withRecord n fun x => { x with
      tags := (x.tags &&& ~~~b) ||| a, rating := if rate = 255 then x.rating else min 5 rate.toNat }).answered .setTags h [] := by
  have changed : (s.updRecord n fun x => { x with tags := (x.tags &&& ~~~b) ||| a, rating := readRating rate x.rating })
      = s.withRecord n fun x => { x with
          tags := (x.tags &&& ~~~b) ||| a, rating := if rate = 255 then x.rating else min 5 rate.toNat } := by
    rw [updRecord_eq_withRecord]
    · simp only [readRating_eq]
    · exact fun _ => rfl
  unfold ownSetTags
  rw [hr]
  dsimp only
  rw [if_neg (by simpa using hd), changed]
  split
  case isTrue hs => exact evaluateRules_none (by exact hn.resolve_left (by simpa using hs)) n
  case isFalse => rfl

theorem exec_protect {h : Header} {m : Word} {action : Byte} (hr : reachesOwner (.protect h m action) h s) :
    exec (.protect h m action) s = .next (ownProtect h m.toNat action s) := exec_bodyRequest hr rfl rfl

theorem ownProtect_found (h : Header) {action : Byte} (ha : action.toNat ≤ 1) (hr : s.record n = some r) :
    ownProtect h n action s = if r.state = .stored then
      (s.withRecord n fun x => { x with guarded := action = 1 }).answered .protect h [] else s.refused .protect h .notReady := by
  unfold ownProtect
  rw [readFlag_some ha]
  dsimp only
  rw [hr]
  dsimp only
  rw [updRecord_eq_withRecord (f := fun x => { x with guarded := decide (action = 1) }) s n fun _ => rfl]
  by_cases hs : r.state = .stored
  · rw [if_neg (by simp [hs]), if_pos hs]
    rfl
  · rw [if_pos (by simpa using hs), if_neg hs]
    rfl

theorem exec_hold {h : Header} {m : Word} (hr : reachesOwner (.hold h m) h s) :
    exec (.hold h m) s = .next (ownHold h m.toNat s) := exec_bodyRequest hr rfl rfl

theorem ownHold_found (h : Header) (hr : s.record n = some r) :
    ownHold h n s = if r.state ≠ .stored then s.refused .hold h .notReady
      else if r.hold = true then s.answered .hold h []
      else (s.withRecord n fun x =>
        { x with hold := true, rawPins := x.rawPins + 1, proofPins := x.proofPins + 1 }).answered .hold h [] := by
  have held : (((s.updRecord n fun x => { x with hold := true }).pin n .raw).pin n .proof)
      = s.withRecord n fun x => { x with hold := true, rawPins := x.rawPins + 1, proofPins := x.proofPins + 1 } := by
    unfold State.pin
    rw [updRecord_eq_withRecord (f := fun x => { x with hold := true }) s n fun _ => rfl,
      updRecord_eq_withRecord (f := fun x => { x with rawPins := x.rawPins + 1 }) _ n fun _ => rfl,
      updRecord_eq_withRecord (f := fun x => { x with proofPins := x.proofPins + 1 }) _ n fun _ => rfl,
      withRecord_withRecord (f := fun x => { x with hold := true }) s n fun _ => rfl,
      withRecord_withRecord (f := fun x => { x with hold := true, rawPins := x.rawPins + 1 }) s n fun _ => rfl]
  unfold ownHold
  rw [hr]
  dsimp only
  rw [held]
  exact if_congr (by simp) rfl rfl

theorem exec_unhold {h : Header} {m : Word} (hr : reachesOwner (.unhold h m) h s) :
    exec (.unhold h m) s = .next (ownUnhold h m.toNat s) := exec_bodyRequest hr rfl rfl

/-- A record without its hold, and both contents unpinned (R52). -/
def Record.released (r : Record) : Record := { r with hold := false, rawPins := r.rawPins - 1, proofPins := r.proofPins - 1 }

/-- UNHOLD of a held record: unpinned, the stream cut, answered, tested (R52, R57). -/
theorem ownUnhold_held (h : Header) (hr : s.record n = some r) (hh : r.hold = true) :
    ownUnhold h n s = testRelease n ((cutRead (fun x => x.shot == n) (s.withRecord n Record.released)).answered .unhold h []) := by
  have released : (((s.updRecord n fun x => { x with hold := false }).unpin n .raw).unpin n .proof) = s.withRecord n Record.released := by
    unfold State.unpin
    rw [updRecord_eq_withRecord (f := fun x => { x with hold := false }) s n fun _ => rfl,
      updRecord_eq_withRecord (f := fun x => { x with rawPins := x.rawPins - 1 }) _ n fun _ => rfl,
      updRecord_eq_withRecord (f := fun x => { x with proofPins := x.proofPins - 1 }) _ n fun _ => rfl,
      withRecord_withRecord (f := fun x => { x with hold := false }) s n fun _ => rfl,
      withRecord_withRecord (f := fun x => { x with hold := false, rawPins := x.rawPins - 1 }) s n fun _ => rfl]
    rfl
  unfold ownUnhold
  rw [hr]
  dsimp only
  rw [if_pos hh, released]
  rfl

theorem cutRead_none (h : s.ptc.read = none) (c : ReadStream → Bool) : cutRead c s = s := by
  unfold cutRead
  rw [h]

theorem cutRead_some {x : ReadStream} {c : ReadStream → Bool} (h : s.ptc.read = some x) (hc : c x = true) :
    cutRead c s = { s with ptc := { s.ptc with read := some { x with cut := true } } } := by
  unfold cutRead
  rw [h]
  exact if_pos hc

/-- Settles O32: each owner's tests in order; the raw of the unheld record is still wanted (`testRelease_rawWanted`). -/
theorem recordRequests : Obligations.RecordRequests := by
  refine ⟨fun h m a b rate s hr => ⟨fun hn => ?_, fun r hs => ⟨fun hd => ?_, fun hd hoff => ?_⟩⟩,
    fun h m action s hr => ⟨fun ha => ?_, fun ha hn => ?_, fun ha r hs => ?_⟩,
    fun h m s hr => ⟨fun hn => ?_, fun r hs => ?_⟩,
    fun h m s hr => ⟨fun hn => ?_, fun r hs => ⟨fun hh => ?_, fun hh hread hst hraw hreq => ?_⟩⟩⟩
  · rw [exec_setTags hr, ownSetTags, atOwner_record, hn]
    rfl
  · rw [exec_setTags hr, ownSetTags, atOwner_record, hs]
    dsimp only
    rw [if_pos (by rw [hd]; rfl)]
    rfl
  · rw [exec_setTags hr]
    exact congrArg _ (ownSetTags_accepted h a b rate ((atOwner_record s h _).trans hs) hd (hoff.imp id (atOwner_rulesOff h)))
  · rw [exec_protect hr, ownProtect, readFlag_none ha]
    rfl
  · rw [exec_protect hr, ownProtect, readFlag_some ha, hn]
    rfl
  · exact (exec_protect hr).trans (congrArg _ (ownProtect_found h ha hs))
  · rw [exec_hold hr, ownHold, hn]
    rfl
  · exact (exec_hold hr).trans (congrArg _ (ownHold_found h hs))
  · rw [exec_unhold hr, ownUnhold, hn]
    rfl
  · rw [exec_unhold hr, ownUnhold, hs]
    dsimp only
    rw [if_neg (by rw [hh]; decide)]
    rfl
  · have left : ((s.withRecord m.toNat Record.released).answered .unhold h []).record m.toNat = some r.released :=
      record_changed hs Record.released (fun _ => rfl) rfl
    rw [exec_unhold hr, ownUnhold_held h hs hh, cutRead_none (by exact hread)]
    exact congrArg _ (testRelease_rawWanted left hraw (rawFree_wanted (.inr (.inl (by rw [show r.released.reqA = .queued from hreq]; rfl))))
      (.inr (by rw [show r.released.state = .stored from hst]; decide)))

/-! ## READ_RAW and READ_PROOF (R66) -/

/-- The two READ requests: which content each streams (R66). -/
inductive Reads : Request → Content → Instr → Header → Nat → Prop
  | raw (h : Header) (m : Word) : Reads .readRaw .raw (.readRaw h m) h m.toNat
  | proof (h : Header) (m : Word) : Reads .readProof .proof (.readProof h m) h m.toNat

theorem exec_read {q : Request} {c : Content} {i : Instr} {h : Header} (hq : Reads q c i h n) (hr : reachesOwner i h s) :
    exec i s = .next (ownRead q c h n s) ∧ h.port = .body := by
  cases hq with
  | raw => exact ⟨exec_bodyRequest hr rfl rfl, bodyPort hr rfl rfl rfl⟩
  | proof => exact ⟨exec_bodyRequest hr rfl rfl, bodyPort hr rfl rfl rfl⟩

theorem readable_none {c : Content} : r.readable c = none ↔ c = .raw ∧ r.raw = none ∨ c = .proof ∧ r.proof = none := by
  cases c <;> simp [Record.readable]

/-- A READ is refused for want of a record, of the hold, of a free stream, of the content, in that order (R66). -/
theorem ownRead_refused (q : Request) (c : Content) (h : Header) :
    (s.record n = none → ownRead q c h n s = s.refused q h .notFound)
      ∧ ∀ r, s.record n = some r →
        (r.hold = false → ownRead q c h n s = s.refused q h .notHeld)
          ∧ (r.hold = true → s.ptc.read.isSome = true → ownRead q c h n s = s.refused q h .busy)
          ∧ (r.hold = true → s.ptc.read = none → r.readable c = none → ownRead q c h n s = s.refused q h .notReady) := by
  unfold ownRead
  refine ⟨fun hn => ?_, fun r hs => ⟨fun hh => ?_, fun hh hx => ?_, fun hh hx hc => ?_⟩⟩
  · rw [hn]
    rfl
  all_goals
    rw [hs]
    dsimp only
  · rw [if_pos (by rw [hh]; rfl)]
    rfl
  · rw [if_neg (by rw [hh]; decide), if_pos hx]
    rfl
  · rw [if_neg (by rw [hh]; decide), if_neg (by rw [hx]; decide), hc]
    rfl

/-- A READ that is accepted: the response, and the first frame (R66, R67). -/
theorem ownRead_accepted (q : Request) {c : Content} {h : Header} {chain : List Nat} {total : Nat} {scale : Option Nat}
    (hp : h.port = .body) (hs : s.record n = some r) (hh : r.hold = true) (hx : s.ptc.read = none)
    (hc : r.readable c = some (chain, total, scale)) : ownRead q c h n s = { s with
      fsc := { s.fsc with accesses := s.fsc.accesses ++ [{ user := .readStream, chain := chain }] }
      ptc := { s.ptc with
        read := some { tag := h.tag, shot := n, content := c, chain := chain, total := total, frames := frameCount total, next := 0,
                       cut := false }
        bodyOut := s.ptc.bodyOut ++
          [.response (BitVec.ofNat 8 (q.code + 128)) h.tag .ok true (le 1 c.code ++ leOpt 1 scale ++ le 4 total ++ le 2 (frameCount total)),
           .frame h.tag 0 (readChain s.dram chain 0 (framePayloadLen total 0)) false] } } := by
  unfold ownRead
  rw [hs]
  dsimp only
  rw [if_neg (by rw [hh]; decide), if_neg (by rw [hx]; decide), hc, hp]
  dsimp only
  unfold sendReadFrame
  rw [Nat.zero_mul]
  unfold State.respond State.send beginAccess
  dsimp only [State.updPtc, State.updFsc]
  rw [List.append_assoc]
  rfl

/-! ## READ_FRAME_COMPLETION (R67) -/

/-- With no release waiting the end of an access is only that (R10). -/
theorem endAccess_noneWaiting (h : s.fsc.releasing = []) (u : AccessUser) (c : List Nat) : endAccess u c s
    = { s with fsc := { s.fsc with accesses := s.fsc.accesses.filter fun a => !(a.user == u && a.chain == c) } } := by
  unfold endAccess
  exact congrArg (fun l => settleReleases l (s.updFsc _)) h

/-- The only release that waits, free once the access is over, is carried out with no taker for its slabs (R10, R11). -/
theorem endAccess_lastRelease {c : List Nat} {u : AccessUser} (h : s.fsc.releasing = [c])
    (hw : ∀ j, s.currentJob = some j → j.state = .running)
    (hu : State.chainInUse { s with fsc := { s.fsc with
      accesses := s.fsc.accesses.filter fun a => !(a.user == u && a.chain == c) } } c = false) :
    endAccess u c s = { s with fsc := { s.fsc with
      accesses := s.fsc.accesses.filter fun a => !(a.user == u && a.chain == c), releasing := [], freeList := s.fsc.freeList ++ c } } := by
  unfold endAccess
  refine (congrArg (fun l => settleReleases l (s.updFsc _)) h).trans ?_
  unfold settleReleases settleReleases carryOutRelease
  rw [if_neg (by exact Bool.eq_false_iff.mp hu), announceSlabs_noWaiting (by exact hw)]
  simp only [State.updFsc, h, List.erase_cons_head]

/-- The stream's frame delivered: what the stream does then, once its access is over (R67). -/
theorem readFrameDone_eq {x : ReadStream} {f : Fsc} (hx : s.ptc.read = some x)
    (hf : endAccess .readStream x.chain (s.updPtc fun p => { p with bodyOut := dropThrough (isFrame x.tag x.next) p.bodyOut })
      = { s with fsc := f, ptc := { s.ptc with bodyOut := dropThrough (isFrame x.tag x.next) s.ptc.bodyOut } }) :
    readFrameDone s = if x.cut = true then testRelease x.shot { s with
          fsc := f
          ptc := { s.ptc with read := none,
                              bodyOut := dropThrough (isFrame x.tag x.next) s.ptc.bodyOut ++ [.frame x.tag (x.next + 1) [] true] } }
      else if x.next + 1 = x.frames then testRelease x.shot { s with
          fsc := f, ptc := { s.ptc with read := none, bodyOut := dropThrough (isFrame x.tag x.next) s.ptc.bodyOut } }
      else sendReadFrame { x with next := x.next + 1 }
        { s with fsc := f, ptc := { s.ptc with bodyOut := dropThrough (isFrame x.tag x.next) s.ptc.bodyOut } } := by
  unfold readFrameDone
  rw [hx]
  dsimp only
  rw [hf]
  rfl

/-- Settles O34: the tests of a READ in order, and the delivery once the access of the frame is over. -/
theorem readStreams : Obligations.ReadStreams := by
  refine ⟨fun q c i h m s hq hr => ?_, fun s => ⟨fun hn => ?_, fun x hx => ⟨fun hrel => ?_, fun hcut hrel hw hu => ?_⟩⟩,
    fun h m s r x hr hs hh hx hm => ?_⟩
  · have reads : Reads q c i h m.toNat := by
      rcases hq with ⟨rfl, rfl, rfl⟩ | ⟨rfl, rfl, rfl⟩
      · exact .raw h m
      · exact .proof h m
    obtain ⟨run, port⟩ := exec_read reads hr
    obtain ⟨notFound, refused⟩ := ownRead_refused (s := s) (n := m.toNat) q c h
    rw [run]
    refine ⟨fun hn => congrArg _ (notFound hn), fun r hs => ?_⟩
    obtain ⟨notHeld, busy, notReady⟩ := refused r hs
    refine ⟨fun hh => congrArg _ (notHeld hh), fun hh hx => congrArg _ (busy hh hx),
      fun hh hx hc => congrArg _ (notReady hh hx (readable_none.mpr hc)), fun hh hx chain total scale hc => congrArg _ ?_⟩
    exact ownRead_accepted q port hs hh hx hc
  · show Host.Outcome.next (readFrameDone s) = _
    rw [readFrameDone, hn]
  · have done := readFrameDone_eq hx
      (endAccess_noneWaiting (s := s.updPtc fun p => { p with bodyOut := dropThrough (isFrame x.tag x.next) p.bodyOut }) hrel _ _)
    refine ⟨fun hc hl => congrArg _ (done.trans ?_), fun hc hl => congrArg _ (done.trans ?_), fun hc => congrArg _ (done.trans ?_)⟩
    · rw [if_neg (by rw [hc]; decide), if_neg (by omega)]
      rfl
    · rw [if_neg (by rw [hc]; decide), if_pos hl]
      exact congrArg (fun l => testRelease x.shot { s with
        fsc := _, ptc := { s.ptc with read := none, bodyOut := l } }) (List.append_nil _).symm
    · rw [if_pos hc]
      rfl
  · have done := readFrameDone_eq hx
      (endAccess_lastRelease (s := s.updPtc fun p => { p with bodyOut := dropThrough (isFrame x.tag x.next) p.bodyOut }) hrel
        (by exact hw) hu)
    refine congrArg _ (done.trans ?_)
    rw [if_pos hcut]
    rfl
  · rw [exec_unhold hr, ownUnhold_held h hs hh, cutRead_some (by exact hx) (by simpa using hm)]
    rfl

end Sys2Proof.Machine
end

section
/-! SUPPORT. ITEM_RESULT and CANCEL_ITEM (R172 to R174), and the record that the item's end leaves (R54 to R57). -/

namespace Sys2Proof.Machine

variable {s t : State} {n : Nat} {r : Record} {i : SendItem}

/-! ## Items changed and gone, as the statements write them -/

theorem updItem_eq (s : State) (n : Nat) {f : SendItem → SendItem} (hf : ∀ x, (f x).serial = x.serial) :
    s.updItem n f = { s with ttc := { s.ttc with queue := s.ttc.queue.map fun x => if x.serial = n then f x else x } } := by
  refine congrArg (fun q => { s with ttc := { s.ttc with queue := q } }) (List.map_congr_left fun x _ => ?_)
  by_cases h : x.serial = n
  · rw [if_pos (by simpa using h), if_pos h, ← hf x]
  · rw [if_neg (by simpa using h), if_neg h]

/-- What the end of an item does to its shot's record: the mark of its content, and one pin fewer (R53, R166). -/
def Record.itemEnded (c : Content) (m : TetherMark) (r : Record) : Record :=
  match c with
  | .raw => { r with rawPins := r.rawPins - 1, markRaw := m }
  | .proof => { r with proofPins := r.proofPins - 1, markProof := m }

theorem itemEnded_shot (c : Content) (m : TetherMark) (r : Record) : (r.itemEnded c m).shot = r.shot := by cases c <;> rfl

/-- The parts of a record that the end of an item leaves alone and a release of its raw asks for. -/
theorem itemEnded_keeps (c : Content) (m : TetherMark) (r : Record) : (r.itemEnded c m).state = r.state ∧ (r.itemEnded c m).raw = r.raw
    ∧ (r.itemEnded c m).reqA = r.reqA := by cases c <;> exact ⟨rfl, rfl, rfl⟩

theorem itemGone_eq (s : State) (i : SendItem) (m : TetherMark) : s.itemGone i m
    = State.withRecord { s with ttc := { s.ttc with queue := s.queueWithout i.serial } } i.shot (Record.itemEnded i.content m) := by
  unfold State.itemGone
  refine congrArg (State.withRecord _ i.shot) (funext fun r => ?_)
  cases i.content <;> rfl

theorem leaveQueue_itemGone (i : SendItem) (m : TetherMark) (s : State) : leaveQueue i m s = s.itemGone i m := by
  have mark : ∀ t : State, t.setMark i.shot i.content m = t.withRecord i.shot fun r =>
      match i.content with | .raw => { r with markRaw := m } | .proof => { r with markProof := m } := fun t =>
    updRecord_eq_withRecord t i.shot fun r => by cases i.content <;> rfl
  have unpin : ∀ t : State, t.unpin i.shot i.content = t.withRecord i.shot fun r =>
      match i.content with | .raw => { r with rawPins := r.rawPins - 1 } | .proof => { r with proofPins := r.proofPins - 1 } := fun t =>
    updRecord_eq_withRecord t i.shot fun r => by cases i.content <;> rfl
  unfold leaveQueue
  rw [mark, unpin, withRecord_withRecord]
  · unfold State.itemGone
    refine congrArg (State.withRecord _ i.shot) (funext fun r => ?_)
    cases i.content <;> rfl
  · intro r
    cases i.content <;> rfl

theorem itemGone_record (hr : s.record i.shot = some r) (m : TetherMark) (hc : t.cat.records = (s.itemGone i m).cat.records) :
    t.record i.shot = some (r.itemEnded i.content m) :=
  record_changed hr (Record.itemEnded i.content m) (itemEnded_shot i.content m) (by rw [hc, itemGone_eq]; rfl)

/-- A record whose raw a card still wants is left by the test that follows the item's end (R54). -/
theorem testRelease_itemGone (hr : s.record i.shot = some r) (hst : r.state = .stored) (hraw : r.raw.isSome = true)
    (hreq : r.reqA.settled = false) (m : TetherMark) (hc : t.cat.records = (s.itemGone i m).cat.records) : testRelease i.shot t = t := by
  obtain ⟨state, raw, req⟩ := itemEnded_keeps i.content m r
  exact testRelease_rawWanted (itemGone_record hr m hc) (raw ▸ hraw) (rawFree_wanted (.inr (.inl (req ▸ hreq))))
    (.inr (by rw [state, hst]; decide))

/-! ## ITEM_RESULT (R172, R174) -/

theorem readOutcome_none {b : Byte} (h : 1 < b.toNat) : readOutcome b = none := readChoice_none h true false

theorem exec_itemResult {h : Header} {m : Word} {b : Byte} (hr : reachesOwner (.itemResult h m b) h s) :
    exec (.itemResult h m b) s = .next (ownItemResult h m.toNat b (s.atOwner h)) := exec_owner hr

theorem atOwner_sendingItem (s : State) (h : Header) : (s.atOwner h).sendingItem = s.sendingItem := by
  unfold State.sendingItem
  rw [atOwner_queue]

theorem atOwner_queueWithout (s : State) (h : Header) (k : Nat) : (s.atOwner h).queueWithout k = s.queueWithout k := by
  unfold State.queueWithout
  rw [atOwner_queue]

/-- The result of an item that does not await one, or of none (R172). -/
theorem ownItemResult_refused (h : Header) {b : Byte} (hb : b.toNat ≤ 1) :
    ((∀ i, s.sendingItem = some i → i.serial ≠ n ∨ i.cut ≠ .clear) → ownItemResult h n b s = s.refused .itemResult h .noItem)
      ∧ ∀ i t, s.sendingItem = some i → i.serial = n → i.cut = .clear → i.transfer = some t → t.awaiting = false →
          ownItemResult h n b s = s.refused .itemResult h .itemOpen := by
  have outcome : readOutcome b = _ := readChoice_some hb true false
  unfold ownItemResult
  rw [outcome]
  dsimp only
  refine ⟨fun hn => ?_, fun i t hs hi hc ht ha => ?_⟩
  · split
    · rfl
    case _ i hs => rw [if_pos (hn i hs)]; rfl
  · rw [hs]
    dsimp only
    rw [if_neg (by simp [hi, hc]), if_pos (by simp [SendItem.awaits, ht, ha])]
    rfl

/-- The item that awaits its result has it (R172). -/
theorem ownItemResult_awaited {t : Transfer} (h : Header) (hs : s.sendingItem = some i) (hi : i.serial = n) (hc : i.cut = .clear)
    (ht : i.transfer = some t) (ha : t.awaiting = true) {b : Byte} {ok : Bool} (hb : readOutcome b = some ok) :
    ownItemResult h n b s = if ok = true then itemSent h i s else itemFailed h i s := by
  unfold ownItemResult
  rw [hb, hs]
  dsimp only
  rw [if_neg (by simp [hi, hc]), if_neg (by simp [SendItem.awaits, ht, ha])]

/-- OK: the item out with its mark SENT, the error count one lower, the answer, the test (R172). -/
theorem itemSent_eq (h : Header) (i : SendItem) (s : State) : itemSent h i s = testRelease i.shot
    ((State.itemGone { s with ttc := { s.ttc with errors := s.ttc.errors - 1 } } i .sent).answered .itemResult h []) := by
  unfold itemSent
  rw [leaveQueue_itemGone]
  rfl

/-- The link error count after a FAILED result, up to the threshold (R174). -/
def State.withFailure (s : State) : State :=
  { s with ttc := { s.ttc with errors := if s.ttc.errors < s.ttc.threshold then s.ttc.errors + 1 else s.ttc.errors } }

/-- Auto-send suspended where the count meets the threshold (R174). -/
def State.judged (s : State) : State := if s.ttc.armed = true ∧ s.ttc.threshold ≤ s.ttc.errors then suspendAutosend s else s

/-- FAILED: back to the head, or out at the third attempt; the answer, the test, the judgement (R172, R174). -/
theorem itemFailed_eq (h : Header) (i : SendItem) (s : State) : itemFailed h i s = (testRelease i.shot
    ((if i.attempts < 2 then returnToHead { i with attempts := i.attempts + 1 } s.withFailure
      else s.withFailure.itemGone i .failed).answered .itemResult h [])).judged := by
  unfold itemFailed State.judged
  rw [← leaveQueue_itemGone]
  have attempts : (i.attempts + 1 < 3) = (i.attempts < 2) := propext (by omega)
  simp only [attempts, Bool.and_eq_true, decide_eq_true_eq]
  rfl

theorem judged_below (h : s.ttc.armed = false) : s.judged = s := if_neg (by rw [h]; simp)

/-- An item back at the head: READY, and ITEMS_READY where no other item is (R166, R172). -/
theorem returnToHead_eq (i : SendItem) {others : List SendItem} (h : s.queueWithout i.serial = others) : returnToHead i s =
    let again : State := { s with ttc := { s.ttc with queue := i.back :: others } }
    if ∀ x ∈ others, x.state ≠ .ready then again.offer .tether (.itemsReady i.serial again.ttc.queue.length)
    else again := by
  subst h
  have queue : (i.back :: s.queueWithout i.serial)
      = ({ i with state := .waitingProof, transfer := none, cut := .clear, cancelTag := none } :: s.queueWithout i.serial).map
          fun x => if x.serial = i.serial then { x with state := .ready } else x := by
    rw [List.map_cons, if_pos rfl]
    refine congrArg₂ List.cons rfl ?_
    conv_lhs => rw [← List.map_id (s.queueWithout i.serial)]
    refine List.map_congr_left fun x hx => ?_
    rw [if_neg (by simpa using (List.mem_filter.mp hx).2), id]
  have others : (({ i with state := .waitingProof, transfer := none, cut := .clear, cancelTag := none }
        :: s.queueWithout i.serial).any fun x => x.state == .ready && x.serial != i.serial) = true
      ↔ ¬ ∀ x ∈ s.queueWithout i.serial, x.state ≠ .ready := by
    simp only [List.any_cons, Bool.or_eq_true, List.any_eq_true, Bool.and_eq_true, not_forall, not_not, exists_prop]
    constructor
    · rintro (⟨h, -⟩ | ⟨x, hx, hst, -⟩)
      · exact absurd h (by decide)
      · exact ⟨x, hx, by simpa using hst⟩
    · rintro ⟨x, hx, hst⟩
      exact .inr ⟨x, hx, by simpa using hst, (List.mem_filter.mp hx).2⟩
  unfold returnToHead becomeReady
  dsimp only
  rw [updItem_eq (f := fun x => { x with state := .ready }) _ _ fun _ => rfl, queue]
  by_cases h : ∀ x ∈ s.queueWithout i.serial, x.state ≠ .ready
  · rw [if_pos h, if_neg (by exact fun e => others.mp e h)]
    rfl
  · rw [if_neg h, if_pos (by exact others.mpr h)]
    rfl

/-! ## CANCEL_ITEM (R173) -/

theorem exec_cancelItem {h : Header} {m : Word} (hr : reachesOwner (.cancelItem h m) h s) :
    exec (.cancelItem h m) s = .next (ownCancelItem h m.toNat (s.atOwner h)) := exec_owner hr

theorem ownCancelItem_refused (h : Header)
    (hi : ∀ i, s.ttc.queue.find? (fun x => x.serial == n) = some i → i.state = .sending ∧ i.cut ≠ .clear) :
    ownCancelItem h n s = s.refused .cancelItem h .noItem := by
  unfold ownCancelItem
  split
  · rfl
  case _ i hs => rw [if_pos (hi i hs)]; rfl

/-- An item whose stream runs is marked (R173). -/
theorem ownCancelItem_streams {t : Transfer} (h : Header) (hs : s.ttc.queue.find? (fun x => x.serial == n) = some i)
    (hst : i.state = .sending) (hc : i.cut = .clear) (ht : i.transfer = some t) (ha : t.awaiting = false) :
    ownCancelItem h n s = { s with ttc := { s.ttc with queue := s.ttc.queue.map fun x =>
      if x.serial = n then { x with cut := .cancel, cancelTag := some h.tag } else x } } := by
  have serial : i.serial = n := by simpa using List.find?_some hs
  unfold ownCancelItem
  rw [hs]
  dsimp only
  rw [if_neg (by simp [hc]), if_pos ⟨hst, by simp [SendItem.awaits, ht, ha]⟩, updItem_eq, serial]
  exact fun _ => rfl

/-- Any other item goes out at once (R173). -/
theorem ownCancelItem_gone (h : Header) (hs : s.ttc.queue.find? (fun x => x.serial == n) = some i)
    (hi : i.state ≠ .sending ∨ i.cut = .clear ∧ ∃ t, i.transfer = some t ∧ t.awaiting = true) :
    ownCancelItem h n s = testRelease i.shot ((s.itemGone i .dropped).answered .cancelItem h []) := by
  unfold ownCancelItem
  rw [hs]
  dsimp only
  rw [if_neg, if_neg, leaveQueue_itemGone]
  · rfl
  · rintro ⟨hst, hn⟩
    rcases hi with hi | ⟨-, t, ht, ha⟩
    · exact hi hst
    · simp [SendItem.awaits, ht, ha] at hn
  · rintro ⟨hst, hn⟩
    exact hi.elim (fun hi => hi hst) fun hi => hn hi.1

/-- Settles O49: the test by its cases, and each request by the state of its item. -/
theorem resultAndCancel : Obligations.ResultAndCancel := by
  refine ⟨fun shot s r chain hr hst hraw hpins hA hB hj huse hw => ⟨fun hp hwr hq hx ht => ?_, fun hp hpp => ?_⟩,
    fun h m b s hr => ⟨fun hb => ?_, fun hb hn => ?_, fun i t hs hi hc ht => ⟨fun hb ha => ?_, fun ha => ⟨?_, ?_⟩, ?_⟩⟩,
    fun h m s hr => ⟨fun hn => ?_, fun i hs => ⟨fun t hst hc ht ha => ?_, fun hi => ?_, fun r hst hrec hstored hraw hreq => ?_⟩⟩⟩
  · have gives : GivesRaw s shot r chain :=
      ⟨hr, hraw, rawFree_iff.mpr ⟨.inl hst, hpins, hA, hB, (record_shot hr).symm ▸ hj⟩, .inr hw⟩
    rw [testRelease_gone gives hp ⟨hj, hwr, hq, hx⟩ ht, storeWith_free huse, hst]
    rfl
  · have gives : GivesRaw s shot r chain :=
      ⟨hr, hraw, rawFree_iff.mpr ⟨.inl hst, hpins, hA, hB, (record_shot hr).symm ▸ hj⟩, .inr hw⟩
    rw [testRelease_proofPinned gives hp hpp, State.rawGiven, storeWith_free huse]
    rfl
  · rw [exec_itemResult hr, ownItemResult, readOutcome_none hb]
    rfl
  · rw [exec_itemResult hr]
    exact congrArg _ ((ownItemResult_refused h hb).1 (by rw [atOwner_sendingItem]; exact hn))
  · rw [exec_itemResult hr]
    exact congrArg _ ((ownItemResult_refused h hb).2 i t (by rw [atOwner_sendingItem]; exact hs) hi hc ht ha)
  · rintro rfl
    rw [exec_itemResult hr, ownItemResult_awaited h ((atOwner_sendingItem s h).trans hs) hi hc ht ha rfl, if_pos rfl, itemSent_eq]
    rfl
  · rintro rfl hat harmed hl
    rw [exec_itemResult hr, ownItemResult_awaited h ((atOwner_sendingItem s h).trans hs) hi hc ht ha rfl, if_neg Bool.false_ne_true,
      itemFailed_eq, if_neg (by omega), judged_below (by rw [testRelease_ttc]; exact harmed), State.withFailure, if_pos hl]
    rfl
  · intro r ha hrec hstored hraw hreq
    have found : (s.atOwner h).record i.shot = some r := (atOwner_record s h _).trans hrec
    refine ⟨?_, ?_, ?_⟩
    · rintro rfl
      rw [exec_itemResult hr, ownItemResult_awaited h ((atOwner_sendingItem s h).trans hs) hi hc ht ha rfl, if_pos rfl, itemSent_eq]
      exact congrArg _ (testRelease_itemGone found hstored hraw hreq .sent rfl)
    · rintro rfl hat
      rw [exec_itemResult hr, ownItemResult_awaited h ((atOwner_sendingItem s h).trans hs) hi hc ht ha rfl, if_neg Bool.false_ne_true,
        itemFailed_eq, if_neg (by omega)]
      exact congrArg (fun t : State => Host.Outcome.next t.judged) (testRelease_itemGone found hstored hraw hreq .failed rfl)
    · rintro rfl hat
      rw [exec_itemResult hr, ownItemResult_awaited h ((atOwner_sendingItem s h).trans hs) hi hc ht ha rfl, if_neg Bool.false_ne_true,
        itemFailed_eq, if_pos hat, returnToHead_eq (s := (s.atOwner h).withFailure)
          { i with attempts := i.attempts + 1 } (atOwner_queueWithout s h i.serial)]
      have kept : ∀ t : State, t.cat = (s.atOwner h).cat → testRelease i.shot t = t := fun t hcat =>
        testRelease_rawWanted ((record_of_cat hcat).trans found) hraw (rawFree_wanted (.inr (.inl hreq)))
          (.inr (by rw [hstored]; decide))
      refine congrArg (fun t : State => Host.Outcome.next t.judged) (kept _ ?_)
      dsimp only
      split <;> rfl
  · rw [exec_cancelItem hr]
    exact congrArg _ (ownCancelItem_refused h (by rw [atOwner_queue]; exact hn))
  · rw [exec_cancelItem hr, ownCancelItem_streams h ((atOwner_queue s h).symm ▸ hs) hst hc ht ha, atOwner_queue]
  · have serial : i.serial = m.toNat := by simpa using List.find?_some hs
    rw [exec_cancelItem hr, ownCancelItem_gone h ((atOwner_queue s h).symm ▸ hs) hi, State.itemGone, State.queueWithout, atOwner_queue,
      serial]
    rfl
  · have serial : i.serial = m.toNat := by simpa using List.find?_some hs
    have kept : testRelease i.shot (((s.atOwner h).itemGone i .dropped).answered .cancelItem h [])
        = ((s.atOwner h).itemGone i .dropped).answered .cancelItem h [] :=
      testRelease_itemGone ((atOwner_record s h _).trans hrec) hstored hraw hreq .dropped rfl
    rw [exec_cancelItem hr, ownCancelItem_gone h ((atOwner_queue s h).symm ▸ hs) (.inl hst), kept, State.itemGone,
      State.queueWithout, atOwner_queue, serial]
    rfl

end Sys2Proof.Machine
end

section
/-! SUPPORT. What follow-on work leaves of a shot that is not its own, and of one that is being deleted (R54 to R59, R152): a relation
that every small operation keeps towards the other shots, and the predicates about the shot itself that survive it. -/

namespace Sys2Proof.Machine

variable {s t u : State} {n m : Nat} {r : Record} {i : SlotId}

/-! ## The parts of follow-on work outside the store, the catalog and the jobs -/

theorem releaseChain_shape (c : List Nat) (s : State) :
    releaseChain c s = { s with fsc := (releaseChain c s).fsc, dve := (releaseChain c s).dve } := by
  unfold releaseChain
  split
  · rfl
  · exact announceSlabs_shape _

theorem releaseChain_crw (c : List Nat) (s : State) : (releaseChain c s).crw = s.crw := by rw [releaseChain_shape]

theorem releaseChain_ptc (c : List Nat) (s : State) : (releaseChain c s).ptc = s.ptc := by rw [releaseChain_shape]

theorem releaseRaw_cases (n : Nat) (s : State) : releaseRaw n s = s
    ∨ ∃ c, releaseRaw n s = releaseChain c (s.updRecord n fun x => { x with raw := none }) := by
  unfold releaseRaw
  split
  · split
    · split
      · exact .inr ⟨_, rfl⟩
      · exact .inl rfl
    · exact .inl rfl
  · exact .inl rfl

theorem releaseProof_cases (n : Nat) (s : State) : releaseProof n s = s
    ∨ ∃ c, releaseProof n s = releaseChain c (s.updRecord n fun x => { x with proof := none, proofState := .none }) := by
  unfold releaseProof
  split
  · split
    · split
      · exact .inr ⟨_, rfl⟩
      · exact .inl rfl
    · exact .inl rfl
  · exact .inl rfl

/-! ## Sparing a shot -/

/-- From `s` to `t` nothing happens to the record of shot n, no card item of it appears, its send items at most leave or are cut, and
what was sent to the body port stands. -/
structure Spares (n : Nat) (s t : State) : Prop where
  record : t.record n = s.record n
  cards : ∀ i, ∀ x ∈ (t.slot i).queue, x.shot = n → x ∈ (s.slot i).queue
  items : ∀ x ∈ t.ttc.queue, x.shot = n → ∃ y ∈ s.ttc.queue, y.shot = n ∧ x.state = y.state ∧ (x.cut = y.cut ∨ x.cut = .delete)
  out : s.ptc.bodyOut ⊆ t.ptc.bodyOut

theorem Spares.refl (n : Nat) (s : State) : Spares n s s :=
  ⟨rfl, fun _ _ hx _ => hx, fun x hx hn => ⟨x, hx, hn, rfl, .inl rfl⟩, List.Subset.refl _⟩

theorem Spares.trans (h : Spares n s t) (k : Spares n t u) : Spares n s u where
  record := k.record.trans h.record
  cards i x hx hn := h.cards i x (k.cards i x hx hn) hn
  items x hx hn := by
    obtain ⟨y, hy, hyn, hs, hc⟩ := k.items x hx hn
    obtain ⟨z, hz, hzn, hs', hc'⟩ := h.items y hy hyn
    exact ⟨z, hz, hzn, hs.trans hs', hc.elim (fun e => e.symm ▸ hc') .inr⟩
  out := fun _ hm => k.out (h.out hm)

/-- Nothing but the store, the jobs and the other blocks changed. -/
theorem Spares.of_eq (hr : t.record n = s.record n) (hc : t.crw = s.crw) (hq : t.ttc.queue = s.ttc.queue)
    (ho : s.ptc.bodyOut ⊆ t.ptc.bodyOut) : Spares n s t where
  record := hr
  cards i x hx _ := by
    have same : t.slot i = s.slot i := by unfold State.slot; rw [hc]
    exact same ▸ hx
  items x hx hn := ⟨x, hq ▸ hx, hn, rfl, .inl rfl⟩
  out := ho

theorem Spares.slot (i : SlotId) {f : Slot → Slot} (hf : ∀ x ∈ (f (s.slot i)).queue, x.shot = n → x ∈ (s.slot i).queue) :
    Spares n s (s.updSlot i f) where
  record := rfl
  cards k x hx hn := by
    by_cases hk : i = k
    · subst hk
      rw [State.updSlot_slot] at hx
      exact hf x hx hn
    · rwa [State.updSlot_slot_ne _ _ hk] at hx
  items x hx hn := ⟨x, hx, hn, rfl, .inl rfl⟩
  out := List.Subset.refl _

/-- A change of a slot that leaves its queue alone. -/
theorem Spares.slotKept (i : SlotId) {f : Slot → Slot} (hf : ∀ x, (f x).queue = x.queue) : Spares n s (s.updSlot i f) :=
  .slot i fun _ hx _ => hf (s.slot i) ▸ hx

theorem Spares.offer (p : Port) (x : Notice) : Spares n s (s.offer p x) :=
  .of_eq rfl rfl rfl (by cases p <;> exact List.Subset.refl _)

theorem Spares.respond (q : Request) (p : Port) (tag : Byte) (x : Result) (b : List Byte) : Spares n s (s.respond q p tag x b) := by
  refine .of_eq rfl rfl rfl ?_
  cases p
  · exact List.subset_append_left _ _
  · exact List.Subset.refl _
  · exact List.Subset.refl _

theorem Spares.updRecord (h : n ≠ m) (f : Record → Record) : Spares n s (s.updRecord m f) :=
  .of_eq (updRecord_record_ne s f h) rfl rfl (List.Subset.refl _)

theorem Spares.setReq (h : n ≠ m) (i : SlotId) (q : Requirement) : Spares n s (s.setReq m i q) := .updRecord h _

theorem Spares.dve (s : State) (f : Dve → Dve) : Spares n s (s.updDve f) := .of_eq rfl rfl rfl (List.Subset.refl _)

theorem Spares.claimFor (j : Job) (s : State) : Spares n s (claimFor j s) := by
  rw [claimFor_shape]
  exact .of_eq rfl rfl rfl (List.Subset.refl _)

theorem Spares.pick (s : State) : Spares n s (pick s) := by
  unfold Machine.pick
  split
  · split
    · exact .dve _ _
    · exact .claimFor _ _
  · exact .refl _ _

theorem Spares.releaseChain (c : List Nat) (s : State) : Spares n s (releaseChain c s) := by
  rw [releaseChain_shape]
  exact .of_eq rfl rfl rfl (List.Subset.refl _)

theorem Spares.releaseRaw (h : n ≠ m) (s : State) : Spares n s (releaseRaw m s) := by
  rcases releaseRaw_cases m s with e | ⟨c, e⟩ <;> rw [e]
  · exact .refl _ _
  · exact (Spares.updRecord h _).trans (.releaseChain _ _)

theorem Spares.releaseProof (h : n ≠ m) (s : State) : Spares n s (releaseProof m s) := by
  rcases releaseProof_cases m s with e | ⟨c, e⟩ <;> rw [e]
  · exact .refl _ _
  · exact (Spares.updRecord h _).trans (.releaseChain _ _)

theorem Spares.dropRecord (h : n ≠ m) : Spares n s (s.dropRecord m) :=
  .of_eq (dropRecord_record_ne s h) rfl rfl (List.Subset.refl _)

theorem Spares.freeRecord (h : n ≠ m) (s : State) : Spares n s (freeRecord m s) := by
  unfold Machine.freeRecord
  split
  · split
    · split
      · exact ((Spares.offer _ _).trans (.dropRecord h)).trans (.respond _ _ _ _ _)
      · exact (Spares.offer _ _).trans (.dropRecord h)
    · exact .refl _ _
  · exact .refl _ _

/-- The test of one record leaves the other shots alone (R57). -/
theorem Spares.testRelease (h : n ≠ m) (s : State) : Spares n s (testRelease m s) :=
  ((Spares.releaseRaw h s).trans (.releaseProof h _)).trans (.freeRecord h _)

/-! ## The card writer (R139, R140, R143, R146) -/

theorem Spares.moveSlot (i : SlotId) (new : SlotState) (s : State) : Spares n s (moveSlot i new s) := by
  have moved : Spares n s (s.updSlot i fun x => { x with state := new }) := .slotKept i fun _ => rfl
  unfold Machine.moveSlot State.offerClass
  dsimp only
  split
  · exact moved
  · split
    · exact moved.trans (.offer _ _)
    · exact moved

theorem Spares.takeBlock (i : SlotId) (b : BlockRequest) (s : State) : Spares n s (takeBlock i b s) := .slotKept i fun _ => rfl

theorem Spares.beginAccess (a : AccessUser) (c : List Nat) (s : State) : Spares n s (beginAccess a c s) :=
  .of_eq rfl rfl rfl (List.Subset.refl _)

theorem Spares.takeChunk (i : SlotId) (w : WritingItem) (s : State) : Spares n s (takeChunk i w s) := by
  unfold Machine.takeChunk
  exact (Spares.beginAccess _ _ _).trans (.slotKept i fun _ => rfl)

theorem Spares.arbitrate (i : SlotId) (s : State) : Spares n s (arbitrate i s) := by
  unfold Machine.arbitrate
  dsimp only
  split
  · exact .refl _ _
  · split
    · split
      · exact .takeChunk _ _ _
      · exact .takeBlock _ _ _
    · exact .takeBlock _ _ _
    · split
      · exact .takeChunk _ _ _
      · exact .refl _ _
    · exact .refl _ _

theorem Spares.tryHead (i : SlotId) (h : ∀ x ∈ (s.slot i).queue, x.shot ≠ n) : Spares n s (tryHead i s) := by
  unfold Machine.tryHead
  dsimp only
  split
  · split
    · split
      · exact .moveSlot _ _ _
      · exact .refl _ _
    · next item rest hq =>
      split
      · refine .trans (.trans (.trans (.slot i fun x hx _ => ?_) (.setReq ?_ _ _)) (.moveSlot _ _ _)) (.arbitrate _ _)
        · rw [hq]
          exact List.mem_cons_of_mem _ hx
        · exact fun e => h item (by simp [hq]) e.symm
      · exact .moveSlot _ _ _
  · exact .refl _ _

theorem Spares.tryIdle (i : SlotId) (h : ∀ x ∈ (s.slot i).queue, x.shot ≠ n) : Spares n s (tryIdle i s) := by
  unfold Machine.tryIdle
  split
  · exact .tryHead i h
  · exact .refl _ _

theorem Spares.queueItem (i : SlotId) {x : CardItem} (h : n ≠ x.shot) : Spares n s (queueItem i x s) := by
  refine Spares.trans (.slot i fun y hy hn => ?_) (.setReq h _ _)
  exact (List.mem_append.mp hy).resolve_right fun hy => h (List.mem_singleton.mp hy ▸ hn.symm)

theorem Spares.migrateItem {x : CardItem} (h : n ≠ x.shot) (s : State) : Spares n s (migrateItem x s) := by
  unfold Machine.migrateItem
  split
  · exact .refl _ _
  · refine .trans ?_ (.testRelease h _)
    split
    · exact (Spares.setReq h _ _).trans (.queueItem _ h)
    · exact .setReq h _ _

theorem Spares.migrateItems {xs : List CardItem} (h : ∀ x ∈ xs, n ≠ x.shot) (s : State) : Spares n s (migrateItems xs s) := by
  induction xs generalizing s with
  | nil => exact .refl _ _
  | cons x xs ih => exact (Spares.migrateItem (h x (by simp)) s).trans (ih (fun y hy => h y (by simp [hy])) _)

theorem Spares.migrateFrom (i : SlotId) (h : ∀ k, ∀ x ∈ (s.slot k).queue, x.shot ≠ n) : Spares n s (migrateFrom i [] s) := by
  unfold Machine.migrateFrom
  split
  · have moved : Spares n s (Machine.migrateItems ([] ++ s.crw.slotA.queue) (s.updSlot .a fun x => { x with queue := [] })) :=
      (Spares.slot .a fun _ hx _ => by cases hx).trans (.migrateItems (fun x hx e => h .a x hx e.symm) _)
    exact moved.trans (.tryIdle .b fun x hx e => h .b x (moved.cards .b x hx e) e)
  · exact .refl _ _

theorem Spares.slotAfterItem (i : SlotId) (h : ∀ k, ∀ x ∈ (s.slot k).queue, x.shot ≠ n) : Spares n s (slotAfterItem i s) := by
  have moved : ∀ new, ∀ k, ∀ x ∈ ((Machine.moveSlot i new s).slot k).queue, x.shot ≠ n := fun new k x hx e =>
    h k x ((Spares.moveSlot i new s).cards k x hx e) e
  unfold Machine.slotAfterItem
  split
  · exact (Spares.moveSlot _ _ _).trans (.migrateFrom i (moved _))
  · exact (Spares.moveSlot _ _ _).trans (.tryHead i (moved _ i))

/-! ## Predicates that follow-on work keeps -/

/-- What of a record the pins, the marks and the proof are not. -/
def Record.standing (r : Record) : RecordState × Option Byte × Bool × Requirement × Requirement × Option (List Nat) :=
  (r.state, r.deleteTag, r.hold, r.reqA, r.reqB, r.raw)

/-- A predicate that survives what spares shot n, the test of its record, and changes of its pins, marks and proof state. -/
structure Robust (n : Nat) (P : State → Prop) : Prop where
  spared : ∀ {s t}, Spares n s t → P s → P t
  tested : ∀ {s}, P s → P (testRelease n s)
  record : ∀ {s} (f : Record → Record), (∀ r, (f r).standing = r.standing) → P s → P (s.updRecord n f)

theorem Robust.and {P Q : State → Prop} (h : Robust n P) (k : Robust n Q) : Robust n fun s => P s ∧ Q s where
  spared e hs := ⟨h.spared e hs.1, k.spared e hs.2⟩
  tested hs := ⟨h.tested hs.1, k.tested hs.2⟩
  record f hf hs := ⟨h.record f hf hs.1, k.record f hf hs.2⟩

theorem Robust.leaveQueue {P : State → Prop} (h : Robust n P) {x : SendItem} (hx : x.shot = n) (m : TetherMark) (hs : P s) :
    P (leaveQueue x m s) := by
  subst hx
  have dropped : Spares x.shot s (s.dropItem x.serial) :=
    ⟨rfl, fun _ _ hy _ => hy, fun y hy hn => ⟨y, (List.mem_filter.mp hy).1, hn, rfl, .inl rfl⟩, List.Subset.refl _⟩
  refine h.record _ (fun r => ?_) (h.record _ (fun r => ?_) (h.spared dropped hs))
  · cases x.content <;> rfl
  · cases x.content <;> rfl

theorem Robust.endDeleted {P : State → Prop} (h : Robust n P) {x : SendItem} (hx : x.shot = n) (hs : P s) : P (endDeleted x s) := by
  have answered : ∀ u : State, Spares n u (answerCancel x u) := fun u => by
    unfold answerCancel
    split
    · exact .respond _ _ _ _ _
    · exact .refl _ _
  unfold Machine.endDeleted
  rw [hx]
  exact h.tested (h.spared ((Spares.offer _ _).trans (answered _)) (h.leaveQueue hx .dropped hs))

theorem Spares.mark (k : Nat) (s : State) : Spares n s (s.updItem k fun x => { x with cut := .delete }) where
  record := rfl
  cards _ _ hx _ := hx
  items x hx hn := by
    rw [updItem_eq s k (f := fun x => { x with cut := .delete }) fun _ => rfl] at hx
    obtain ⟨y, hy, rfl⟩ := List.mem_map.mp hx
    by_cases hk : y.serial = k
    · rw [if_pos hk] at hn ⊢
      exact ⟨y, hy, hn, rfl, .inr rfl⟩
    · rw [if_neg hk] at hn ⊢
      exact ⟨y, hy, hn, rfl, .inl rfl⟩
  out := List.Subset.refl _

/-- The send items of a shot that is being deleted are ended one by one (R59). -/
theorem Robust.deleteItems {P : State → Prop} (h : Robust n P) {l : List SendItem} (hl : ∀ x ∈ l, x.shot = n) (hs : P s) :
    P (deleteItems l s) := by
  induction l generalizing s with
  | nil => exact hs
  | cons x xs ih =>
    have hx := hl x (by simp)
    unfold Machine.deleteItems
    refine ih (fun y hy => hl y (by simp [hy])) ?_
    split
    · exact h.leaveQueue hx _ hs
    · exact h.leaveQueue hx _ hs
    · split
      · split
        · exact h.endDeleted hx hs
        · exact h.spared (.mark _ _) hs
      · exact h.endDeleted hx hs

/-- The shot's job is cancelled (R130). -/
theorem Robust.cancelJob {P : State → Prop} (h : Robust n P) (hs : P s) : P (cancelJob n s) := by
  unfold Machine.cancelJob
  split
  case _ j hj =>
    split
    · exact h.spared (.dve _ _) hs
    · unfold endCancelled
      rw [(job_mem hj).2]
      refine h.spared (.pick _) (h.tested ?_)
      have left : P ((s.dropJob n).updRecord n fun r => { r with proofState := if r.proof.isSome then .done else .none }) :=
        h.record (fun r => { r with proofState := if r.proof.isSome then .done else .none }) (fun _ => rfl) (h.spared (.dve _ _) hs)
      split
      · exact h.spared (.releaseChain _ _) left
      · exact left
  · exact hs

theorem Spares.cutRead (c : ReadStream → Bool) (s : State) : Spares n s (cutRead c s) := by
  unfold Machine.cutRead
  split
  · split
    · exact .of_eq rfl rfl rfl (List.Subset.refl _)
    · exact .refl _ _
  · exact .refl _ _

end Sys2Proof.Machine
end

section
/-! SUPPORT. What a DELETE leaves of its shot (R59, R152): its record DELETING until it goes with the answer, no card item waiting, its
send items cut, its job and its READ stream ending. -/

namespace Sys2Proof.Machine

variable {s t u : State} {n m : Nat} {r : Record} {i k : SlotId} {tag : Byte}

/-! ## The release test and the record -/

theorem testRelease_absent (h : s.record n = none) : testRelease n s = s := by
  have raw : releaseRaw n s = s := by unfold releaseRaw; rw [h]
  have proof : releaseProof n s = s := by unfold releaseProof; rw [h]
  have free : freeRecord n s = s := by unfold freeRecord; rw [h]
  rw [testRelease, raw, proof, free]

section
variable {α : Type} {g : Record → α}

theorem releaseRaw_record (hg : ∀ r : Record, g { r with raw := none } = g r) (hr : s.record n = some r) :
    ∃ x, (releaseRaw n s).record n = some x ∧ g x = g r := by
  rcases releaseRaw_cases n s with e | ⟨c, e⟩ <;> rw [e]
  · exact ⟨r, hr, rfl⟩
  · rw [record_of_cat (releaseChain_cat _ _), updRecord_record_same, hr]
    exact ⟨_, rfl, hg r⟩

theorem releaseProof_record (hg : ∀ r : Record, g { r with proof := none, proofState := .none } = g r) (hr : s.record n = some r) :
    ∃ x, (releaseProof n s).record n = some x ∧ g x = g r := by
  rcases releaseProof_cases n s with e | ⟨c, e⟩ <;> rw [e]
  · exact ⟨r, hr, rfl⟩
  · rw [record_of_cat (releaseChain_cat _ _), updRecord_record_same, hr]
    exact ⟨_, rfl, hg r⟩

/-- The record a release test leaves is the one that stood there, without what was released. -/
theorem testRelease_record (hraw : ∀ r : Record, g { r with raw := none } = g r)
    (hproof : ∀ r : Record, g { r with proof := none, proofState := .none } = g r) (hr : s.record n = some r) {x : Record}
    (hx : (testRelease n s).record n = some x) : g x = g r := by
  obtain ⟨y, hy, ey⟩ := releaseRaw_record hraw hr
  obtain ⟨z, hz, ez⟩ := releaseProof_record hproof hy
  have same : some z = some x := hz.symm.trans (freeRecord_record hx)
  cases same
  exact ez.trans ey

end

/-- A DELETE is answered when the test frees its record (R56, R58). -/
theorem testRelease_answers (hr : s.record n = some r) (ht : r.deleteTag = some tag) (hn : (testRelease n s).record n = none) :
    .response 0x89 tag .ok false [] ∈ (testRelease n s).ptc.bodyOut := by
  obtain ⟨y, hy, ey⟩ := releaseRaw_record (g := Record.deleteTag) (fun _ => rfl) hr
  obtain ⟨z, hz, ez⟩ := releaseProof_record (g := Record.deleteTag) (fun _ => rfl) hy
  unfold testRelease at hn ⊢
  cases hf : z.freeable (releaseProof n (releaseRaw n s)) with
  | false =>
    rw [freeRecord_kept hz hf, hz] at hn
    cases hn
  | true =>
    rw [freeRecord_answered hz hf ((ez.trans ey).trans ht)]
    exact List.mem_append_right _ (List.mem_singleton.mpr rfl)

/-- A raw that is still wanted stays, and the record with it (R54, R56). -/
theorem testRelease_rawStays (hr : s.record n = some r) (hraw : r.raw.isSome = true) (hf : r.rawFree s = false) :
    ∃ x, (testRelease n s).record n = some x ∧ x.standing = r.standing := by
  obtain ⟨x, hx, ex⟩ := releaseProof_record (g := Record.standing) (fun _ => rfl) hr
  have raw : x.raw = r.raw := congrArg (fun p => p.2.2.2.2.2) ex
  unfold testRelease
  rw [releaseRaw_kept hr (.inr hf), freeRecord_kept hx]
  · exact ⟨x, hx, ex⟩
  · rw [Bool.eq_false_iff]
    intro h
    rw [← raw, (freeable_iff.mp h).2.1] at hraw
    cases hraw

theorem releaseRaw_crw (n : Nat) (s : State) : (releaseRaw n s).crw = s.crw := by
  rcases releaseRaw_cases n s with e | ⟨c, e⟩ <;> rw [e]
  exact releaseChain_crw _ _

theorem releaseProof_crw (n : Nat) (s : State) : (releaseProof n s).crw = s.crw := by
  rcases releaseProof_cases n s with e | ⟨c, e⟩ <;> rw [e]
  exact releaseChain_crw _ _

theorem freeRecord_crw (n : Nat) (s : State) : (freeRecord n s).crw = s.crw := by
  unfold freeRecord
  split
  · split
    · split <;> rfl
    · rfl
  · rfl

theorem testRelease_crw (n : Nat) (s : State) : (testRelease n s).crw = s.crw :=
  (freeRecord_crw n _).trans ((releaseProof_crw n _).trans (releaseRaw_crw n s))

theorem testRelease_slot (n : Nat) (s : State) (i : SlotId) : (testRelease n s).slot i = s.slot i := by
  unfold State.slot
  rw [testRelease_crw]

/-! ## What holds of a shot that is being deleted -/

/-- The record is DELETING, or gone and its DELETE answered (R56, R58, R59). -/
def State.Dying (n : Nat) (tag : Byte) (s : State) : Prop :=
  (s.record n = none → .response 0x89 tag .ok false [] ∈ s.ptc.bodyOut)
    ∧ ∀ r, s.record n = some r → r.state = .deleting ∧ r.deleteTag = some tag ∧ r.hold = false

/-- A card item of the shot waits in a slot only while the slot's requirement is QUEUED and the raw is there. -/
def State.Claimed (n : Nat) (i : SlotId) (s : State) : Prop :=
  ∀ x ∈ (s.slot i).queue, x.shot = n → ∃ r, s.record n = some r ∧ r.req i = .queued ∧ r.raw.isSome = true

/-- No card item of the shot waits in a slot, and the requirement neither waits nor asks for a retry (R152). -/
def State.Bare (n : Nat) (i : SlotId) (s : State) : Prop :=
  (∀ x ∈ (s.slot i).queue, x.shot ≠ n) ∧ ∀ r, s.record n = some r → r.req i ≠ .queued ∧ r.req i ≠ .failed

/-- The send items of the shot are those that stream, cut (R59 step 3). -/
def State.ItemsCut (n : Nat) (s : State) : Prop := ∀ x ∈ s.ttc.queue, x.shot = n → x.state = .sending ∧ x.cut = .delete

theorem standing_req (i : SlotId) {x : Record} (h : x.standing = r.standing) : x.req i = r.req i := by
  cases i
  · exact congrArg (fun p => p.2.2.2.1) h
  · exact congrArg (fun p => p.2.2.2.2.1) h

theorem robust_dying (n : Nat) (tag : Byte) : Robust n (State.Dying n tag) where
  spared e h := ⟨fun hn => e.out (h.1 (e.record ▸ hn)), fun r hr => h.2 r (e.record ▸ hr)⟩
  tested := by
    intro s h
    cases hr : s.record n with
    | none => rwa [testRelease_absent hr]
    | some r =>
      obtain ⟨hst, ht, hh⟩ := h.2 r hr
      refine ⟨testRelease_answers hr ht, fun x hx => ?_⟩
      exact ⟨(testRelease_record (g := Record.state) (fun _ => rfl) (fun _ => rfl) hr hx).trans hst,
        (testRelease_record (g := Record.deleteTag) (fun _ => rfl) (fun _ => rfl) hr hx).trans ht,
        (testRelease_record (g := Record.hold) (fun _ => rfl) (fun _ => rfl) hr hx).trans hh⟩
  record := by
    intro s f hf h
    refine ⟨fun hn => h.1 ?_, fun x hx => ?_⟩
    · rw [updRecord_record_same] at hn
      exact Option.map_eq_none_iff.mp hn
    · rw [updRecord_record_same] at hx
      obtain ⟨r, hr, rfl⟩ := Option.map_eq_some_iff.mp hx
      obtain ⟨hst, ht, hh⟩ := h.2 r hr
      exact ⟨(congrArg (fun p => p.1) (hf r)).trans hst, (congrArg (fun p => p.2.1) (hf r)).trans ht,
        (congrArg (fun p => p.2.2.1) (hf r)).trans hh⟩

theorem robust_claimed (n : Nat) (i : SlotId) : Robust n (State.Claimed n i) where
  spared e h x hx hn := e.record ▸ h x (e.cards i x hx hn) hn
  tested := by
    intro s h x hx hn
    rw [testRelease_slot] at hx
    obtain ⟨r, hr, hq, hraw⟩ := h x hx hn
    have wanted : r.reqA.settled = false ∨ r.reqB.settled = false := by
      cases i
      · exact .inl (congrArg Requirement.settled hq)
      · exact .inr (congrArg Requirement.settled hq)
    obtain ⟨y, hy, ey⟩ := testRelease_rawStays hr hraw (rawFree_wanted (.inr (wanted.imp id .inl)))
    exact ⟨y, hy, (standing_req i ey).trans hq, (congrArg (fun p => p.2.2.2.2.2.isSome) ey).trans hraw⟩
  record := by
    intro s f hf h x hx hn
    obtain ⟨r, hr, hq, hraw⟩ := h x hx hn
    refine ⟨r.updated f, by rw [updRecord_record_same, hr]; rfl, ?_, (congrArg (fun p => p.2.2.2.2.2.isSome) (hf r)).trans hraw⟩
    exact (standing_req i (x := r.updated f) (hf r)).trans hq

theorem robust_bare (n : Nat) (i : SlotId) : Robust n (State.Bare n i) where
  spared e h := ⟨fun x hx hn => h.1 x (e.cards i x hx hn) hn, fun r hr => h.2 r (e.record ▸ hr)⟩
  tested := by
    intro s h
    refine ⟨fun x hx => h.1 x (testRelease_slot n s i ▸ hx), fun x hx => ?_⟩
    cases hr : s.record n with
    | none => rw [testRelease_absent hr, hr] at hx; cases hx
    | some r =>
      have same : x.req i = r.req i :=
        testRelease_record (g := fun x => x.req i) (fun _ => by cases i <;> rfl) (fun _ => by cases i <;> rfl) hr hx
      exact same ▸ h.2 r hr
  record := by
    intro s f hf h
    refine ⟨h.1, fun x hx => ?_⟩
    rw [updRecord_record_same] at hx
    obtain ⟨r, hr, rfl⟩ := Option.map_eq_some_iff.mp hx
    exact (standing_req i (x := r.updated f) (hf r)).symm ▸ h.2 r hr

theorem robust_itemsCut (n : Nat) : Robust n (State.ItemsCut n) where
  spared e h x hx hn := by
    obtain ⟨y, hy, hyn, hs, hc⟩ := e.items x hx hn
    obtain ⟨hst, hcut⟩ := h y hy hyn
    exact ⟨hs.trans hst, hc.elim (fun e => e.trans hcut) id⟩
  tested h x hx hn := h x (testRelease_ttc _ _ ▸ hx) hn
  record _ _ h := h

/-! ## The steps of R59 -/

theorem deleteItems_one_queue (x : SendItem) (s : State) :
    (deleteItems [x] s).ttc.queue = s.ttc.queue.filter (fun y => y.serial != x.serial)
      ∨ (deleteItems [x] s).ttc.queue = (s.updItem x.serial fun y => { y with cut := .delete }).ttc.queue := by
  unfold deleteItems
  rw [deleteItems]
  split
  · exact .inl rfl
  · exact .inl rfl
  · split
    · split
      · exact .inl (endDeleted_queue _ _)
      · exact .inr rfl
    · exact .inl (endDeleted_queue _ _)

theorem deleteItems_cons (z : SendItem) (l : List SendItem) (s : State) :
    deleteItems (z :: l) s = deleteItems l (deleteItems [z] s) := by
  conv_rhs => rw [deleteItems, deleteItems]
  rw [deleteItems]

/-- What is left of the queue: items of other serials, and cut ones (R59, R173). -/
theorem deleteItems_left (l : List SendItem) (s : State) {x : SendItem} (hx : x ∈ (deleteItems l s).ttc.queue) :
    ∃ y ∈ s.ttc.queue, (x = y ∧ ∀ z ∈ l, x.serial ≠ z.serial) ∨ x = { y with cut := .delete } := by
  induction l generalizing s with
  | nil => exact ⟨x, hx, .inl ⟨rfl, by simp⟩⟩
  | cons z l ih =>
    have step : ∀ y ∈ (deleteItems [z] s).ttc.queue,
        ∃ y' ∈ s.ttc.queue, (y = y' ∧ y.serial ≠ z.serial) ∨ y = { y' with cut := .delete } := by
      intro y hy
      rcases deleteItems_one_queue z s with e | e <;> rw [e] at hy
      · obtain ⟨hy, hz⟩ := List.mem_filter.mp hy
        exact ⟨y, hy, .inl ⟨rfl, by simpa using hz⟩⟩
      · rw [updItem_eq s z.serial (f := fun y => { y with cut := .delete }) fun _ => rfl] at hy
        obtain ⟨y', hy', rfl⟩ := List.mem_map.mp hy
        refine ⟨y', hy', ?_⟩
        split
        · exact .inr rfl
        next h => exact .inl ⟨rfl, h⟩
    rw [deleteItems_cons] at hx
    obtain ⟨y, hy, h⟩ := ih (deleteItems [z] s) hx
    obtain ⟨y', hy', h'⟩ := step y hy
    refine ⟨y', hy', ?_⟩
    rcases h with ⟨rfl, hl⟩ | rfl
    · rcases h' with ⟨rfl, hz⟩ | rfl
      · exact .inl ⟨rfl, List.forall_mem_cons.mpr ⟨hz, hl⟩⟩
      · exact .inr rfl
    · rcases h' with ⟨rfl, -⟩ | rfl <;> exact .inr rfl

/-- Steps 2 and 3 of R59: the send items of the shot. -/
def endItems (n : Nat) (s : State) : State :=
  let mine := s.ttc.queue.filter fun i => i.shot == n
  deleteItems (mine.filter fun i => i.state == .sending) (deleteItems (mine.filter fun i => i.state != .sending) s)

/-- The steps of R59 up to the one that cancels the job. -/
def State.cleared (n : Nat) (tag : Byte) (s : State) : State :=
  abortWriting .b n (abortWriting .a n (waiveDeleted .b n (waiveDeleted .a n (endItems n (s.updRecord n (Record.doomed tag))))))

theorem beginDeleting_eq (n : Nat) (tag : Byte) (s : State) : beginDeleting n tag s
    = testRelease n (cutRead (fun x => x.shot == n) (cancelJob n (s.cleared n tag))) := rfl

theorem mem_mine {x : SendItem} (hx : x ∈ s.ttc.queue.filter fun i => i.shot == n) : x.shot = n := by
  simpa using (List.mem_filter.mp hx).2

theorem Robust.endItems {P : State → Prop} (h : Robust n P) (hs : P s) : P (endItems n s) :=
  h.deleteItems (fun _ hx => mem_mine (List.mem_filter.mp hx).1)
    (h.deleteItems (fun _ hx => mem_mine (List.mem_filter.mp hx).1) hs)

theorem endItems_cut (n : Nat) (s : State) : (endItems n s).ItemsCut n := by
  intro x hx hn
  obtain ⟨y, hy, h⟩ := deleteItems_left _ _ hx
  have waiting : ∀ z ∈ s.ttc.queue, z.shot = n → z.state ≠ .sending →
      ∀ z' ∈ (deleteItems ((s.ttc.queue.filter fun i => i.shot == n).filter fun i => i.state != .sending) s).ttc.queue,
        z'.serial ≠ z.serial := by
    intro z hz hzn hst z' hz'
    have sent : ∀ i ∈ (s.ttc.queue.filter fun i => i.shot == n).filter fun i => i.state != .sending, i.state ≠ .sending :=
      fun i hi => by simpa using (List.mem_filter.mp hi).2
    refine ((mem_deleteItems sent).mp hz').2 z ?_
    simp [hz, hzn, hst]
  have old : y ∈ s.ttc.queue := ((mem_deleteItems fun i hi => by simpa using (List.mem_filter.mp hi).2).mp hy).1
  have yn : y.shot = n := by rcases h with ⟨rfl, -⟩ | rfl <;> exact hn
  have sending : y.state = .sending := by
    by_contra hst
    exact waiting y old yn hst y hy rfl
  rcases h with ⟨rfl, hl⟩ | rfl
  · exact absurd rfl (hl x (by simp [old, hn, sending]))
  · exact ⟨sending, rfl⟩

/-- The slot without the queued items of a shot (R152). -/
def State.unqueued (i : SlotId) (n : Nat) (s : State) : State :=
  s.updSlot i fun x => { x with queue := x.queue.filter fun y => y.shot != n }

theorem unqueued_left (i : SlotId) (n : Nat) (s : State) : ∀ x ∈ ((s.unqueued i n).slot i).queue, x.shot ≠ n := by
  intro x hx
  unfold State.unqueued at hx
  rw [State.updSlot_slot] at hx
  simpa using (List.mem_filter.mp hx).2

theorem spares_unqueued (i : SlotId) (n : Nat) (s : State) : Spares n s (s.unqueued i n) :=
  .slot i fun _ hx _ => (List.mem_filter.mp hx).1

theorem removeQueued_spares (i : SlotId) (n : Nat) (s : State) : Spares n (s.unqueued i n) (removeQueued i n s) := by
  have tried : ∀ b : Bool, Spares n (s.unqueued i n) (if b = true then tryHead i (s.unqueued i n) else s.unqueued i n) := by
    intro b
    split
    · exact .tryHead i (unqueued_left i n s)
    · exact .refl _ _
  exact tried _

/-- Step 4 of R59 keeps what survives a waiver of the slot's requirement. -/
theorem Robust.waiveDeleted {P : State → Prop} (h : Robust n P) (hw : ∀ s, P s → P (s.setReq n i .waived)) (hs : P s) :
    P (waiveDeleted i n s) := by
  unfold Machine.waiveDeleted
  split
  · split
    · exact h.spared ((spares_unqueued _ _ _).trans (removeQueued_spares _ _ _)) (hw s hs)
    · exact hw s hs
    · exact hs
  · exact hs

theorem setReq_record (h : s.record n = some r) (i : SlotId) (q : Requirement) :
    ∃ x, (s.setReq n i q).record n = some x ∧ x.req i = q := by
  rw [setReq_eq, updRecord_record_same, h]
  exact ⟨_, rfl, Record.withReq_same i q r⟩

/-- After step 4 of R59 the shot is not in the slot's queue (R152). -/
theorem waiveDeleted_bare (hc : s.Claimed n i) : (waiveDeleted i n s).Bare n i := by
  have absent : (∀ r, s.record n = some r → r.req i ≠ .queued) → ∀ x ∈ (s.slot i).queue, x.shot ≠ n := by
    intro hq x hx hn
    obtain ⟨r, hr, hreq, -⟩ := hc x hx hn
    exact hq r hr hreq
  have waived : ∀ {r} (_ : s.record n = some r) {t : State}, t.record n = (s.setReq n i .waived).record n →
      ∀ x, t.record n = some x → x.req i ≠ .queued ∧ x.req i ≠ .failed := by
    intro r hr t ht x hx
    obtain ⟨y, hy, hq⟩ := setReq_record hr i .waived
    rw [ht, hy] at hx
    cases hx
    rw [hq]
    decide
  unfold waiveDeleted
  cases hr : s.record n with
  | none => exact ⟨absent fun r h => by (rw [hr] at h; cases h), fun r h => by rw [hr] at h; cases h⟩
  | some r =>
    dsimp only
    split
    · have moved := removeQueued_spares i n (s.setReq n i .waived)
      exact ⟨fun x hx hn => unqueued_left i n _ x (moved.cards i x hx hn) hn,
        waived hr (moved.record.trans (spares_unqueued i n _).record)⟩
    next hq =>
      refine ⟨fun x hx => absent (fun y hy => ?_) x (by cases i <;> exact hx), waived hr rfl⟩
      rw [hr] at hy
      cases hy
      rw [hq]
      decide
    next hq hf =>
      refine ⟨absent fun y hy => ?_, fun y hy => ?_⟩ <;> (rw [hr] at hy; cases hy)
      · exact hq
      · exact ⟨hq, hf⟩

/-- Step 5 of R59 keeps what survives a waiver and shuts the shot out of the queues. -/
theorem Robust.abortWriting {P : State → Prop} (h : Robust n P) (hw : ∀ s, P s → P (s.setReq n i .waived))
    (hq : ∀ s, P s → ∀ k, ∀ x ∈ (s.slot k).queue, x.shot ≠ n) (hs : P s) : P (abortWriting i n s) := by
  unfold Machine.abortWriting
  split
  next w hwr =>
    split
    next hn =>
      have hn : w.item.shot = n := by simpa using hn
      split
      · exact h.spared (.slotKept i fun _ => rfl) hs
      · have ended : P (endItem i w .aborted s) := by
          rw [endItem_eq, hn]
          exact h.tested (hw _ (h.spared (.offer _ _) (h.spared (.slotKept i fun _ => rfl) hs)))
        exact h.spared ((Spares.slotAfterItem i (hq _ ended)).trans (.arbitrate _ _)) ended
    · exact hs
  · exact hs

/-! ## The predicates through a waiver -/

theorem dying_waived (h : s.Dying n tag) (i : SlotId) : (s.setReq n i .waived).Dying n tag := by
  rw [setReq_eq]
  refine ⟨fun hn => h.1 ?_, fun x hx => ?_⟩
  · rw [updRecord_record_same] at hn
    exact Option.map_eq_none_iff.mp hn
  · rw [updRecord_record_same] at hx
    obtain ⟨r, hr, rfl⟩ := Option.map_eq_some_iff.mp hx
    cases i <;> exact h.2 r hr

theorem claimed_waived (h : s.Claimed n k) (hk : k ≠ i) : (s.setReq n i .waived).Claimed n k := by
  intro x hx hn
  obtain ⟨r, hr, hq, hraw⟩ := h x (by cases k <;> exact hx) hn
  rw [setReq_eq, updRecord_record_same, hr]
  refine ⟨r.withReq i .waived, ?_, (Record.withReq_ne hk .waived r).trans hq, ?_⟩
  · cases i <;> rfl
  · cases i <;> exact hraw

theorem bare_waived (h : s.Bare n k) (i : SlotId) : (s.setReq n i .waived).Bare n k := by
  refine ⟨fun x hx => h.1 x (by cases k <;> exact hx), fun x hx => ?_⟩
  rw [setReq_eq, updRecord_record_same] at hx
  obtain ⟨r, hr, rfl⟩ := Option.map_eq_some_iff.mp hx
  have same : r.updated (Record.withReq i .waived) = r.withReq i .waived := by cases i <;> rfl
  rw [same]
  by_cases hk : k = i
  · rw [hk, Record.withReq_same]
    decide
  · rw [Record.withReq_ne hk]
    exact h.2 r hr

/-! ## The shot's job and its READ stream -/

theorem find_meets {α : Type} {p q : α → Bool} {l : List α} {a b : α} (ha : l.find? p = some a) (hb : l.find? q = some b)
    (hp : p b = true) (hq : q a = true) : a = b := by
  induction l with
  | nil => cases ha
  | cons x xs ih =>
    rw [List.find?_cons] at ha hb
    cases hpx : p x <;> cases hqx : q x <;> simp_all

theorem updJob_job_ne (h : m ≠ n) (f : Job → Job) (s : State) : (s.updJob m f).job n = s.job n := by
  unfold State.job State.updJob State.updDve
  rw [List.find?_map]
  have key : ((fun j : Job => j.shot == n) ∘ fun j => if j.shot == m then { f j with shot := j.shot, number := j.number } else j)
      = fun j => j.shot == n := by
    funext j
    simp only [Function.comp]
    split <;> rfl
  rw [key]
  cases hj : s.dve.jobs.find? fun j => j.shot == n with
  | none => rfl
  | some j =>
    have hn : j.shot = n := by simpa using List.find?_some hj
    rw [Option.map_some, if_neg (by simpa [hn] using h.symm)]

theorem updJob_job_same (f : Job → Job) (s : State) :
    (s.updJob n f).job n = (s.job n).map fun j => { f j with shot := j.shot, number := j.number } := by
  unfold State.job State.updJob State.updDve
  rw [List.find?_map]
  have key : ((fun j : Job => j.shot == n) ∘ fun j => if j.shot == n then { f j with shot := j.shot, number := j.number } else j)
      = fun j => j.shot == n := by
    funext j
    simp only [Function.comp]
    split <;> rfl
  rw [key]
  cases hj : s.dve.jobs.find? fun j => j.shot == n with
  | none => rfl
  | some j => rw [Option.map_some, if_pos (List.find?_some hj), Option.map_some]

theorem claimFor_job_ne {j : Job} (h : j.shot ≠ n) (s : State) : (claimFor j s).job n = s.job n := by
  unfold claimFor
  split
  next c t hc =>
    rw [updJob_job_ne h]
    unfold claimDevelop at hc
    split at hc
    · cases hc
      rfl
    · cases hc
  · exact updJob_job_ne h _ _

/-- An announcement leaves a RUNNING job, or no job, of a shot as it is (R11, R118). -/
theorem announceSlabs_job (h : ∀ j, s.job n = some j → j.state = .running) : (announceSlabs s).job n = s.job n := by
  unfold announceSlabs
  split
  next c hc =>
    split
    next hw =>
      refine claimFor_job_ne (fun hn => ?_) s
      cases hj : s.job n with
      | none => exact job_none.mp hj c (currentJob_some hc).1 hn
      | some j =>
        have run := h j hj
        have same : c = j := find_meets hc hj (by rw [run]; rfl) (by simpa using hn)
        rw [same, run] at hw
        cases hw
    · rfl
  · rfl

theorem releaseChain_job (h : ∀ j, s.job n = some j → j.state = .running) (c : List Nat) : (releaseChain c s).job n = s.job n := by
  unfold releaseChain
  split
  · rfl
  · exact announceSlabs_job (s := s.updFsc _) h

theorem freeRecord_job (m : Nat) (s : State) : (freeRecord m s).job n = s.job n := by
  unfold freeRecord
  split
  · split
    · split <;> rfl
    · rfl
  · rfl

theorem testRelease_job (h : ∀ j, s.job n = some j → j.state = .running) (m : Nat) : (testRelease m s).job n = s.job n := by
  have raw : (releaseRaw m s).job n = s.job n := by
    rcases releaseRaw_cases m s with e | ⟨c, e⟩ <;> rw [e]
    exact releaseChain_job (s := s.updRecord m _) h c
  have proof : (releaseProof m (releaseRaw m s)).job n = s.job n := by
    rcases releaseProof_cases m (releaseRaw m s) with e | ⟨c, e⟩ <;> rw [e]
    · exact raw
    · exact (releaseChain_job (s := (releaseRaw m s).updRecord m _) (fun j hj => h j (raw ▸ hj)) c).trans raw
  exact (freeRecord_job m _).trans proof

theorem releaseChain_noJob (h : s.job n = none) (c : List Nat) : (releaseChain c s).job n = none :=
  (releaseChain_job (fun j hj => by rw [h] at hj; cases hj) c).trans h

theorem testRelease_noJob (h : s.job n = none) (m : Nat) : (testRelease m s).job n = none :=
  (testRelease_job (fun j hj => by rw [h] at hj; cases hj) m).trans h

theorem dropJob_job (n : Nat) (s : State) : (s.dropJob n).job n = none :=
  job_none.mpr fun j hj => by simpa using (List.mem_filter.mp hj).2

theorem pick_job (h : s.job n = none) : (pick s).job n = none := by
  have others := job_none.mp h
  have mem : ∀ {a b : Option Job} {j}, a.or b = some j → a = some j ∨ b = some j := by
    intro a b j hj
    cases a with
    | none => exact .inr hj
    | some _ => exact .inl hj
  have oldest : ∀ {st c j}, s.oldestJob st c = some j → j.shot ≠ n := fun hj => others _ (List.mem_of_find?_eq_some hj)
  have picked : ∀ j, s.nextPick = some j → j.shot ≠ n := by
    intro j hj
    unfold State.nextPick at hj
    dsimp only at hj
    split at hj
    · cases hj
    · exact (mem hj).elim oldest oldest
    · exact (mem hj).elim (fun hj => (mem hj).elim (fun hj => (mem hj).elim oldest oldest) oldest) oldest
  unfold pick
  split
  next hj =>
    split
    · exact (updJob_job_ne (picked _ hj) _ _).trans h
    · exact (claimFor_job_ne (picked _ hj) _).trans h
  · exact h

/-- A cancelled job of a shot is gone, or RUNNING and marked (R130). -/
theorem cancelJob_job (n : Nat) (s : State) : ∀ j, (cancelJob n s).job n = some j → j.state = .running ∧ j.cancel = true := by
  unfold cancelJob
  split
  next j hj =>
    split
    next hrun =>
      intro x hx
      rw [updJob_job_same, hj] at hx
      cases hx
      exact ⟨by simpa using hrun, rfl⟩
    · intro x hx
      have dropped : ∀ f, ((s.dropJob n).updRecord n f).job n = none := fun f => dropJob_job n s
      have none : (endCancelled j s).job n = none := by
        unfold endCancelled
        rw [(job_mem hj).2]
        refine pick_job (testRelease_noJob ?_ n)
        split
        · exact releaseChain_noJob (dropped _) _
        · exact dropped _
      rw [none] at hx
      cases hx
  next hj => exact fun x hx => by rw [hj] at hx; cases hx

theorem testRelease_read (n : Nat) (s : State) : (testRelease n s).ptc.read = s.ptc.read := by
  have raw : (releaseRaw n s).ptc = s.ptc := by
    rcases releaseRaw_cases n s with e | ⟨c, e⟩ <;> rw [e]
    exact releaseChain_ptc _ _
  have proof : (releaseProof n (releaseRaw n s)).ptc = s.ptc := by
    rcases releaseProof_cases n (releaseRaw n s) with e | ⟨c, e⟩ <;> rw [e]
    · exact raw
    · exact (releaseChain_ptc _ _).trans raw
  have free : ∀ u : State, (freeRecord n u).ptc.read = u.ptc.read := fun u => by
    unfold freeRecord
    split
    · split
      · split <;> rfl
      · rfl
    · rfl
  exact (free _).trans (congrArg Ptc.read proof)

theorem cutRead_cut (n : Nat) (s : State) : ∀ x, (cutRead (fun x => x.shot == n) s).ptc.read = some x → x.shot = n → x.cut = true := by
  unfold cutRead
  split
  next y hy =>
    split
    · intro x hx _
      cases hx
      rfl
    next hn =>
      intro x hx e
      rw [hy] at hx
      cases hx
      exact absurd (beq_iff_eq.mpr e) hn
  next hn => exact fun x hx => by rw [hn] at hx; cases hx

theorem cutRead_job (c : ReadStream → Bool) (s : State) : (cutRead c s).job n = s.job n := by
  unfold cutRead
  split
  · split <;> rfl
  · rfl

/-! ## What a DELETE leaves -/

/-- What is left of a shot once its DELETE has begun (R59, R152). -/
structure State.Deleted (n : Nat) (tag : Byte) (t : State) : Prop where
  dying : t.Dying n tag
  bare : ∀ i, t.Bare n i
  items : t.ItemsCut n
  job : ∀ j, t.job n = some j → j.state = .running ∧ j.cancel = true
  read : ∀ x, t.ptc.read = some x → x.shot = n → x.cut = true

theorem updRecord_doomed_claimed (hc : s.Claimed n i) : (s.updRecord n (Record.doomed tag)).Claimed n i := by
  intro x hx hn
  obtain ⟨r, hr, hq, hraw⟩ := hc x hx hn
  refine ⟨r.updated (Record.doomed tag), by rw [updRecord_record_same, hr]; rfl, ?_, hraw⟩
  cases i <;> exact hq

/-- The predicates that hold once the card writer has let the shot go (R59 steps 1 to 5). -/
theorem cleared_leaves (hr : s.record n = some r) (hc : ∀ i, s.Claimed n i) :
    (s.cleared n tag).Dying n tag ∧ (s.cleared n tag).Bare n .a ∧ (s.cleared n tag).Bare n .b ∧ (s.cleared n tag).ItemsCut n := by
  have dying := robust_dying n tag
  have items := robust_itemsCut n
  have begun : (s.updRecord n (Record.doomed tag)).Dying n tag := by
    refine ⟨fun hn => ?_, fun x hx => ?_⟩ <;> rw [updRecord_record_same, hr] at *
    · cases hn
    · cases hx
      exact ⟨rfl, rfl, rfl⟩
  have ended := (dying.and ((robust_claimed n .a).and (robust_claimed n .b))).endItems
    ⟨begun, updRecord_doomed_claimed (hc .a), updRecord_doomed_claimed (hc .b)⟩
  obtain ⟨d, ca, cb⟩ := ended
  have waivedA := (dying.and ((robust_claimed n .b).and items)).waiveDeleted (i := .a)
    (fun u hu => ⟨dying_waived hu.1 _, claimed_waived hu.2.1 (by decide), hu.2.2⟩) ⟨d, cb, endItems_cut _ _⟩
  have bareA := waiveDeleted_bare ca
  obtain ⟨d, cb, it⟩ := waivedA
  have waivedB := (dying.and ((robust_bare n .a).and items)).waiveDeleted (i := .b)
    (fun u hu => ⟨dying_waived hu.1 _, bare_waived hu.2.1 _, hu.2.2⟩) ⟨d, bareA, it⟩
  have bareB := waiveDeleted_bare cb
  obtain ⟨d, bareA, it⟩ := waivedB
  have all := dying.and ((robust_bare n .a).and ((robust_bare n .b).and items))
  have waives : ∀ i, ∀ u : State, (u.Dying n tag ∧ u.Bare n .a ∧ u.Bare n .b ∧ u.ItemsCut n) →
      ((u.setReq n i .waived).Dying n tag ∧ (u.setReq n i .waived).Bare n .a ∧ (u.setReq n i .waived).Bare n .b
        ∧ (u.setReq n i .waived).ItemsCut n) :=
    fun i u ⟨d, a, b, it⟩ => ⟨dying_waived d _, bare_waived a _, bare_waived b _, it⟩
  have queues : ∀ u : State, (u.Dying n tag ∧ u.Bare n .a ∧ u.Bare n .b ∧ u.ItemsCut n) →
      ∀ k, ∀ x ∈ (u.slot k).queue, x.shot ≠ n := fun u ⟨_, a, b, _⟩ k => by
    cases k
    · exact a.1
    · exact b.1
  exact all.abortWriting (waives .b) queues (all.abortWriting (waives .a) queues ⟨d, bareA, bareB, it⟩)

theorem beginDeleting_leaves (hr : s.record n = some r) (hc : ∀ i, s.Claimed n i) : (beginDeleting n tag s).Deleted n tag := by
  have all := (robust_dying n tag).and ((robust_bare n .a).and ((robust_bare n .b).and (robust_itemsCut n)))
  obtain ⟨d, a, b, it⟩ := all.tested (all.spared (.cutRead (fun x => x.shot == n) _) (all.cancelJob (cleared_leaves (tag := tag) hr hc)))
  have job : ∀ j, (cutRead (fun x => x.shot == n) (cancelJob n (s.cleared n tag))).job n = some j → j.state = .running ∧ j.cancel = true :=
    fun j hj => cancelJob_job n (s.cleared n tag) j ((cutRead_job _ _).symm.trans hj)
  rw [beginDeleting_eq]
  refine ⟨d, fun i => by cases i <;> [exact a; exact b], it, fun j hj => ?_, fun x hx => ?_⟩
  · rw [testRelease_job fun j hj => (job j hj).1] at hj
    exact job j hj
  · rw [testRelease_read] at hx
    exact cutRead_cut _ _ x hx

end Sys2Proof.Machine
end

section
/-! SUPPORT. DELETE by its cases (R58, R59), the end of an aborted card item (R152), and what no follow-on work touches. -/

namespace Sys2Proof.Machine

variable {s t u : State} {n m : Nat} {r : Record} {i k : SlotId} {tag : Byte} {c : List Nat}

/-! ## Follow-on work -/

/-- A cascade leaves the develop settings and tables, the slot policy and the card-detect lines alone. -/
theorem Cascade.policy (h : Cascade s t) :
    t.dve.settings = s.dve.settings ∧ t.dve.auto = s.dve.auto ∧ t.dve.tones = s.dve.tones
      ∧ t.crw.contentA = s.crw.contentA ∧ t.crw.contentB = s.crw.contentB ∧ t.crw.overflow = s.crw.overflow
      ∧ t.crw.stallLimit = s.crw.stallLimit ∧ ∀ i, (t.slot i).detect = (s.slot i).detect := by
  induction h with
  | refl => simp
  | @tail t u _ p ih =>
    obtain ⟨a, b, c, d, e, o, g, hd⟩ := ih
    cases p with
    | dve f h =>
      obtain ⟨a', b', c'⟩ := h t.dve
      exact ⟨a'.trans a, b'.trans b, c'.trans c, d, e, o, g, fun k => (by cases k <;> rfl : _ = (t.slot k).detect).trans (hd k)⟩
    | slot i f h =>
      refine ⟨a, b, c, ?_, ?_, ?_, ?_, fun k => ?_⟩
      · cases i <;> exact d
      · cases i <;> exact e
      · cases i <;> exact o
      · cases i <;> exact g
      · by_cases hk : i = k
        · subst hk
          rw [State.updSlot_slot, h]
          exact hd i
        · rw [State.updSlot_slot_ne _ _ hk]
          exact hd k
    | _ => exact ⟨a, b, c, d, e, o, g, fun k => (by cases k <;> rfl : _ = (t.slot k).detect).trans (hd k)⟩

theorem Cascade.followOnKeeps (h : Cascade s t) : State.followOnKeeps s t := by
  obtain ⟨pending, dram, siu, fe, thm⟩ := h.frame
  obtain ⟨configured, slabCount, mode, reserve⟩ := h.store
  obtain ⟨attached, silence, rules, errors, threshold, armed, policy, silenceLimit⟩ := h.session
  obtain ⟨timeBase, enables, lensQueue, lensOut, nextShot, clipLevel, pressureYield⟩ := h.ports
  obtain ⟨settings, auto, tones, contentA, contentB, overflow, stallLimit, detect⟩ := h.policy
  exact ⟨pending, dram, siu, fe, thm, configured, slabCount, mode, reserve, nextShot, clipLevel, pressureYield, settings, auto, tones,
    attached, silence, silenceLimit, policy, rules, errors, threshold, armed, contentA, contentB, overflow, stallLimit, detect, timeBase,
    enables, lensQueue, lensOut⟩

/-! ## DELETE at its owner (R58) -/

theorem exec_delete {h : Header} {m : Word} (hr : reachesOwner (.delete h m) h s) :
    exec (.delete h m) s = .next (ownDelete h m.toNat s) := exec_bodyRequest hr rfl rfl

theorem ownDelete_none (h : Header) (hr : s.record n = none) : ownDelete h n s = s.refused .delete h .notFound := by
  unfold ownDelete
  rw [hr]
  rfl

theorem ownDelete_deleting (h : Header) (hr : s.record n = some r) (hst : r.state = .deleting) :
    ownDelete h n s = s.refused .delete h .busy := by
  unfold ownDelete
  rw [hr]
  dsimp only
  rw [hst]
  rfl

theorem ownDelete_exposing (h : Header) (hr : s.record n = some r) (hst : r.state = .exposing) :
    ownDelete h n s = s.refused .delete h .notReady := by
  unfold ownDelete
  rw [hr]
  dsimp only
  rw [hst]
  rfl

theorem ownDelete_guarded (h : Header) (hr : s.record n = some r) (hst : r.state = .provisional ∨ r.state = .stored)
    (hg : r.guarded = true) : ownDelete h n s = s.refused .delete h .protectedShot := by
  unfold ownDelete
  rw [hr]
  dsimp only
  rcases hst with hst | hst <;> rw [hst] <;> exact if_pos hg

theorem ownDelete_provisional (h : Header) (hr : s.record n = some r) (hst : r.state = .provisional) (hg : r.guarded = false) :
    ownDelete h n s = (removeRecord n s).answered .delete h [] := by
  have discard : discardMember n s = removeRecord n s := by
    unfold discardMember
    rw [hr]
    exact if_pos (by rw [hst]; rfl)
  unfold ownDelete
  rw [hr]
  dsimp only
  rw [hst]
  dsimp only
  rw [if_neg (by rw [hg]; decide), discard]
  rfl

theorem ownDelete_stored (h : Header) (hr : s.record n = some r) (hst : r.state = .stored) (hg : r.guarded = false) :
    ownDelete h n s = beginDeleting n h.tag s := by
  unfold ownDelete
  rw [hr]
  dsimp only
  rw [hst]
  exact if_neg (by rw [hg]; decide)

/-- A raw goes with its record, back to the store or to its last access (R10, R49). -/
theorem removeRecord_given (hr : s.record n = some r) (hc : r.raw = some c) (hj : s.job n = none)
    (h : s.chainInUse c = true ∨ ∀ j, s.currentJob = some j → j.state = .running) :
    removeRecord n s = { s.dropRecord n with fsc := s.storeWith c } := by
  have uses := chainInUse_updRecord hj (fun x => { x with raw := none }) c
  unfold removeRecord
  rw [hr]
  dsimp only
  rw [hc]
  dsimp only
  rw [releaseChain_storeWith (uses.symm ▸ h)]
  unfold State.storeWith
  rw [uses]
  exact congrArg (fun t : State => { t with fsc := s.storeWith c }) (dropRecord_updRecord s n fun x => { x with raw := none })

theorem removeRecord_ptc (n : Nat) (s : State) : (removeRecord n s).ptc = s.ptc := by
  unfold removeRecord
  split
  · rfl
  · split
    · exact releaseChain_ptc _ _
    · rfl

/-! ## The marks of a DELETE (R59, R152) -/

/-- The writing item of a shot marked for abort. -/
def Slot.abortMarked (n : Nat) (x : Slot) : Slot :=
  { x with writing := x.writing.map fun w => if w.item.shot = n then { w with abort := true } else w }

/-- The state with everything of a shot that is in flight marked. -/
def State.marked (n : Nat) (s : State) : State :=
  { s with
    ttc := { s.ttc with queue := s.ttc.queue.map fun i => if i.shot = n then { i with cut := .delete } else i }
    crw := { s.crw with slotA := s.crw.slotA.abortMarked n, slotB := s.crw.slotB.abortMarked n }
    dve := { s.dve with jobs := s.dve.jobs.map fun j => if j.shot = n then { j with cancel := true } else j }
    ptc := { s.ptc with read := s.ptc.read.map fun x => if x.shot = n then { x with cut := true } else x } }

/-- What is in flight can be marked: every send item of the shot streams, its requirements wait for nothing, its writing item has a
chunk in flight, its job is RUNNING. -/
structure State.InFlight (n : Nat) (r : Record) (s : State) : Prop where
  record : s.record n = some r
  serials : ∀ x ∈ s.ttc.queue, ∀ y ∈ s.ttc.queue, x.shot = n → x.serial = y.serial → y.shot = n
  items : ∀ i ∈ s.ttc.queue, i.shot = n → ∃ x, i.state = .sending ∧ i.transfer = some x ∧ x.awaiting = false
  reqs : ∀ i, r.req i ≠ .queued ∧ r.req i ≠ .failed
  writing : ∀ i w, (s.slot i).writing = some w → w.item.shot = n → (s.slot i).chunkInFlight = true
  job : ∀ j, s.job n = some j → j.state = .running

theorem map_eq_self {α : Type} {l : List α} {p : α → Prop} [DecidablePred p] {f : α → α} (h : ∀ x ∈ l, ¬ p x) :
    (l.map fun x => if p x then f x else x) = l :=
  (List.map_congr_left fun x hx => if_neg (h x hx)).trans (List.map_id' l)

/-- Streaming items are marked one after the other (R59 step 3). -/
theorem deleteItems_streaming {l : List SendItem}
    (hl : ∀ i ∈ l, ∃ x, i.state = .sending ∧ i.transfer = some x ∧ x.awaiting = false)
    (s : State) : deleteItems l s = { s with ttc := { s.ttc with
      queue := s.ttc.queue.map fun y => if y.serial ∈ l.map SendItem.serial then { y with cut := .delete } else y } } := by
  induction l generalizing s with
  | nil => simp [deleteItems]
  | cons z l ih =>
    obtain ⟨x, hst, ht, ha⟩ := hl z (by simp)
    have one : deleteItems (z :: l) s = deleteItems l (s.updItem z.serial fun y => { y with cut := .delete }) := by
      rw [deleteItems, hst]
      dsimp only
      rw [ht]
      dsimp only
      rw [ha, if_neg Bool.false_ne_true]
    rw [one, ih (fun i hi => hl i (by simp [hi])), updItem_eq s z.serial (f := fun y => { y with cut := .delete }) fun _ => rfl]
    refine congrArg (fun q => { s with ttc := { s.ttc with queue := q } }) ((List.map_map ..).trans (List.map_congr_left fun y _ => ?_))
    by_cases hz : y.serial = z.serial
    · simp [hz]
    · simp [hz]

theorem endItems_streaming (hs : ∀ x ∈ s.ttc.queue, ∀ y ∈ s.ttc.queue, x.shot = n → x.serial = y.serial → y.shot = n)
    (hi : ∀ i ∈ s.ttc.queue, i.shot = n → ∃ x, i.state = .sending ∧ i.transfer = some x ∧ x.awaiting = false) :
    endItems n s = { s with ttc := { s.ttc with
      queue := s.ttc.queue.map fun i => if i.shot = n then { i with cut := .delete } else i } } := by
  have mine : ∀ i ∈ s.ttc.queue.filter fun i => i.shot == n, i ∈ s.ttc.queue ∧ i.shot = n := fun i hi => by
    simpa using List.mem_filter.mp hi
  have waiting : ((s.ttc.queue.filter fun i => i.shot == n).filter fun i => i.state != .sending) = [] := by
    refine List.filter_eq_nil_iff.mpr fun i h => ?_
    obtain ⟨x, hst, -⟩ := hi i (mine i h).1 (mine i h).2
    simp [hst]
  have sending : ((s.ttc.queue.filter fun i => i.shot == n).filter fun i => i.state == .sending)
      = s.ttc.queue.filter fun i => i.shot == n := by
    refine List.filter_eq_self.mpr fun i h => ?_
    obtain ⟨x, hst, -⟩ := hi i (mine i h).1 (mine i h).2
    simp [hst]
  unfold endItems
  dsimp only
  rw [waiting, sending, deleteItems, deleteItems_streaming fun i h => hi i (mine i h).1 (mine i h).2]
  refine congrArg (fun q => { s with ttc := { s.ttc with queue := q } }) (List.map_congr_left fun y hy => ?_)
  by_cases h : y.shot = n
  · rw [if_pos h, if_pos (List.mem_map_of_mem (List.mem_filter.mpr ⟨hy, by simpa using h⟩))]
  · rw [if_neg h, if_neg]
    intro hm
    obtain ⟨x, hx, e⟩ := List.mem_map.mp hm
    exact h (hs x (mine x hx).1 y hy (mine x hx).2 e)

/-- Nothing is waived where nothing waits. -/
theorem waiveDeleted_kept (hr : s.record n = some r) (h : r.req i ≠ .queued ∧ r.req i ≠ .failed) : waiveDeleted i n s = s := by
  unfold waiveDeleted
  rw [hr]
  dsimp only
  split
  next hq => exact absurd hq h.1
  next hf => exact absurd hf h.2
  · rfl

theorem updSlot_kept {f : Slot → Slot} (h : f (s.slot i) = s.slot i) : s.updSlot i f = s := by
  cases i
  · exact congrArg (fun x => { s with crw := { s.crw with slotA := x } }) h
  · exact congrArg (fun x => { s with crw := { s.crw with slotB := x } }) h

theorem abortWriting_marked (h : ∀ w, (s.slot i).writing = some w → w.item.shot = n → (s.slot i).chunkInFlight = true) :
    abortWriting i n s = s.updSlot i (Slot.abortMarked n) := by
  unfold abortWriting
  split
  next w hw =>
    by_cases hn : w.item.shot = n
    · rw [if_pos (by simpa using hn), if_pos (h w hw hn)]
      have marked : ({ s.slot i with writing := some { w with abort := true } } : Slot) = (s.slot i).abortMarked n := by
        unfold Slot.abortMarked
        rw [hw, Option.map_some, if_pos hn]
      cases i
      · exact congrArg (fun x => { s with crw := { s.crw with slotA := x } }) marked
      · exact congrArg (fun x => { s with crw := { s.crw with slotB := x } }) marked
    · rw [if_neg (by simpa using hn), updSlot_kept]
      unfold Slot.abortMarked
      rw [hw, Option.map_some, if_neg hn, ← hw]
  next hw =>
    rw [updSlot_kept]
    unfold Slot.abortMarked
    rw [hw, Option.map_none, ← hw]

theorem cancelJob_marked (h : ∀ j, s.job n = some j → j.state = .running) : cancelJob n s = { s with dve := { s.dve with
    jobs := s.dve.jobs.map fun j => if j.shot = n then { j with cancel := true } else j } } := by
  unfold cancelJob
  split
  next j hj => rw [if_pos (by simpa using h j hj), updJob_eq s n (f := fun x => { x with cancel := true }) fun _ => ⟨rfl, rfl⟩]
  next hj => rw [map_eq_self (job_none.mp hj)]

theorem cutRead_marked (n : Nat) (s : State) : cutRead (fun x => x.shot == n) s = { s with ptc := { s.ptc with
    read := s.ptc.read.map fun x => if x.shot = n then { x with cut := true } else x } } := by
  unfold cutRead
  split
  next x hx =>
    rw [hx, Option.map_some]
    by_cases hn : x.shot = n
    · rw [if_pos (by simpa using hn), if_pos hn]
      rfl
    · rw [if_neg (by simpa using hn), if_neg hn, ← hx]
  next hx => rw [hx, Option.map_none, ← hx]

/-- What is in flight is marked, and the record is tested (R59). -/
theorem beginDeleting_marked (h : s.InFlight n r) (tag : Byte) :
    beginDeleting n tag s = testRelease n ((s.marked n).withRecord n (Record.doomed tag)) := by
  have doomed : s.updRecord n (Record.doomed tag) = s.withRecord n (Record.doomed tag) := updRecord_eq_withRecord s n fun _ => rfl
  have found : ∀ t : State, t.cat = (s.withRecord n (Record.doomed tag)).cat → t.record n = some (r.doomed tag) := fun t ht =>
    record_changed h.record (Record.doomed tag) (fun _ => rfl) (congrArg Cat.records ht)
  have reqs : ∀ i, (r.doomed tag).req i ≠ .queued ∧ (r.doomed tag).req i ≠ .failed := fun i => by
    cases i
    · exact h.reqs .a
    · exact h.reqs .b
  have waived : ∀ (t : State) i, t.cat = (s.withRecord n (Record.doomed tag)).cat → waiveDeleted i n t = t := fun t i ht =>
    waiveDeleted_kept (found t ht) (reqs i)
  rw [beginDeleting_eq]
  unfold State.cleared
  rw [doomed, endItems_streaming (s := s.withRecord n (Record.doomed tag)) h.serials h.items,
    waived _ .a, waived _ .b, abortWriting_marked (i := .a), abortWriting_marked (i := .b), cancelJob_marked, cutRead_marked]
  · rfl
  · exact h.job
  · exact h.writing .b
  · exact h.writing .a
  · rfl
  · rfl

theorem marked_job (n : Nat) (s : State) : (s.marked n).job n = (s.job n).map fun j => { j with cancel := true } := by
  have same := updJob_job_same (n := n) (fun j => { j with cancel := true }) s
  rw [updJob_eq s n (f := fun j => { j with cancel := true }) fun _ => ⟨rfl, rfl⟩] at same
  exact same

/-- With nothing of the shot in flight, no mark is made. -/
theorem marked_none (hj : s.job n = none) (hq : ∀ i ∈ s.ttc.queue, i.shot ≠ n) (ha : s.crw.slotA.writing = none)
    (hb : s.crw.slotB.writing = none) (hx : s.ptc.read = none) : s.marked n = s := by
  have slot : ∀ x : Slot, x.writing = none → x.abortMarked n = x := fun x h => by
    unfold Slot.abortMarked
    rw [h, Option.map_none, ← h]
  unfold State.marked
  rw [map_eq_self (job_none.mp hj), map_eq_self hq, slot _ ha, slot _ hb, hx, Option.map_none, ← hx]

/-! ## The end of an aborted card item (R145, R151, R152) -/

theorem arbitrate_empty (hb : (s.slot i).blocks = []) (hw : (s.slot i).writing = none) : arbitrate i s = s := by
  unfold arbitrate
  dsimp only
  rw [hb, hw]
  split <;> rfl

theorem moveSlot_slot_ne (h : i ≠ k) (new : SlotState) (s : State) : (moveSlot i new s).slot k = s.slot k := by
  have moved := State.updSlot_slot_ne s (fun x => { x with state := new }) h
  unfold moveSlot State.offerClass
  dsimp only
  split
  · exact moved
  · split
    · exact (by cases k <;> rfl : _ = (s.updSlot i fun x => { x with state := new }).slot k).trans moved
    · exact moved

theorem arbitrate_slot_ne (h : i ≠ k) (s : State) : (arbitrate i s).slot k = s.slot k := by
  have block : ∀ b, (takeBlock i b s).slot k = s.slot k := fun b => State.updSlot_slot_ne _ _ h
  have chunk : ∀ w, (takeChunk i w s).slot k = s.slot k := fun w => (State.updSlot_slot_ne _ _ h).trans (by cases k <;> rfl)
  unfold arbitrate
  dsimp only
  split
  · rfl
  · split
    · split
      · exact chunk _
      · exact block _
    · exact block _
    · split
      · exact chunk _
      · rfl
    · rfl

theorem setReq_slot (m : Nat) (i : SlotId) (q : Requirement) (s : State) (k : SlotId) : (s.setReq m i q).slot k = s.slot k := by
  cases k <;> rfl

theorem tryHead_slot_ne (h : i ≠ k) (s : State) : (tryHead i s).slot k = s.slot k := by
  unfold tryHead
  dsimp only
  split
  · split
    · split
      · exact moveSlot_slot_ne h _ _
      · rfl
    · split
      · rw [arbitrate_slot_ne h, moveSlot_slot_ne h, setReq_slot, State.updSlot_slot_ne _ _ h]
      · exact moveSlot_slot_ne h _ _
  · rfl

theorem migrateItem_slotA (x : CardItem) (s : State) : (migrateItem x s).slot .a = s.slot .a := by
  unfold migrateItem
  split
  · rfl
  · rw [testRelease_slot]
    split
    · unfold queueItem
      rw [setReq_slot, State.updSlot_slot_ne _ _ (by decide), setReq_slot]
    · exact setReq_slot _ _ _ _ _

theorem migrateItems_slotA (xs : List CardItem) (s : State) : (migrateItems xs s).slot .a = s.slot .a := by
  induction xs generalizing s with
  | nil => rfl
  | cons x xs ih => exact (ih _).trans (migrateItem_slotA x s)

/-- The slot whose items migrate keeps its block requests and its writing item (R140). -/
theorem migrateFrom_slot (i : SlotId) (l : List CardItem) (s : State) :
    ((migrateFrom i l s).slot i).blocks = (s.slot i).blocks ∧ ((migrateFrom i l s).slot i).writing = (s.slot i).writing := by
  have idle : ∀ t : State, (tryIdle .b t).slot .a = t.slot .a := fun t => by
    unfold tryIdle
    split
    · exact tryHead_slot_ne (by decide) t
    · rfl
  unfold migrateFrom
  split
  next h =>
    obtain ⟨rfl, -⟩ : i = .a ∧ s.overflowInForce = true := by simpa using h
    dsimp only
    rw [idle, migrateItems_slotA, State.updSlot_slot]
    exact ⟨rfl, rfl⟩
  · exact ⟨rfl, rfl⟩

end Sys2Proof.Machine
end

section
/-! SUPPORT. DELETE (O33). -/

namespace Sys2Proof.Machine

variable {s t u : State} {n : Nat} {r : Record} {i : SlotId} {tag : Byte} {c : List Nat}

/-! ## A shot that goes at once (R54, R56, R58) -/

theorem doomed_free (hA : r.reqA.settled = true) (hB : r.reqB.settled = true) (hp : (r.doomed tag).rawPins = 0)
    (hj : t.job r.shot = none) : (r.doomed tag).rawFree t = true := rawFree_iff.mpr ⟨.inr rfl, hp, hA, hB, hj⟩

theorem settled_waits {q : Requirement} (h : q.settled = true) : q ≠ .queued ∧ q ≠ .failed := by
  constructor <;> (rintro rfl; cases h)

/-- A STORED record that nothing holds, wants or reads goes at once (R58). -/
theorem beginDeleting_gone (hr : s.record n = some r) (hhold : r.hold = false) (hpins : r.rawPins = 0) (hproof : r.proof = none)
    (hA : r.reqA.settled = true) (hB : r.reqB.settled = true) (hu : s.Unreferenced n) (hq : ∀ i ∈ s.ttc.queue, i.shot ≠ n)
    (ha : s.crw.slotA.writing = none) (hb : s.crw.slotB.writing = none) (hx : s.ptc.read = none)
    (hw : ∀ j, s.currentJob = some j → j.state = .running) (hc : r.raw = some c) (huse : s.chainInUse c = false) :
    beginDeleting n tag s = State.send (State.offer { s.dropRecord n with fsc := { s.fsc with freeList := s.fsc.freeList ++ c } } .body
      (.shotReleased n true)) .body (.response 0x89 tag .ok false []) := by
  have quiet : s.InFlight n r := ⟨hr, fun x hx _ _ hn _ => absurd hn (hq x hx), fun x hx hn => absurd hn (hq x hx),
    fun i => by cases i <;> [exact settled_waits hA; exact settled_waits hB],
    fun i w hw hn => absurd hn (hu.writing i w hw), fun j hj => by rw [hu.job] at hj; cases hj⟩
  have uses : (s.withRecord n (Record.doomed tag)).chainInUse c = s.chainInUse c :=
    chainInUse_withRecord hu.job (f := Record.doomed tag) (fun _ => rfl) c
  have pins : (r.doomed tag).rawPins = 0 := (if_neg (by rw [hhold]; decide)).trans hpins
  have gives : GivesRaw (s.withRecord n (Record.doomed tag)) n (r.doomed tag) c :=
    ⟨record_changed hr (Record.doomed tag) (fun _ => rfl) rfl, hc, doomed_free hA hB pins ((record_shot hr).symm ▸ hu.job), .inr hw⟩
  have gone : (s.withRecord n (Record.doomed tag)).dropRecord n = s.dropRecord n := by
    rw [← updRecord_eq_withRecord (f := Record.doomed tag) s n fun _ => rfl, dropRecord_updRecord]
  rw [beginDeleting_marked quiet, marked_none hu.job hq ha hb hx,
    testRelease_goneAnswered gives hproof ⟨hu.job, hu.writing, hu.sending, hu.read⟩ rfl, gone, storeWith_free (uses.trans huse)]
  rfl

/-! ## What stays in flight (R59) -/

/-- A raw that something still wants stays with its DELETING record (R54). -/
theorem beginDeleting_rawWanted (h : s.InFlight n r) (hraw : r.raw.isSome = true) (hproof : r.proof = none)
    (hwant : (r.doomed tag).rawPins ≠ 0 ∨ r.reqA.settled = false ∨ r.reqB.settled = false ∨ (s.job n).isSome = true) :
    beginDeleting n tag s = (s.marked n).withRecord n (Record.doomed tag) := by
  have job : ((s.marked n).withRecord n (Record.doomed tag)).job n = (s.job n).map fun j => { j with cancel := true } := marked_job n s
  rw [beginDeleting_marked h, testRelease_rawWanted (r := r.doomed tag) _ hraw (rawFree_wanted ?_) (.inl hproof)]
  · exact record_changed h.record (Record.doomed tag) (fun _ => rfl) rfl
  · refine hwant.imp id (Or.imp id (Or.imp id fun hj => ?_))
    rw [show (r.doomed tag).shot = n from record_shot (r := r) h.record, job, Option.isSome_map]
    exact hj

/-- A raw in use waits for its last access; the READ stream of the shot keeps the record (R10, R56). -/
theorem beginDeleting_readKept (h : s.InFlight n r) (hc : r.raw = some c) (hproof : r.proof = none) (hpins : (r.doomed tag).rawPins = 0)
    (hA : r.reqA.settled = true) (hB : r.reqB.settled = true) (hj : s.job n = none) {x : ReadStream} (hx : s.ptc.read = some x)
    (hn : x.shot = n) (huse : s.chainInUse c = true) :
    beginDeleting n tag s = State.withRecord { (s.marked n).withRecord n (Record.doomed tag) with
      fsc := { s.fsc with releasing := s.fsc.releasing ++ [c] } } n fun y => { y with raw := none } := by
  have job : ((s.marked n).withRecord n (Record.doomed tag)).job n = none := (marked_job n s).trans (by rw [hj]; rfl)
  have uses : ((s.marked n).withRecord n (Record.doomed tag)).chainInUse c = true :=
    (chainInUse_withRecord (s := s.marked n) job (f := Record.doomed tag) (fun _ => rfl) c).trans
      ((chainInUse_congr (t := s.marked n) (s := s) rfl rfl rfl (map_eq_self (job_none.mp hj)) (fun _ _ => rfl) c).trans huse)
  have gives : GivesRaw ((s.marked n).withRecord n (Record.doomed tag)) n (r.doomed tag) c :=
    ⟨record_changed h.record (Record.doomed tag) (fun _ => rfl) rfl, hc,
      doomed_free hA hB hpins ((record_shot h.record).symm ▸ job), .inl uses⟩
  have read : ¬ ((s.marked n).withRecord n (Record.doomed tag)).Unreferenced n := fun hu =>
    hu.read (if x.shot = n then { x with cut := true } else x) (congrArg (Option.map _) hx) (by split <;> exact hn)
  rw [beginDeleting_marked h, testRelease_referenced gives hproof read, State.rawGiven, storeWith_inUse uses]
  rfl

/-! ## The chunk of an item marked for abort (R145, R151, R152) -/

/-- The item after its chunk. -/
def WritingItem.chunkWritten (w : WritingItem) : WritingItem :=
  { w with next := w.next + 1, written := w.written + chunkLength w.item.mode w.next }

/-- The item's end, before its slot goes on (R151 steps 1 and 2). -/
def State.itemEnded (i : SlotId) (w : WritingItem) (st : ItemStatus) (s : State) : State :=
  testRelease w.item.shot (State.setReq (State.offer (s.updSlot i fun y => { y with op := none, writing := none }) .body
    (.cardItemDone w.item.shot i st w.item.mode.itemBlocks w.written w.fragments)) w.item.shot i st.requirement)

theorem itemEnded_slot (i : SlotId) (w : WritingItem) (st : ItemStatus) (s : State) :
    (s.itemEnded i w st).slot i = { s.slot i with op := none, writing := none } := by
  unfold State.itemEnded
  rw [testRelease_slot, setReq_slot]
  cases i <;> rfl

theorem chunkDone_aborting {o : CardOp} {w : WritingItem} (ho : (s.slot i).op = some o) (hk : o.kind = .chunk) (hi : o.issued = true)
    (hw : (s.slot i).writing = some w) (ha : w.abort = true) : chunkDone i s = arbitrate i (slotAfterItem i
      (s.itemEnded i w.chunkWritten (if w.next + 1 = w.item.mode.itemChunks then .written else .aborted))) := by
  have ended : ∀ st, endItem i w.chunkWritten st (s.updSlot i fun y => { y with op := none, writing := some w.chunkWritten })
      = s.itemEnded i w.chunkWritten st := fun st => by
    rw [endItem_eq]
    cases i <;> rfl
  unfold chunkDone
  dsimp only
  rw [ho, hw]
  dsimp only
  rw [if_pos ⟨hk, hi⟩]
  by_cases hn : w.next + 1 = w.item.mode.itemChunks
  · rw [if_pos hn, if_pos hn, ← ended]
    rfl
  · rw [if_neg hn, if_pos ha, if_neg hn, ← ended]
    rfl

theorem slotAfterItem_idle (hst : (s.slot i).state = .writing) (hq : (s.slot i).queue = []) (hf : (s.slot i).fullPending = false)
    (hb : (s.slot i).blocks = []) (hw : (s.slot i).writing = none) :
    arbitrate i (slotAfterItem i s) = s.updSlot i fun y => { y with state := .idle } := by
  have moved : moveSlot i .idle s = s.updSlot i fun y => { y with state := .idle } := by
    unfold moveSlot
    dsimp only
    rw [hst]
    rfl
  have slot : (s.updSlot i fun y => { y with state := .idle }).slot i = { s.slot i with state := .idle } := State.updSlot_slot _ _ _
  have head : tryHead i (s.updSlot i fun y => { y with state := .idle }) = s.updSlot i fun y => { y with state := .idle } := by
    unfold tryHead
    dsimp only
    rw [slot]
    dsimp only
    rw [hq]
    rfl
  unfold slotAfterItem
  rw [if_neg (by rw [hf]; decide), moved, head, arbitrate_empty]
  · rw [slot]
    exact hb
  · rw [slot]
    exact hw

theorem slotAfterItem_full (hst : (s.slot i).state = .writing) (hf : (s.slot i).fullPending = true)
    (hb : (s.slot i).blocks = []) (hw : (s.slot i).writing = none) :
    arbitrate i (slotAfterItem i s) = migrateFrom i [] ((s.updSlot i fun y => { y with state := .full }).offerClass Classes.slotState
      (.slotState i .writing .full (s.slot i).queue.length (s.slot i).pool.length)) := by
  have slot : (s.updSlot i fun y => { y with state := .full }).slot i = { s.slot i with state := .full } := State.updSlot_slot _ _ _
  have moved : moveSlot i .full s = (s.updSlot i fun y => { y with state := .full }).offerClass Classes.slotState
      (.slotState i .writing .full (s.slot i).queue.length (s.slot i).pool.length) := by
    unfold moveSlot slotNotice
    dsimp only
    rw [hst, slot]
    rfl
  have slot' : (moveSlot i .full s).slot i = { s.slot i with state := .full } := by
    rw [moved, ← slot]
    unfold State.offerClass
    split <;> cases i <;> rfl
  obtain ⟨blocks, writing⟩ := migrateFrom_slot i [] (moveSlot i .full s)
  unfold slotAfterItem
  rw [if_pos hf, arbitrate_empty, moved]
  · rw [blocks, slot']
    exact hb
  · rw [writing, slot']
    exact hw

theorem provisional_removed {h : Header} (hp : h.port = .body) (hr : s.record n = some r) (hj : s.job n = none) (hc : r.raw = some c) :
    ∃ t, (removeRecord n s).answered .delete h [] = t ∧ t.cat.records = s.cat.records.filter (fun x => x.shot != n)
      ∧ State.followOnKeeps s t ∧ t.ptc.bodyQueue = s.ptc.bodyQueue
      ∧ t.ptc.bodyOut = s.ptc.bodyOut ++ [.response 0x89 h.tag .ok false []]
      ∧ (s.chainInUse c = true → t.fsc = { s.fsc with releasing := s.fsc.releasing ++ [c] })
      ∧ (s.chainInUse c = false → (∀ j, s.currentJob = some j → j.state = .running) →
          t.fsc = { s.fsc with freeList := s.fsc.freeList ++ c } ∧ t.dve = s.dve) := by
  have answered : (removeRecord n s).answered .delete h [] = (removeRecord n s).send .body (.response 0x89 h.tag .ok false []) := by
    unfold State.answered
    rw [hp]
    rfl
  refine ⟨_, rfl, ?_, ?_, ?_, ?_, fun hu => ?_, fun hu hw => ?_⟩ <;> rw [answered]
  · exact congrArg Cat.records (removeRecord_cat n s)
  · exact ((removeRecord_cascade n s).trans (.send _ _ (by decide))).followOnKeeps
  · change (removeRecord n s).ptc.bodyQueue = _
    rw [removeRecord_ptc]
  · exact congrArg (fun p : Ptc => p.bodyOut ++ [.response 0x89 h.tag .ok false []]) (removeRecord_ptc n s)
  · rw [removeRecord_given hr hc hj (.inl hu), storeWith_inUse hu]
    rfl
  · rw [removeRecord_given hr hc hj (.inr hw), storeWith_free hu]
    exact ⟨rfl, rfl⟩

/-- Settles O33: the request by the state of its record, what stays in flight by the predicates that follow-on work keeps, and the
end of an aborted item by its slot. -/
theorem delete : Obligations.Delete := by
  refine ⟨fun h m s hr => ⟨fun hn => ?_, fun r hrec => ⟨fun hst => ?_, fun hst => ?_, fun hst hg => ?_, fun hst hg hj c hc => ?_,
    fun hst hg hhold hpins hproof hA hB hj hq ha hb hx hw c hc huse => ?_, fun hst hg hraw hcards => ?_,
    fun hst hg hser hit hreq hwr hj => ⟨fun hraw hproof hwant => ?_, fun c x hc hproof hpins hA hB hj' hx hn huse => ?_⟩⟩⟩,
    fun i s o w ho hk hi hst hw ha hb => ?_, fun n tag r s hr hst ht hraw hproof => ⟨fun hj hw hq hx => ?_, fun href => ?_⟩⟩
  · rw [exec_delete hr, ownDelete_none h hn]
  · rw [exec_delete hr, ownDelete_deleting h hrec hst]
  · rw [exec_delete hr, ownDelete_exposing h hrec hst]
  · rw [exec_delete hr, ownDelete_guarded h hrec hst hg]
  · obtain ⟨t, ht, left⟩ := provisional_removed (bodyPort hr rfl rfl rfl) hrec hj hc
    exact ⟨t, by rw [exec_delete hr, ownDelete_provisional h hrec hst hg, ht], left⟩
  · have free : s.Unreferenced m.toNat := ⟨hj, fun i w hw' => by cases i <;> [cases ha.symm.trans hw'; cases hb.symm.trans hw'],
      fun i hi hn => absurd hn (hq i hi), fun x hx' => by rw [hx] at hx'; cases hx'⟩
    rw [exec_delete hr, ownDelete_stored h hrec hst hg,
      beginDeleting_gone hrec hhold hpins hproof hA hB free hq ha hb hx hw hc huse]
    rfl
  · have claimed : ∀ i, s.Claimed m.toNat i := fun i x hx hn => ⟨r, hrec, hcards i x hx hn, hraw i (hcards i x hx hn)⟩
    have left := beginDeleting_leaves (tag := h.tag) hrec claimed
    refine ⟨_, by rw [exec_delete hr, ownDelete_stored h hrec hst hg], (beginDeleting_cascade _ _ _).followOnKeeps, left.items,
      fun i => (left.bare i).1, left.job, left.read, left.dying.1, fun x hx => ?_⟩
    obtain ⟨deleting, answer, hold⟩ := left.dying.2 x hx
    exact ⟨deleting, answer, hold, fun i => (left.bare i).2 x hx⟩
  · have flight : s.InFlight m.toNat r := ⟨hrec,
      fun x hx y hy hn e => List.inj_on_of_nodup_map hser hx hy e ▸ hn, hit, hreq, hwr, hj⟩
    rw [exec_delete hr, ownDelete_stored h hrec hst hg]
    exact congrArg _ (beginDeleting_rawWanted flight hraw hproof hwant)
  · have flight : s.InFlight m.toNat r := ⟨hrec,
      fun x hx y hy hn e => List.inj_on_of_nodup_map hser hx hy e ▸ hn, hit, hreq, hwr, hj⟩
    rw [exec_delete hr, ownDelete_stored h hrec hst hg]
    exact congrArg _ (beginDeleting_readKept flight hc hproof hpins hA hB hj' hx hn huse)
  · have step : ∀ st, (if w.next + 1 = w.item.mode.itemChunks then ItemStatus.written else .aborted) = st →
        ((s.slot i).queue = [] → (s.slot i).fullPending = false →
            exec (.cardChunkCompletion i) s = .next ((s.itemEnded i w.chunkWritten st).updSlot i fun y => { y with state := .idle }))
          ∧ ((s.slot i).fullPending = true → exec (.cardChunkCompletion i) s = .next (migrateFrom i []
              (((s.itemEnded i w.chunkWritten st).updSlot i fun y => { y with state := .full }).offerClass Classes.slotState
                (.slotState i .writing .full (s.slot i).queue.length (s.slot i).pool.length)))) := by
      rintro st rfl
      have slot := itemEnded_slot i w.chunkWritten (if w.next + 1 = w.item.mode.itemChunks then .written else .aborted) s
      have exec_eq : exec (.cardChunkCompletion i) s = .next (chunkDone i s) := rfl
      rw [exec_eq, chunkDone_aborting ho hk hi hw ha]
      refine ⟨fun hq hf => ?_, fun hf => ?_⟩
      · rw [slotAfterItem_idle] <;> rw [slot]
        · exact hst
        · exact hq
        · exact hf
        · exact hb
      · rw [slotAfterItem_full] <;> rw [slot]
        · exact hst
        · exact hf
        · exact hb
    by_cases hn : w.next + 1 = w.item.mode.itemChunks
    · rw [if_pos hn]
      exact step .written (if_pos hn)
    · rw [if_neg hn]
      exact step .aborted (if_neg hn)
  · rw [testRelease_bareFreed hr hst ht hraw hproof ⟨hj, hw, hq, hx⟩]
    rfl
  · refine testRelease_bareKept hr hraw hproof fun hu => ?_
    rcases href with ⟨j, hj⟩ | ⟨i, w, hw, hn⟩ | ⟨i, hi, hn, hs⟩ | ⟨x, hx, hn⟩
    · rw [hu.job] at hj
      cases hj
    · exact hu.writing i w hw hn
    · exact hu.sending i hi hn hs
    · exact hu.read x hx hn

end Sys2Proof.Machine
end

section
/-! SUPPORT. A stripe carried out (R121, R122, R125, R128): its progress, its bytes, and what the engine does with a pending thermal
state while a job is RUNNING (R116, R123). -/

namespace Sys2Proof.Machine

variable {s t : State} {j : Job} {p : Progress} {r : Record} {n : Nat}

/-! ## Counts (R125, R128) -/

theorem countPixel_bin (h : List Nat) (x : Rgb) (k : Nat) :
    (countPixel h x)[k]? = (h[k]?).map fun n => n + if luminance x / 4 == k then 1 else 0 := by
  unfold countPixel
  dsimp only
  rw [List.getElem?_set]
  by_cases hk : luminance x / 4 = k
  · subst hk
    by_cases hl : luminance x / 4 < h.length
    · simp [hl]
    · simp [hl]
  · simp [hk]

/-- A bin grows by the pixels of its luminance (R128). -/
theorem countPixels_bin (xs : List Rgb) (h : List Nat) (k : Nat) : (xs.foldl countPixel h)[k]?
    = (h[k]?).map fun n => n + (xs.filter fun x => luminance x / 4 == k).length := by
  induction xs generalizing h with
  | nil => simp
  | cons x xs ih =>
    rw [List.foldl_cons, ih, countPixel_bin, Option.map_map]
    refine congrArg (fun f => Option.map f h[k]?) (funext fun n => ?_)
    cases hk : luminance x / 4 == k
    · simp [hk]
    · simp [hk]
      omega

theorem card_range_filter (n : Nat) (f : Nat → Bool) (q : Nat → Prop) [DecidablePred q] (h : ∀ x, f x = true ↔ q x) :
    ((List.range n).filter f).length = ((Finset.range n).filter q).card := by
  have same : f = fun x => decide (q x) := funext fun x => by rw [Bool.eq_iff_iff, h x, decide_eq_true_iff]
  rw [same]
  rfl

theorem sum_range_list (n : Nat) (f : Nat → Nat) : ((List.range n).map f).sum = ∑ y ∈ Finset.range n, f y := rfl

/-- The clipped quads of a stripe (R125). -/
theorem stripeClips_eq (d : Memory) (chain : List Nat) (m : Mode) (x : Recipe) (k : Nat) : stripeClips d chain m x k
    = ∑ y ∈ Finset.range 32, ((Finset.range (quadColumns m)).filter fun c =>
        x.clip ≤ (quadSamples d chain m c (32 * k + y)).1 ∨ x.clip ≤ (quadSamples d chain m c (32 * k + y)).2.1
          ∨ x.clip ≤ (quadSamples d chain m c (32 * k + y)).2.2.1 ∨ x.clip ≤ (quadSamples d chain m c (32 * k + y)).2.2.2).card := by
  unfold stripeClips
  rw [sum_range_list]
  refine Finset.sum_congr rfl fun y _ => card_range_filter _ _ _ fun c => ?_
  simp [quadClipped, clippedQuad, or_assoc]

theorem pixelBytes_length (xs : List Rgb) : (pixelBytes xs).length = xs.length * 3 := by
  simp [pixelBytes, List.length_flatMap]

/-! ## The state with a stripe carried out -/

/-- The jobs of a shot with new progress. -/
def Job.progressed (n : Nat) (p : Progress) (x : Job) : Job := if x.shot = n then { x with progress := some p } else x

/-- The jobs of a shot SUSPENDED with new progress (R123). -/
def Job.halted (n : Nat) (p : Progress) (x : Job) : Job := if x.shot = n then { x with state := .suspended, progress := some p } else x

theorem progressed_keeps (n : Nat) (p : Progress) (x : Job) : (x.progressed n p).shot = x.shot ∧ (x.progressed n p).state = x.state
    ∧ (x.progressed n p).cls = x.cls ∧ (x.progressed n p).cancel = x.cancel := by
  unfold Job.progressed
  split <;> exact ⟨rfl, rfl, rfl, rfl⟩

/-- The pixels of a stripe in the proof's chain and the progress with its job (R122 step 1). -/
def State.striped (j : Job) (p : Progress) (d : Memory) (s : State) : State :=
  { s with dram := d, dve := { s.dve with jobs := s.dve.jobs.map (Job.progressed j.shot p) } }

theorem stripeDone_eq (hf : s.dve.jobs.find? (fun x => x.state == .running) = some j) (hp : j.progress = some p)
    (hr : s.record j.shot = some r) : exec .stripeCompletion s = .next (afterStripe j (carryStripe j r p s.dve s.dram).2
      (s.striped j (carryStripe j r p s.dve s.dram).2 (carryStripe j r p s.dve s.dram).1)) := by
  have step : exec .stripeCompletion s = .next (stripeDone s) := rfl
  rw [step]
  unfold stripeDone
  rw [hf]
  dsimp only
  rw [hp, hr]
  dsimp only
  rw [updJob_eq]
  · rfl
  · exact fun _ => ⟨rfl, rfl⟩

/-! ## The pending thermal state (R116) -/

/-- The pending thermal state become the applied one. -/
def State.thermalTaken (s : State) : State :=
  { s with dve := { s.dve with applied := s.dve.pendingThermal.getD s.dve.applied, pendingThermal := none } }

/-- Steps 3 to 6 of R122. -/
def stripeEnd (j : Job) (p : Progress) (s : State) : State :=
  if j.cancel then endCancelled { j with progress := some p } s
  else if p.next = j.mode.stripes then completeJob j p s
  else if preempted j s then pick (s.updJob j.shot fun x => { x with state := .suspended })
  else s

theorem pick_current (h : s.currentJob = some j) : pick s = s := by
  unfold pick
  rw [h]

theorem afterStripe_none (h : s.dve.pendingThermal = none) : afterStripe j p s = stripeEnd j p s := by
  unfold afterStripe stripeEnd
  rw [h]

/-- A job that is RUNNING, with none waiting for slabs, is the current one. -/
theorem current_running {x : Job} (hx : x ∈ s.dve.jobs) (hr : x.state = .running) (hw : ∀ y ∈ s.dve.jobs, y.state ≠ .waitSlabs) :
    ∃ c, s.currentJob = some c ∧ c.state = .running := by
  cases hc : s.currentJob with
  | none =>
    have := currentJob_none.mp hc x hx
    rw [isCurrent_iff.mpr (.inl hr)] at this
    cases this
  | some c =>
    obtain ⟨hm, hcur⟩ := currentJob_some hc
    exact ⟨c, rfl, (isCurrent_iff.mp hcur).resolve_right (hw c hm)⟩

theorem thermalTaken_none (h : s.dve.pendingThermal = none) : s.thermalTaken = s := by
  unfold State.thermalTaken
  rw [h, Option.getD_none, ← h]

/-- While a job is RUNNING the pending state is taken and nothing else happens (R116). -/
theorem afterStripe_running {x : Job} (hx : x ∈ s.dve.jobs) (hr : x.state = .running) (hw : ∀ y ∈ s.dve.jobs, y.state ≠ .waitSlabs) :
    afterStripe j p s = stripeEnd j p s.thermalTaken := by
  cases ht : s.dve.pendingThermal with
  | none => rw [afterStripe_none ht, thermalTaken_none ht]
  | some th =>
    obtain ⟨c, hc, hrun⟩ := current_running (s := s.thermalTaken) hx hr hw
    have taken : ((s.updDve fun d => { d with pendingThermal := none }).updDve fun d => { d with applied := th }) = s.thermalTaken := by
      unfold State.thermalTaken
      rw [ht]
      rfl
    have applied : applyThermal th (s.updDve fun d => { d with pendingThermal := none }) = s.thermalTaken := by
      unfold applyThermal requeueWaiting
      rw [taken, hc]
      dsimp only
      rw [if_neg (by simp [hrun]), pick_current hc]
    unfold afterStripe stripeEnd
    rw [ht]
    dsimp only
    rw [applied]

/-! ## Preemption (R123) -/

theorem preempted_iff (j : Job) (s : State) : preempted j s = true ↔ s.dve.applied = .hot ∨ j.cls = .normal
    ∧ (s.dve.applied = .warm ∨ ∃ x ∈ s.dve.jobs, x.cls = .urgent ∧ (x.state = .queued ∨ x.state = .suspended)) := by
  unfold preempted
  cases j.cls with
  | urgent => simp
  | normal =>
    cases s.dve.applied <;> simp

theorem exists_progressed (n : Nat) (p : Progress) (l : List Job) :
    (∃ x ∈ l.map (Job.progressed n p), x.cls = .urgent ∧ (x.state = .queued ∨ x.state = .suspended))
      ↔ ∃ x ∈ l, x.cls = .urgent ∧ (x.state = .queued ∨ x.state = .suspended) := by
  constructor
  · rintro ⟨y, hy, hu, hs⟩
    obtain ⟨x, hx, rfl⟩ := List.mem_map.mp hy
    obtain ⟨-, state, cls, -⟩ := progressed_keeps n p x
    exact ⟨x, hx, cls ▸ hu, state ▸ hs⟩
  · rintro ⟨x, hx, hu, hs⟩
    obtain ⟨-, state, cls, -⟩ := progressed_keeps n p x
    exact ⟨_, List.mem_map_of_mem hx, cls.trans hu, state.symm ▸ hs⟩

theorem halted_jobs (n : Nat) (p : Progress) (l : List Job) :
    ((l.map (Job.progressed n p)).map fun x => if x.shot = n then { x with state := .suspended } else x) = l.map (Job.halted n p) := by
  refine (List.map_map ..).trans (List.map_congr_left fun x _ => ?_)
  unfold Job.progressed Job.halted
  by_cases h : x.shot = n <;> simp [h]

/-- The preempted job is SUSPENDED with its progress (R120, R123). -/
def State.halting (j : Job) (p : Progress) (d : Memory) (s : State) : State :=
  { s with dram := d, dve := { s.dve with jobs := s.dve.jobs.map (Job.halted j.shot p) } }

theorem striped_suspended (j : Job) (p : Progress) (d : Memory) (s : State) :
    (s.striped j p d).updJob j.shot (fun x => { x with state := .suspended }) = s.halting j p d := by
  rw [updJob_eq _ _ (f := fun x => { x with state := .suspended }) fun _ => ⟨rfl, rfl⟩]
  exact congrArg (fun l => { s with dram := d, dve := { s.dve with jobs := l } }) (halted_jobs j.shot p s.dve.jobs)

theorem stripeEnd_going {u : State} (hc : j.cancel = false) (hn : p.next ≠ j.mode.stripes) (h : preempted j u = false) :
    stripeEnd j p u = u := by
  unfold stripeEnd
  rw [if_neg (by rw [hc]; decide), if_neg hn, if_neg (by rw [h]; decide)]

theorem stripeEnd_halting {d : Memory} (hc : j.cancel = false) (hn : p.next ≠ j.mode.stripes)
    (h : preempted j (s.striped j p d) = true) : stripeEnd j p (s.striped j p d) = pick (s.halting j p d) := by
  unfold stripeEnd
  rw [if_neg (by rw [hc]; decide), if_neg hn, if_pos h, striped_suspended]

/-- A stripe while no job waits for slabs: the pending thermal state is taken before the end (R116, R122). -/
theorem afterStripe_striped {d : Memory} (hf : s.dve.jobs.find? (fun x => x.state == .running) = some j)
    (hw : ∀ x ∈ s.dve.jobs, x.state ≠ .waitSlabs) :
    afterStripe j p (s.striped j p d) = stripeEnd j p (s.thermalTaken.striped j p d) := by
  have hj := List.mem_of_find?_eq_some hf
  have run : j.state = .running := by simpa using List.find?_some hf
  refine afterStripe_running (List.mem_map_of_mem hj) ((progressed_keeps _ _ _).2.1.trans run) fun y hy => ?_
  obtain ⟨x, hx, rfl⟩ := List.mem_map.mp hy
  rw [(progressed_keeps _ _ _).2.1]
  exact hw x hx

end Sys2Proof.Machine
end

section
/-! SUPPORT. The end of a stripe's job (R45, R129, R130, R169), the job that goes on in its place (R117, R118, R120), and STRIPE_COMPLETION
(O37). -/

namespace Sys2Proof.Machine

variable {s t : State} {j u : Job} {p : Progress} {r : Record} {n : Nat} {d : Memory}

/-! ## The send item of a proof that is done (R169) -/

theorem becomeReady_eq {c : Ttc} (ht : t.ttc = c) (n : Nat) : becomeReady n t =
    let risen : State := { t with ttc := { c with queue := c.queue.map fun x => if x.serial = n then { x with state := .ready } else x } }
    if ∃ x ∈ c.queue, x.serial ≠ n ∧ x.state = .ready then risen else risen.offer .tether (.itemsReady n c.queue.length) := by
  subst ht
  have others : (t.ttc.queue.any fun i => i.state == .ready && i.serial != n) = true
      ↔ ∃ x ∈ t.ttc.queue, x.serial ≠ n ∧ x.state = .ready := by
    simp [and_comm]
  unfold becomeReady
  dsimp only
  rw [updItem_eq (f := fun i => { i with state := .ready }) t n fun _ => rfl]
  by_cases h : ∃ x ∈ t.ttc.queue, x.serial ≠ n ∧ x.state = .ready
  · rw [if_pos (others.mpr h), if_pos h]
  · rw [if_neg fun e => h (others.mp e), if_neg h]
    simp only [List.length_map]

/-- Whether an item of the shot waits for its proof decides what the end of a job does to the send queue (R169). -/
theorem ttcJobCompleted_idle (h : ∀ i, t.itemFor n .proof = some i → i.state ≠ .waitingProof) (c : Nat) (m : Mode) :
    ttcJobCompleted n c m t = t := by
  unfold ttcJobCompleted
  split
  next i hi => exact if_neg (by simpa using h i hi)
  · rfl

theorem ttcJobCompleted_waiting {i : SendItem} (hi : t.itemFor n .proof = some i) (hw : i.state = .waitingProof) (c : Nat) (m : Mode) :
    ttcJobCompleted n c m t = if c * 1000 ≤ i.maxClip * m.quads then becomeReady i.serial t else leaveAndTest i .dropped t := by
  unfold ttcJobCompleted withinClip
  rw [hi]
  dsimp only
  rw [if_pos (by simp [hw])]
  by_cases h : c * 1000 ≤ i.maxClip * m.quads
  · rw [if_pos (by simpa using h), if_pos h]
  · rw [if_neg (by simpa using h), if_neg h]

theorem itemFor_shot {c : Content} {i : SendItem} (h : t.itemFor n c = some i) : i.shot = n ∧ i.content = c := by
  simpa using List.find?_some h

/-! ## The last stripe (R45, R129) -/

/-- The done proof of a job. -/
def Job.doneProof (j : Job) (p : Progress) : DoneProof :=
  { params := j.params, chain := p.chain, clipCount := p.clipCount, histogram := p.histogram }

/-- The job is gone and its record has the done proof (R45, R129). -/
def State.completed (j : Job) (p : Progress) (s : State) : State :=
  { s with
    dve := { s.dve with jobs := s.dve.jobs.filter fun x => x.shot != j.shot }
    cat := { s.cat with records := s.cat.records.map fun x =>
      if x.shot = j.shot then { x with proofState := .done, proof := some (j.doneProof p) } else x } }

/-- An older proof replaced: its READ_PROOF cut, its chain given back (R45, R67). -/
def State.replacing (shot : Nat) (old : DoneProof) (s : State) : State :=
  { s with
    ptc := { s.ptc with read := s.ptc.read.map fun x => if x.shot = shot ∧ x.content = .proof then { x with cut := true } else x }
    fsc := s.storeWith old.chain }

/-- The record tested and PROOF_DONE offered (R57, R129). -/
def State.proofTold (j : Job) (p : Progress) (s : State) : State :=
  State.offer (testRelease j.shot s) .body
    (.proofDone j.shot j.number j.origin j.params.scale j.params.tone p.clipCount j.mode.quads p.histogram)

theorem cutRead_proof (shot : Nat) (s : State) : cutRead (fun x => x.shot == shot && x.content == .proof) s = { s with
    ptc := { s.ptc with read := s.ptc.read.map fun x => if x.shot = shot ∧ x.content = .proof then { x with cut := true } else x } } := by
  unfold cutRead
  split
  next x hx =>
    rw [hx, Option.map_some]
    by_cases h : x.shot = shot ∧ x.content = .proof
    · rw [if_pos (by simpa using h), if_pos h]
      rfl
    · rw [if_neg (by simpa using h), if_neg h, ← hx]
  next hx => rw [hx, Option.map_none, ← hx]

theorem completed_eq (j : Job) (p : Progress) (s : State) :
    (s.dropJob j.shot).updRecord j.shot (fun r => { r with proof := some (j.doneProof p), proofState := .done }) = s.completed j p :=
  updRecord_eq_withRecord (f := fun r => { r with proof := some (j.doneProof p), proofState := .done }) _ _ fun _ => rfl

theorem completed_waits (hw : ∀ x ∈ s.dve.jobs, x.state ≠ .waitSlabs) :
    ∀ c, (s.completed j p).currentJob = some c → c.state = .running := by
  intro c hc
  obtain ⟨hm, hcur⟩ := currentJob_some hc
  exact (isCurrent_iff.mp hcur).resolve_right (hw c (List.mem_filter.mp hm).1)

/-- The end of a job by the proof its record had (R45, R129). -/
theorem completeJob_eq (hr : s.record j.shot = some r) (hw : ∀ x ∈ s.dve.jobs, x.state ≠ .waitSlabs) : completeJob j p s
    = pick (ttcJobCompleted j.shot p.clipCount j.mode (State.proofTold j p
        (r.proof.elim (s.completed j p) fun old => (s.completed j p).replacing j.shot old))) := by
  have fresh := completed_eq j p s
  unfold Job.doneProof at fresh
  unfold completeJob
  dsimp only
  rw [hr, Option.bind_some, fresh]
  cases r.proof with
  | none => rfl
  | some old =>
    dsimp only
    rw [cutRead_proof, releaseChain_noWaiting (by exact completed_waits (p := p) hw)]
    rfl

/-- What the end of a job leaves of the send queue's owner: all of it. -/
theorem proofTold_ttc (j : Job) (p : Progress) (s : State) : (s.proofTold j p).ttc = s.ttc := testRelease_ttc j.shot s

/-! ## The job that goes on (R117, R118, R120) -/

/-- With no urgent job suspended, the first urgent job that is QUEUED is picked (R117). -/
theorem nextPick_queuedUrgent {before after : List Job} (ha : s.dve.applied = .normal)
    (hs : ∀ x ∈ s.dve.jobs, x.cls = .urgent → x.state ≠ .suspended) (hj : s.dve.jobs = before ++ u :: after) (hu : u.cls = .urgent)
    (hq : u.state = .queued) (hc : u.cancel = false) (hb : ∀ x ∈ before, x.cls = .urgent → x.state ≠ .queued) :
    s.nextPick = some u := by
  have suspended : s.oldestJob .suspended .urgent = none := by
    refine List.find?_eq_none.mpr fun x hx h => ?_
    simp only [Bool.and_eq_true, beq_iff_eq] at h
    exact hs x hx h.1.2 h.1.1
  have queued : s.oldestJob .queued .urgent = some u := by
    unfold State.oldestJob
    rw [hj, List.find?_append, List.find?_eq_none.mpr, Option.none_or, List.find?_cons_of_pos]
    · simp [hu, hq, hc]
    · intro x hx h
      simp only [Bool.and_eq_true, beq_iff_eq] at h
      exact hb x hx h.1.2 h.1.1
  unfold State.nextPick
  rw [ha, suspended, queued]
  rfl

theorem pick_claims (hc : s.currentJob = none) (hn : s.nextPick = some u) (hq : u.state = .queued) : pick s = claimFor u s := by
  unfold pick
  rw [hc, hn]
  exact if_neg (by rw [hq]; decide)

/-- HOT lets no job go on (R117). -/
theorem pick_hot (h : s.dve.applied = .hot) : pick s = s := by
  have none : s.nextPick = none := by
    unfold State.nextPick
    rw [h]
  unfold pick
  rw [none]
  cases s.currentJob <;> rfl

theorem halted_of_ne {x : Job} (h : x.shot ≠ n) : x.halted n p = x := if_neg h

/-- The only RUNNING job SUSPENDED and none waiting, no job is current. -/
theorem halting_noCurrent (hw : ∀ x ∈ s.dve.jobs, x.state ≠ .waitSlabs ∧ (x.state = .running → x.shot = j.shot)) :
    (s.halting j p d).currentJob = none := by
  refine currentJob_none.mpr fun y hy => ?_
  obtain ⟨x, hx, rfl⟩ := List.mem_map.mp hy
  obtain ⟨waits, runs⟩ := hw x hx
  rw [Bool.eq_false_iff]
  intro hcur
  rcases isCurrent_iff.mp hcur with hc | hc <;> unfold Job.halted at hc <;> split at hc
  · cases hc
  next hn => exact hn (runs hc)
  · cases hc
  · exact waits hc

/-! ## Progress (R122, R125, R126, R128) -/

theorem carryStripe_histogram (j : Job) (r : Record) (v : Dve) (d : Memory) (hl : p.histogram.length = 64) :
    let done := (carryStripe j r p v d).2
    done.histogram.length = 64
      ∧ done.histogram.sum = p.histogram.sum + j.params.scale.stripeRows * j.params.scale.columns j.mode
      ∧ ∀ k, k < 64 → done.histogram[k]? = (p.histogram[k]?).map fun n => n
          + ((stripePixels d (r.raw.getD []) j.mode (recipeOf j r v) p.next).filter fun x =>
              (77 * x.red + 150 * x.green + 29 * x.blue + 128) / 256 / 4 == k).length := by
  obtain ⟨length, sum⟩ := countPixels (xs := stripePixels d (r.raw.getD []) j.mode (recipeOf j r v) p.next) stripePixels_bytes hl
  exact ⟨length, sum.trans (congrArg _ (stripePixels_length _ _ _ _ _)), fun k _ => countPixels_bin _ _ k⟩

theorem carryStripe_memory (j : Job) (r : Record) (p : Progress) (v : Dve) (d : Memory) (a : Nat)
    (h : ∀ i, i < j.params.scale.stripeRows * j.params.scale.columns j.mode * 3 →
      chainAddr p.chain (p.next * (j.params.scale.stripeRows * j.params.scale.columns j.mode * 3) + i) ≠ some a) :
    Memory.read (carryStripe j r p v d).1 a = d.read a := by
  refine writeChain_other _ _ _ _ _ fun i hi => h i ?_
  rw [pixelBytes_length, stripePixels_length] at hi
  exact hi

/-! ## The engine after a stripe, case by case -/

/-- A NORMAL job that meets a QUEUED URGENT one gives way to it (R117, R118, R123). -/
theorem halting_picks {before after : List Job} (hj : j ∈ s.dve.jobs) (hcls : j.cls = .normal)
    (ha : s.dve.applied = .normal) (hjobs : s.dve.jobs = before ++ u :: after) (hu : u.cls = .urgent) (hq : u.state = .queued)
    (hc : u.cancel = false) (hd : (s.dve.jobs.map Job.shot).Nodup) (hb : ∀ x ∈ before, x.cls = .urgent → x.state ≠ .queued)
    (hx : ∀ x ∈ s.dve.jobs, x.state ≠ .waitSlabs
      ∧ (x.state = .running → x.shot = j.shot) ∧ (x.cls = .urgent → x.state ≠ .suspended)) :
    pick (s.halting j p d) = claimFor u (s.halting j p d) := by
  have only : ∀ x ∈ s.dve.jobs, x.shot = j.shot → x = j := fun x hm e => List.inj_on_of_nodup_map hd hm hj e
  have kept : ∀ x ∈ s.dve.jobs, x.cls = .urgent → x.halted j.shot p = x := fun x hm hux => halted_of_ne fun e => by
    rw [only x hm e, hcls] at hux
    cases hux
  have urgent : ∀ x ∈ s.dve.jobs, (x.halted j.shot p).cls = .urgent → x.halted j.shot p = x := fun x hm hux => by
    refine kept x hm ?_
    unfold Job.halted at hux
    split at hux <;> exact hux
  have mine : u ∈ s.dve.jobs := by rw [hjobs]; simp
  refine pick_claims (halting_noCurrent fun x hm => ⟨(hx x hm).1, (hx x hm).2.1⟩) (nextPick_queuedUrgent
    (before := before.map (Job.halted j.shot p)) (after := after.map (Job.halted j.shot p)) ha (fun y hy hcy => ?_) ?_ hu hq hc
    fun y hy hcy => ?_) hq
  · obtain ⟨x, hm, rfl⟩ := List.mem_map.mp hy
    have same := urgent x hm hcy
    rw [same] at hcy ⊢
    exact (hx x hm).2.2 hcy
  · change s.dve.jobs.map (Job.halted j.shot p) = _
    rw [hjobs, List.map_append, List.map_cons, kept u mine hu]
  · obtain ⟨x, hm, rfl⟩ := List.mem_map.mp hy
    have same := urgent x (by rw [hjobs]; simp [hm]) hcy
    rw [same] at hcy ⊢
    exact hb x hm hcy

theorem stripeEnd_completes {v : State} (hc : j.cancel = false) (hn : p.next = j.mode.stripes) : stripeEnd j p v = completeJob j p v := by
  unfold stripeEnd
  rw [if_neg (by rw [hc]; decide), if_pos hn]

/-- A record whose raw is pinned stays as it is when its first proof is done (R54, R55). -/
theorem testRelease_completed (hr : s.record j.shot = some r) (hst : r.state = .stored) (hraw : r.raw.isSome = true)
    (hpins : r.rawPins ≠ 0) : testRelease j.shot (s.completed j p) = s.completed j p :=
  testRelease_rawWanted (r := { r with proofState := .done, proof := some (j.doneProof p) })
    (record_changed hr (fun x => { x with proofState := .done, proof := some (j.doneProof p) }) (fun _ => rfl) rfl) hraw
    (rawFree_wanted (.inl hpins)) (.inr (by rw [hst]; decide))

/-- The NORMAL job that was suspended goes on from where it stood (R117, R120). -/
theorem pick_resumes {x : Job} (hj : s.dve.jobs = [x]) (hst : x.state = .suspended) (hcls : x.cls = .normal) (hc : x.cancel = false)
    (ha : s.dve.applied = .normal) : pick s = { s with dve := { s.dve with jobs := [{ x with state := .running }] } } := by
  have current : s.currentJob = none := currentJob_none.mpr fun y hy => by
    rw [hj] at hy
    rw [List.mem_singleton.mp hy]
    simp [Job.isCurrent, hst]
  have next : s.nextPick = some x := by
    unfold State.nextPick State.oldestJob
    rw [ha, hj]
    simp [hst, hcls, hc]
  unfold pick
  rw [current, next]
  dsimp only
  rw [if_pos (by rw [hst]; rfl), updJob_eq s x.shot (f := fun y => { y with state := .running }) fun _ => ⟨rfl, rfl⟩, hj]
  simp

theorem pick_empty (hj : s.dve.jobs = []) : pick s = s := by
  have current : s.currentJob = none := currentJob_none.mpr fun y hy => by rw [hj] at hy; cases hy
  have next : s.nextPick = none := by
    unfold State.nextPick State.oldestJob
    rw [hj]
    cases s.dve.applied <;> rfl
  unfold pick
  rw [current, next]

/-- The proof state of a record whose job is gone says what proof is left (R45). -/
def Record.jobless (r : Record) : Record := { r with proofState := if r.proof.isSome then .done else .none }

/-- The only job is gone, and its unfinished chain is free (R45, R130). -/
def State.cancelled (n : Nat) (c : List Nat) (s : State) : State :=
  { State.withRecord { s with dve := { s.dve with jobs := [] } } n Record.jobless with
    fsc := { s.fsc with freeList := s.fsc.freeList ++ c } }

/-- No access, no frame and no job holds a chain up (R6). -/
theorem chainInUse_idle (hacc : s.fsc.accesses = []) (hframe : s.siu.frame = none) (hend : s.siu.ended = []) (hj : s.dve.jobs = [])
    (c : List Nat) : s.chainInUse c = false := by
  rw [chainInUse_eq, hacc, hframe, hend, hj]
  rfl

theorem noJobs_wait (h : s.dve.jobs = []) : ∀ c, s.currentJob = some c → c.state = .running := fun c hc => by
  have := (currentJob_some hc).1
  rw [h] at this
  cases this

/-- The unfinished chain of the only job goes back to the store (R10, R130). -/
theorem releaseChain_cancelled (hj : s.dve.jobs.filter (fun x => x.shot != n) = []) (hacc : s.fsc.accesses = [])
    (hframe : s.siu.frame = none) (hend : s.siu.ended = []) (c : List Nat) :
    releaseChain c ((s.dropJob n).updRecord n Record.jobless) = s.cancelled n c := by
  have idle : ((s.dropJob n).updRecord n Record.jobless).chainInUse c = false :=
    chainInUse_idle (s := (s.dropJob n).updRecord n Record.jobless) hacc hframe hend hj c
  rw [releaseChain_noWaiting (noJobs_wait hj), storeWith_free idle, updRecord_eq_withRecord (f := Record.jobless) _ _ fun _ => rfl]
  exact congrArg (fun l => { s.cancelled n c with dve := { s.dve with jobs := l } }) hj

theorem cancelled_dropRecord (n : Nat) (c : List Nat) (s : State) : (s.cancelled n c).dropRecord n = { s with
    fsc := { s.fsc with freeList := s.fsc.freeList ++ c }
    dve := { s.dve with jobs := [] }
    cat := { s.cat with records := s.cat.records.filter fun x => x.shot != n } } := by
  have drop := dropRecord_updRecord { s with dve := { s.dve with jobs := [] } } n Record.jobless
  rw [updRecord_eq_withRecord (f := Record.jobless) _ _ fun _ => rfl] at drop
  exact congrArg (fun t : State => { t with fsc := { s.fsc with freeList := s.fsc.freeList ++ c } }) drop

/-- A cancelled job ends: its unfinished chain is free, and a DELETE that waited for it is answered (R45, R54, R56, R130). -/
theorem endCancelled_deleted {c : List Nat} {tag : Byte} (hp : j.progress = some p)
    (hj : s.dve.jobs.filter (fun x => x.shot != j.shot) = [])
    (hr : s.record j.shot = some r) (hst : r.state = .deleting) (ht : r.deleteTag = some tag) (hproof : r.proof = none)
    (hc : r.raw = some c) (hpins : r.rawPins = 0) (hA : r.reqA.settled = true) (hB : r.reqB.settled = true)
    (ha : s.crw.slotA.writing = none) (hb : s.crw.slotB.writing = none) (hq : ∀ i ∈ s.ttc.queue, i.shot ≠ j.shot)
    (hx : s.ptc.read = none) (hacc : s.fsc.accesses = []) (hframe : s.siu.frame = none) (hend : s.siu.ended = []) :
    endCancelled j s = State.send (State.offer { s with
      fsc := { s.fsc with freeList := s.fsc.freeList ++ p.chain ++ c }
      dve := { s.dve with jobs := [] }
      cat := { s.cat with records := s.cat.records.filter fun x => x.shot != j.shot } } .body
        (.shotReleased j.shot true)) .body (.response 0x89 tag .ok false []) := by
  have noJob : (s.cancelled j.shot p.chain).job j.shot = none := rfl
  have gives : GivesRaw (s.cancelled j.shot p.chain) j.shot r.jobless c :=
    ⟨record_changed hr Record.jobless (fun _ => rfl) rfl, hc,
      rawFree_iff.mpr ⟨.inr hst, hpins, hA, hB, (record_shot hr).symm ▸ noJob⟩, .inr (noJobs_wait rfl)⟩
  have writing : ∀ i, (s.slot i).writing = none := fun i => by cases i <;> [exact ha; exact hb]
  have free : (s.cancelled j.shot p.chain).Unreferenced j.shot :=
    ⟨noJob, fun i w hw => absurd ((by cases i <;> exact hw : (s.slot i).writing = some w)) (by rw [writing i]; nofun),
      fun i hi hn => absurd hn (hq i hi), fun x hx' => absurd (show s.ptc.read = some x from hx') (by rw [hx]; nofun)⟩
  have idle := chainInUse_idle (s := s.cancelled j.shot p.chain) hacc hframe hend rfl c
  have ended : endCancelled j s
      = pick (testRelease j.shot (releaseChain p.chain ((s.dropJob j.shot).updRecord j.shot Record.jobless))) := by
    unfold endCancelled
    rw [hp]
    rfl
  rw [ended, releaseChain_cancelled hj hacc hframe hend, testRelease_goneAnswered gives hproof free ht, cancelled_dropRecord,
    storeWith_free idle, pick_empty]
  · rw [show (r.jobless.state == .deleting) = true by simp [Record.jobless, hst]]
    rfl
  · rfl

end Sys2Proof.Machine
end

section
/-! SUPPORT. STRIPE_COMPLETION (O37). -/

namespace Sys2Proof.Machine

variable {s t : State} {j : Job} {p : Progress} {r : Record} {d : Memory}

/-! ## Branches of the end of a stripe -/

/-- In the middle of a job that nothing preempts the stripe is all (R122, R123). -/
theorem afterStripe_plain (ht : s.dve.pendingThermal = none) (hc : j.cancel = false) (hn : p.next ≠ j.mode.stripes)
    (hot : s.dve.applied ≠ .hot) (hcls : j.cls = .normal → s.dve.applied = .normal
      ∧ ∀ x ∈ s.dve.jobs, x.cls = .urgent → x.state ≠ .queued ∧ x.state ≠ .suspended) :
    afterStripe j p (s.striped j p d) = s.striped j p d := by
  rw [afterStripe_none (by exact ht), stripeEnd_going hc hn]
  rw [Bool.eq_false_iff, Ne, preempted_iff]
  rintro (h | ⟨hj, h | h⟩)
  · exact hot h
  · rw [show s.dve.applied = .warm from h] at hcls
    exact absurd (hcls hj).1 (by decide)
  · obtain ⟨x, hx, hu, hs⟩ := (exists_progressed _ _ _).mp h
    obtain ⟨queued, suspended⟩ := (hcls hj).2 x hx hu
    exact hs.elim queued suspended

theorem preempted_striped : preempted j (s.striped j p d) = true ↔ s.dve.applied = .hot ∨ j.cls = .normal ∧ (s.dve.applied = .warm
    ∨ ∃ x ∈ s.dve.jobs, x.cls = .urgent ∧ (x.state = .queued ∨ x.state = .suspended)) :=
  (preempted_iff j _).trans (or_congr_right (and_congr_right fun _ => or_congr_right (exists_progressed _ _ _)))

/-- The last stripe of a job while no job waits for slabs (R129). -/
theorem afterStripe_last (hf : s.dve.jobs.find? (fun x => x.state == .running) = some j) (hr : s.record j.shot = some r)
    (hw : ∀ x ∈ s.dve.jobs, x.state ≠ .waitSlabs) (hc : j.cancel = false) (hn : p.next = j.mode.stripes) :
    afterStripe j p (s.striped j p d) = pick (ttcJobCompleted j.shot p.clipCount j.mode (State.proofTold j p
      (r.proof.elim ((s.thermalTaken.striped j p d).completed j p) fun old =>
        ((s.thermalTaken.striped j p d).completed j p).replacing j.shot old))) := by
  have waits : ∀ x ∈ (s.thermalTaken.striped j p d).dve.jobs, x.state ≠ .waitSlabs := fun y hy => by
    obtain ⟨x, hx, rfl⟩ := List.mem_map.mp hy
    rw [(progressed_keeps _ _ _).2.1]
    exact hw x hx
  rw [afterStripe_striped hf hw, stripeEnd_completes hc hn, completeJob_eq (by exact hr) waits]

theorem replaced_ttc (o : Option DoneProof) (t : State) (n : Nat) : (o.elim t fun old => t.replacing n old).ttc = t.ttc := by
  cases o <;> rfl

theorem itemFor_congr (h : t.ttc = s.ttc) (n : Nat) (c : Content) : t.itemFor n c = s.itemFor n c := by
  unfold State.itemFor
  rw [h]

/-- A proof that fails the clip test goes from the queue with its record's mark and pin (R169). -/
theorem leaveAndTest_proof {c : Ttc} {i : SendItem} {n : Nat} (ht : t.ttc = c) (hs : i.shot = n) (hc : i.content = .proof) :
    leaveAndTest i .dropped t = testRelease n (State.withRecord
      { t with ttc := { c with queue := c.queue.filter fun x => x.serial != i.serial } } n fun x =>
        { x with proofPins := x.proofPins - 1, markProof := .dropped }) := by
  subst ht hs
  rw [leaveAndTest, leaveQueue_itemGone, itemGone_eq, hc]
  rfl

theorem filter_progressed {l : List Job} (h : ∀ x ∈ l, x.shot ≠ j.shot) (p : Progress) :
    ((l ++ [j]).map (Job.progressed j.shot p)).filter (fun x => x.shot != j.shot) = l := by
  have gone : (([j].map (Job.progressed j.shot p)).filter fun x => x.shot != j.shot) = [] := by
    simp [(progressed_keeps j.shot p j).1]
  have kept : (l.map (Job.progressed j.shot p)).filter (fun x => x.shot != j.shot) = l := by
    rw [show l.map (Job.progressed j.shot p) = l from map_eq_self h]
    exact List.filter_eq_self.mpr fun x hx => by simpa using h x hx
  rw [List.map_append, List.filter_append, gone, kept, List.append_nil]

/-- The first proof of a record with a pinned raw and no item that waits for it (R129). -/
theorem afterStripe_first (hf : s.dve.jobs.find? (fun x => x.state == .running) = some j) (hr : s.record j.shot = some r)
    (hw : ∀ x ∈ s.dve.jobs, x.state ≠ .waitSlabs) (hc : j.cancel = false) (hn : p.next = j.mode.stripes)
    (ht : s.dve.pendingThermal = none) (hproof : r.proof = none) (hst : r.state = .stored) (hraw : r.raw.isSome = true)
    (hpins : r.rawPins ≠ 0) (hi : s.itemFor j.shot .proof = none) :
    afterStripe j p (s.striped j p d) = pick (((s.striped j p d).completed j p).offer .body (.proofDone j.shot j.number j.origin
      j.params.scale j.params.tone p.clipCount j.mode.quads p.histogram)) := by
  have ttc : (State.proofTold j p ((s.striped j p d).completed j p)).ttc = s.ttc := proofTold_ttc j p _
  have noItem : ∀ i, (State.proofTold j p ((s.striped j p d).completed j p)).itemFor j.shot .proof = some i → i.state ≠ .waitingProof :=
    fun i h => by
      rw [itemFor_congr ttc, hi] at h
      cases h
  rw [afterStripe_last hf hr hw hc hn, hproof, Option.elim_none, thermalTaken_none ht, ttcJobCompleted_idle noItem, State.proofTold,
    testRelease_completed (s := s.striped j p d) hr hst hraw hpins]

/-- The last stripe of a shot's first proof: a suspended NORMAL job, if there is one, goes on from where it stood (R120, R129). -/
theorem afterStripe_resumes {rest : List Job} (hf : s.dve.jobs.find? (fun x => x.state == .running) = some j)
    (hr : s.record j.shot = some r) (hc : j.cancel = false) (hn : p.next = j.mode.stripes) (ht : s.dve.pendingThermal = none)
    (hjobs : s.dve.jobs = rest ++ [j])
    (hrest : rest = [] ∨ ∃ n, rest = [n] ∧ n.state = .suspended ∧ n.cls = .normal ∧ n.cancel = false ∧ n.shot ≠ j.shot
      ∧ s.dve.applied = .normal)
    (hproof : r.proof = none) (hst : r.state = .stored) (hraw : r.raw.isSome = true) (hpins : r.rawPins ≠ 0)
    (hi : s.itemFor j.shot .proof = none) :
    afterStripe j p (s.striped j p d) = State.offer
      { (s.striped j p d).completed j p with dve := { s.dve with jobs := rest.map fun n => { n with state := .running } } } .body
      (.proofDone j.shot j.number j.origin j.params.scale j.params.tone p.clipCount j.mode.quads p.histogram) := by
  have run : j.state = .running := by simpa using List.find?_some hf
  have others : ∀ x ∈ rest, x.shot ≠ j.shot ∧ x.state ≠ .waitSlabs := by
    rcases hrest with rfl | ⟨n, rfl, hs, -, -, hne, -⟩
    · simp
    · intro x hx
      rw [List.mem_singleton.mp hx]
      exact ⟨hne, by rw [hs]; decide⟩
  have hw : ∀ x ∈ s.dve.jobs, x.state ≠ .waitSlabs := by
    intro x hx
    rw [hjobs] at hx
    rcases List.mem_append.mp hx with hx | hx
    · exact (others x hx).2
    · rw [List.mem_singleton.mp hx, run]
      decide
  have left : ((s.striped j p d).completed j p).dve.jobs = rest :=
    (congrArg (fun l => (l.map (Job.progressed j.shot p)).filter fun x => x.shot != j.shot) hjobs).trans
      (filter_progressed (fun x hx => (others x hx).1) p)
  rw [afterStripe_first hf hr hw hc hn ht hproof hst hraw hpins hi]
  rcases hrest with rfl | ⟨n, rfl, hs, hcls, hnc, -, ha⟩
  · rw [pick_empty (by exact left)]
    exact congrArg (fun l => State.offer { (s.striped j p d).completed j p with dve := { s.dve with jobs := l } } .body
      (.proofDone j.shot j.number j.origin j.params.scale j.params.tone p.clipCount j.mode.quads p.histogram)) left
  · exact pick_resumes left hs hcls hnc ha

/-- HOT, kept back while the job ran, suspends it and lets none go on (R116, R117, R123). -/
theorem afterStripe_hot (hf : s.dve.jobs.find? (fun x => x.state == .running) = some j) (hw : ∀ x ∈ s.dve.jobs, x.state ≠ .waitSlabs)
    (ht : s.dve.pendingThermal = some .hot) (hc : j.cancel = false) (hn : p.next ≠ j.mode.stripes) :
    afterStripe j p (s.striped j p d) = { s with
      dram := d
      dve := { s.dve with jobs := s.dve.jobs.map (Job.halted j.shot p), applied := .hot, pendingThermal := none } } := by
  have taken : s.thermalTaken.dve.applied = .hot := congrArg (Option.getD · s.dve.applied) ht
  rw [afterStripe_striped hf hw, stripeEnd_halting (s := s.thermalTaken) hc hn (preempted_striped.mpr (.inl taken)),
    pick_hot (by exact taken)]
  exact congrArg (fun v => { s with
    dram := d
    dve := { s.dve with jobs := s.dve.jobs.map (Job.halted j.shot p), applied := v, pendingThermal := none } }) taken

/-- A NORMAL job that meets a QUEUED URGENT one is SUSPENDED, and the other claims its slabs (R117, R118, R123). -/
theorem afterStripe_urgent {before after : List Job} {u : Job} (hj : j ∈ s.dve.jobs) (ht : s.dve.pendingThermal = none)
    (hn : p.next ≠ j.mode.stripes) (hc : j.cancel = false) (hcls : j.cls = .normal) (ha : s.dve.applied = .normal)
    (hjobs : s.dve.jobs = before ++ u :: after) (hu : u.cls = .urgent) (hq : u.state = .queued) (huc : u.cancel = false)
    (hd : (s.dve.jobs.map Job.shot).Nodup) (hb : ∀ x ∈ before, x.cls = .urgent → x.state ≠ .queued)
    (hx : ∀ x ∈ s.dve.jobs, x.state ≠ .waitSlabs
      ∧ (x.state = .running → x.shot = j.shot) ∧ (x.cls = .urgent → x.state ≠ .suspended)) :
    afterStripe j p (s.striped j p d) = claimFor u (s.halting j p d) := by
  have urgent : preempted j (s.striped j p d) = true :=
    preempted_striped.mpr (.inr ⟨hcls, .inr ⟨u, by rw [hjobs]; simp, hu, .inl hq⟩⟩)
  rw [afterStripe_none (by exact ht), stripeEnd_halting hc hn urgent, halting_picks hj hcls ha hjobs hu hq huc hd hb hx]

/-- Settles O37: the progress by the carried stripe, then the end of the stripe by the branches of R122. -/
theorem stripe : Obligations.Stripe := by
  refine fun s => ⟨fun h => ?_, fun j p r hf hp hr => ?_⟩
  · have none : s.dve.jobs.find? (fun x => x.state == .running) = none := List.find?_eq_none.mpr fun x hx => by simpa using h x hx
    have idle : stripeDone s = s := by
      unfold stripeDone
      rw [none]
    exact congrArg Host.Outcome.next idle
  intro done proof size dram going halted applied goes sample clipped pixels
  have hj := List.mem_of_find?_eq_some hf
  have run : j.state = .running := by simpa using List.find?_some hf
  have after : exec .stripeCompletion s = .next (afterStripe j done (s.striped j done dram)) := stripeDone_eq hf hp hr
  have clips := congrArg (fun x => p.clipCount + x) (stripeClips_eq s.dram (r.raw.getD []) j.mode (recipeOf j r s.dve) p.next)
  refine ⟨rfl, rfl, clips, carryStripe_histogram j r s.dve s.dram,
    carryStripe_memory j r p s.dve s.dram, fun ht hc hn hot hcls => ?_, fun hw hc hn => ⟨fun h => ?_, fun h => ?_⟩,
    fun hw hc hn => ?_, fun before u rest ht hc hn hcls ha hconf hjobs hu hq huc hd hb hx => ⟨fun hl => ?_, fun hl => ?_⟩,
    fun ht hc hn hx => ?_, fun rest ht hc hn hjobs hrest hproof hst hraw hpins hi => ?_,
    fun c tag ht hc hjobs hst htag hproof hraw hpins hA hB hsa hsb hq hx hacc hframe hend => ?_⟩
  · exact after.trans (congrArg Host.Outcome.next (afterStripe_plain ht hc hn hot hcls))
  · exact after.trans (congrArg Host.Outcome.next ((afterStripe_striped hf hw).trans (stripeEnd_halting (s := s.thermalTaken) hc hn
      (preempted_striped.mpr h))))
  · exact after.trans (congrArg Host.Outcome.next ((afterStripe_striped hf hw).trans
      (stripeEnd_going (u := s.thermalTaken.striped j done dram) hc hn (Bool.eq_false_iff.mpr fun e => h (preempted_striped.mp e)))))
  · intro ended replaced told
    have same : State.proofTold j done (r.proof.elim ((s.thermalTaken.striped j done dram).completed j done) fun old =>
        ((s.thermalTaken.striped j done dram).completed j done).replacing j.shot old) = told := by
      refine congrArg (State.proofTold j done) ?_
      dsimp only [replaced]
      cases r.proof <;> rfl
    have kept : told.ttc = s.ttc := by rw [← same, proofTold_ttc, replaced_ttc]; rfl
    have item := itemFor_congr kept j.shot .proof
    have last := after.trans (congrArg Host.Outcome.next ((afterStripe_last hf hr hw hc hn).trans
      (congrArg (fun t => pick (ttcJobCompleted j.shot done.clipCount j.mode t)) same)))
    refine ⟨fun hi => ?_, fun i hi hiw => ⟨fun hclip => ?_, fun hclip => ?_⟩⟩
    · rw [ttcJobCompleted_idle (by rw [item]; exact hi)] at last
      exact last
    · rw [ttcJobCompleted_waiting (item.trans hi) hiw, if_pos hclip, becomeReady_eq kept] at last
      exact last
    · obtain ⟨shot, content⟩ := itemFor_shot hi
      rw [ttcJobCompleted_waiting (item.trans hi) hiw, if_neg (by omega), leaveAndTest_proof kept shot content] at last
      exact last
  · exact after.trans (congrArg Host.Outcome.next ((afterStripe_urgent hj ht hn hc hcls ha hjobs hu hq huc hd hb hx).trans
      (claimFor_granted hconf hl)))
  · exact after.trans (congrArg Host.Outcome.next ((afterStripe_urgent hj ht hn hc hcls ha hjobs hu hq huc hd hb hx).trans
      (claimFor_refused (.inr hl))))
  · exact after.trans (congrArg Host.Outcome.next (afterStripe_hot hf (fun x hm => (hx x hm).1) ht hc hn))
  · exact after.trans (congrArg Host.Outcome.next (afterStripe_resumes hf hr hc hn ht hjobs hrest hproof hst hraw hpins hi))
  · have gone : (s.striped j done dram).dve.jobs.filter (fun x => x.shot != j.shot) = [] :=
      (congrArg (fun l => (l.map (Job.progressed j.shot done)).filter fun x => x.shot != j.shot) hjobs).trans
        (filter_progressed (l := []) (by simp) done)
    have ended : stripeEnd j done (s.striped j done dram) = endCancelled { j with progress := some done } (s.striped j done dram) :=
      if_pos hc
    exact after.trans (congrArg Host.Outcome.next ((afterStripe_none (by exact ht)).trans (ended.trans
      (endCancelled_deleted (p := done) rfl gone hr hst htag hproof hraw hpins hA hB hsa hsb hq hx hacc hframe hend))))

end Sys2Proof.Machine
end

section
/-! SUPPORT. The arithmetic of the FE: rounding (R69), clamps, and the first of the least entries of a list (R80, R91). -/

namespace Sys2Proof.Machine

/-! ## Rounding and clamps (R69) -/

theorem clampInt_eq {lo hi : Int} (h : lo ≤ hi) (v : Int) : clampInt lo hi v = max lo (min hi v) := by
  unfold clampInt
  split
  · omega
  · split <;> omega

theorem sat15_eq (n : Nat) : sat15 n = min 15 (n + 1) := by
  unfold sat15
  split <;> omega

/-- The quotient of the absolute values, rounded, takes the sign of the numerator; a half goes away from zero (R69). -/
theorem roundDiv_roundsTo (n : Int) {d : Nat} (hd : 0 < d) : roundsTo n d (roundDiv n d) := by
  let q := (2 * n.natAbs + d) / (2 * d)
  have lower : 2 * d * q ≤ 2 * n.natAbs + d := Nat.mul_div_le _ _
  have upper : 2 * n.natAbs + d < 2 * d * (q + 1) := Nat.lt_mul_div_succ _ (by omega)
  obtain ⟨p, hp⟩ : ∃ p, p = q * d := ⟨_, rfl⟩
  have lower : 2 * p ≤ 2 * n.natAbs + d := by rw [hp]; linarith
  have upper : 2 * n.natAbs + d < 2 * p + 2 * d := by rw [hp]; linarith
  have product : roundDiv n d * d = if n < 0 then -(p : Int) else (p : Int) := by
    rw [hp]
    show (if n < 0 then -(q : Int) else (q : Int)) * d = _
    split <;> push_cast <;> ring
  unfold roundsTo
  rw [product]
  split <;> omega

/-- A numerator of at most `k` denominators rounds to at most `k`. -/
theorem roundsTo_natAbs_le {n q : Int} {d k : Nat} (hd : 0 < d) (h : roundsTo n d q) (hn : n.natAbs ≤ k * d) : q.natAbs ≤ k := by
  by_contra hq
  have past : (k + 1) * d ≤ (q * d).natAbs := by
    rw [Int.natAbs_mul, Int.natAbs_natCast]
    exact Nat.mul_le_mul_right d (by omega)
  have near := h.1
  rw [Nat.add_mul, Nat.one_mul] at past
  omega

/-! ## The first of the least -/

section
variable {α : Type} {f : α → Int}

/-- An entry comes before another in the choice of `firstLeast`: its measure is less, or it stands before it with the same. -/
def Beats (f : α → Int) (r : α → α → Prop) (x y : α) : Prop := f x < f y ∨ f x = f y ∧ r x y

theorem firstLeast_mem (f : α → Int) (b : α) (xs : List α) : firstLeast f b xs ∈ b :: xs := by
  induction xs generalizing b with
  | nil => exact List.mem_singleton.mpr rfl
  | cons x xs ih =>
    have h := ih (if f x < f b then x else b)
    rw [firstLeast]
    split at h
    case isTrue hx => rw [if_pos hx]; exact List.mem_cons_of_mem _ h
    case isFalse hx =>
      rw [if_neg hx]
      rcases List.mem_cons.mp h with e | h
      · rw [e]; exact List.mem_cons_self
      · exact List.mem_cons_of_mem _ (List.mem_cons_of_mem _ h)

/-- In a list that stands in the order `r`, the entry that is chosen beats every one. -/
theorem firstLeast_beats {r : α → α → Prop} (refl : ∀ a, r a a) (trans : ∀ a b c, r a b → r b c → r a c) {b : α} {xs : List α}
    (h : (b :: xs).Pairwise r) : ∀ y ∈ b :: xs, Beats f r (firstLeast f b xs) y := by
  induction xs generalizing b with
  | nil =>
    intro y hy
    rw [List.mem_singleton.mp hy]
    exact .inr ⟨rfl, refl b⟩
  | cons x xs ih =>
    obtain ⟨hb, hx⟩ := List.pairwise_cons.mp h
    rw [firstLeast]
    by_cases less : f x < f b
    · rw [if_pos less]
      have best := ih hx
      intro y hy
      rcases List.mem_cons.mp hy with rfl | hy
      · rcases best x List.mem_cons_self with hl | ⟨he, -⟩
        · exact .inl (hl.trans less)
        · exact .inl (he ▸ less)
      · exact best y hy
    · rw [if_neg less]
      have best := ih (List.pairwise_cons.mpr ⟨fun y hy => hb y (List.mem_cons_of_mem _ hy), (List.pairwise_cons.mp hx).2⟩)
      intro y hy
      rcases List.mem_cons.mp hy with rfl | hy
      · exact best _ List.mem_cons_self
      rcases List.mem_cons.mp hy with rfl | hy
      · rcases best b List.mem_cons_self with hl | ⟨he, hr⟩
        · exact .inl (hl.trans_le (not_lt.mp less))
        · rcases (he.trans_le (not_lt.mp less)).lt_or_eq with hl | he
          · exact .inl hl
          · exact .inr ⟨he, trans _ _ _ hr (hb _ List.mem_cons_self)⟩
      · exact best y (List.mem_cons_of_mem _ hy)

theorem firstLeast_le (f : α → Int) (b : α) (xs : List α) : ∀ y ∈ b :: xs, f (firstLeast f b xs) ≤ f y := fun y hy => by
  rcases firstLeast_beats (f := f) (r := fun _ _ => True) (fun _ => trivial) (fun _ _ _ _ _ => trivial)
    (List.pairwise_of_forall fun _ _ => trivial) y hy with h | ⟨h, -⟩
  · exact h.le
  · exact h.le

end

end Sys2Proof.Machine
end

section
/-! SUPPORT. One zone's measurement (R77 to R86): contrast, SAD and the minimum shift, the interpolated phase, confidence, defocus, and
the state and figures of the zone result. -/

namespace Sys2Proof.Machine

/-! ## Contrast and SAD (R78, R79) -/

theorem profileAt_diff_le (xs ys : List ProfileSample) (i j : Nat) : (profileAt xs i - profileAt ys j).natAbs ≤ 4095 := by
  have hi := (xs.getD i 0).isLt
  have hj := (ys.getD j 0).isLt
  unfold profileAt
  omega

theorem sum_map_range_le {f : Nat → Nat} {b : Nat} (h : ∀ i, f i ≤ b) (n : Nat) : ((List.range n).map f).sum ≤ n * b := by
  have bound : ∀ x ∈ (List.range n).map f, x ≤ b := fun x hx => by
    obtain ⟨i, -, rfl⟩ := List.mem_map.mp hx
    exact h i
  simpa using List.sum_le_card_nsmul _ b bound

theorem contrast_le (p : AfPacket) : contrast p ≤ 257985 := sum_map_range_le (fun i => profileAt_diff_le p.left p.left (i + 1) i) 63

theorem sad_le (p : AfPacket) (s : Int) : sad p s ≤ 163800 :=
  sum_map_range_le (fun i => profileAt_diff_le p.left p.right (i + 12) ((i : Int) + 12 + s).toNat) 40

/-! ## The minimum shift (R80) -/

/-- The order in which R80 prefers two shifts of one SAD: the smaller absolute value, then the negative one. -/
def PreferredShift (a b : Int) : Prop := a.natAbs ≤ b.natAbs ∧ (a.natAbs = b.natAbs → a ≤ b)

theorem mem_shiftOrder {x : Int} : x ∈ shiftOrder ↔ -12 ≤ x ∧ x ≤ 12 := by
  constructor
  · revert x
    decide
  · rintro ⟨lo, hi⟩
    interval_cases x <;> decide

theorem shiftOrder_preferred : shiftOrder.Pairwise PreferredShift := by
  unfold PreferredShift
  decide

/-- The minimum shift is one of the 25, and beats each of them (R80). -/
theorem bestShift_mem (p : AfPacket) : bestShift p ∈ shiftOrder := firstLeast_mem _ 0 (shiftOrder.drop 1)

theorem bestShift_beats (p : AfPacket) : ∀ x ∈ shiftOrder, Beats (fun s => (sad p s : Int)) PreferredShift (bestShift p) x :=
  firstLeast_beats (b := 0) (xs := shiftOrder.drop 1) (fun _ => ⟨le_rfl, fun _ => le_rfl⟩)
    (fun _ _ _ ⟨hab, eab⟩ ⟨hbc, ebc⟩ => ⟨hab.trans hbc, fun _ => by omega⟩) shiftOrder_preferred

/-- Settles O27: the shifts are tried in the order in which R80 prefers them, and the first of the least is taken. -/
theorem minimumShift : Obligations.MinimumShift := by
  intro p
  obtain ⟨lo, hi⟩ := mem_shiftOrder.mp (bestShift_mem p)
  refine ⟨lo, hi, fun x hlo hhi => ?_⟩
  rcases bestShift_beats p x (mem_shiftOrder.mpr ⟨hlo, hhi⟩) with less | ⟨same, preferred⟩
  · have less : sad p (bestShift p) < sad p x := Int.ofNat_lt.mp less
    exact ⟨less.le, fun e => absurd e less.ne'⟩
  · exact ⟨(Int.ofNat_inj.mp same).le, fun _ => preferred⟩

/-! ## Interpolation, confidence, defocus (R81 to R84) -/

theorem interpolate_flat {a b c : Nat} (h : a + c = 2 * b) : interpolate a b c = 0 := if_neg (by omega)

theorem interpolate_roundsTo {a b c : Nat} (h : 2 * b < a + c) :
    roundsTo (8 * ((a : Int) - c)) (a + c - 2 * b) (interpolate a b c) := by
  have denominator : ((a : Int) - 2 * b + c).toNat = a + c - 2 * b := by omega
  unfold interpolate
  dsimp only
  rw [if_pos (by omega), denominator]
  exact roundDiv_roundsTo _ (by omega)

theorem interpolate_natAbs_le {a b c : Nat} (ha : b ≤ a) (hc : b ≤ c) : (interpolate a b c).natAbs ≤ 8 := by
  rcases (show 2 * b ≤ a + c by omega).lt_or_eq with h | h
  · exact roundsTo_natAbs_le (by omega) (interpolate_roundsTo h) (by omega)
  · rw [interpolate_flat h.symm]
    decide

theorem confidence_flat {a b c : Nat} (h : a = b ∨ c = b) : confidence a b c = 0 := by
  have rise : min a c - b = 0 := by omega
  rw [confidence, rise, Nat.mul_zero, Nat.zero_div, Nat.min_zero]

theorem defocus_roundsTo (p : Int) (kc : Nat) : ∃ d, roundsTo (p * kc) 256 d ∧ (defocus p kc).1 = max (-32767) (min 32767 d)
    ∧ ((defocus p kc).2 = true ↔ d < -32767 ∨ 32767 < d) := by
  refine ⟨roundDiv (p * kc) 256, roundDiv_roundsTo _ (by decide), clampInt_eq (by decide) _, ?_⟩
  unfold defocus
  simp only [Bool.or_eq_true, decide_eq_true_eq]

/-! ## The zone's state (R77, R78, R81, R83, R85) -/

section
variable {z : Zone} (lens : Lens) (far near : Nat) {k : AfPacket}

theorem limiter_eq (t : Int) (far near : Nat) : limiter t far near = if t < far ∨ near < t then .clipped else .valid := by
  unfold limiter
  simp only [Bool.or_eq_true, decide_eq_true_eq]

theorem zoneResult_inactive (h : z.active = false) (p : Option AfPacket) : zoneResult z lens far near p = .plain .inactive :=
  if_pos (by rw [h]; rfl)

theorem zoneResult_active (h : z.active = true) (p : Option AfPacket) : zoneResult z lens far near p = match p with
    | none => .plain .noData
    | some k => if contrast k < z.contrastFloor then { ZoneResult.plain .lowContrast with c := some (contrast k) }
      else correlate z lens far near k :=
  (if_neg (by rw [h]; decide)).trans (by cases p <;> rfl)

theorem zoneResult_lowContrast (h : z.active = true) (hc : contrast k < z.contrastFloor) :
    zoneResult z lens far near (some k) = { ZoneResult.plain .lowContrast with c := some (contrast k) } :=
  (zoneResult_active lens far near h _).trans (if_pos hc)

theorem zoneResult_correlate (h : z.active = true) (hc : z.contrastFloor ≤ contrast k) :
    zoneResult z lens far near (some k) = correlate z lens far near k :=
  (zoneResult_active lens far near h _).trans (if_neg (by omega))

/-- The interpolated phase P of a packet (R82). -/
def AfPacket.phase (k : AfPacket) : Int :=
  16 * bestShift k + interpolate (sad k (bestShift k - 1)) (sad k (bestShift k)) (sad k (bestShift k + 1))

/-- The confidence Q of a packet (R83). -/
def AfPacket.quality (k : AfPacket) : Nat :=
  confidence (sad k (bestShift k - 1)) (sad k (bestShift k)) (sad k (bestShift k + 1))

theorem ZoneResult.placed_eq (st : ZoneState) (c : Nat) (p : Int) (q : Nat) (lens : Lens) : ZoneResult.placed st c p q lens =
    { state := st, c := some c, p := some p, q := some q, d := some (defocus p lens.kc).1,
      t := some ((lens.position : Int) + (defocus p lens.kc).1), dClamped := (defocus p lens.kc).2 } := rfl

/-- A zone that passed the contrast test is EDGE, LOW_CONFIDENCE, or placed by the limiter (R81, R83, R85). -/
theorem correlate_eq (z : Zone) (lens : Lens) (far near : Nat) (k : AfPacket) : correlate z lens far near k =
    if bestShift k = -12 ∨ bestShift k = 12 then .placed .edge (contrast k) (16 * bestShift k) 0 lens
    else if k.quality < z.confidenceFloor then
      { ZoneResult.plain .lowConfidence with c := some (contrast k), p := some k.phase, q := some k.quality }
    else .placed (limiter ((lens.position : Int) + (defocus k.phase lens.kc).1) far near) (contrast k) k.phase k.quality lens := by
  unfold correlate
  simp only [Bool.or_eq_true, decide_eq_true_eq]
  rfl

end

/-! ## The frame result (R75, R77, R86) -/

theorem computeResult_noLens {l : Latched} (h : l.lens = none) : (computeResult l).zones = uniformZones .noLens l.zones := by
  unfold computeResult
  rw [h]

theorem computeResult_lens {l : Latched} {lens : Lens} (h : l.lens = some lens) :
    (computeResult l).zones = List.zipWith (fun z k => zoneResult z lens l.far l.near k) l.zones l.packets := by
  unfold computeResult
  rw [h]
  exact List.map_zip_eq_zipWith

theorem overrunResult_zones (l : Latched) :
    (overrunResult l).zones = uniformZones (if l.lens = none then .noLens else .noData) l.zones := by
  unfold overrunResult
  simp only [Option.isNone_iff_eq_none]

/-- Settles O28, figure by figure and state by state. -/
theorem zoneFigures : Obligations.ZoneFigures := by
  refine ⟨fun p => ⟨rfl, contrast_le p, fun x => ⟨sad_le p x, fun _ _ => rfl⟩⟩, fun a b c ha hc => ?_, defocus_roundsTo,
    fun z lens far near => zoneResult_inactive lens far near, fun z lens far near h => ⟨zoneResult_active lens far near h none, ?_⟩,
    fun l => ⟨computeResult_noLens, fun _ => computeResult_lens, overrunResult_zones l⟩⟩
  · have bound := interpolate_natAbs_le ha hc
    exact ⟨interpolate_flat, interpolate_roundsTo, by omega, by omega, rfl, confidence_flat⟩
  · refine fun k => ⟨zoneResult_lowContrast lens far near h, fun hc he => ?_, fun hc hlo hhi => ⟨fun (hq : k.quality < _) => ?_,
      fun (hq : _ ≤ k.quality) => ?_⟩⟩
    · rw [zoneResult_correlate lens far near h hc, correlate_eq, if_pos he, ZoneResult.placed_eq]
    · rw [zoneResult_correlate lens far near h hc, correlate_eq, if_neg (not_or.mpr ⟨hlo, hhi⟩), if_pos hq]
      rfl
    · rw [zoneResult_correlate lens far near h hc, correlate_eq, if_neg (not_or.mpr ⟨hlo, hhi⟩), if_neg (not_lt.mpr hq), limiter_eq,
        ZoneResult.placed_eq]
      rfl

end Sys2Proof.Machine
end

section
/-! SUPPORT. The subject followed from frame to frame (R91 to R97): candidates, the winner, history, velocity and prediction, the lock. -/

namespace Sys2Proof.Machine

/-! ## Candidates and the winner (R91) -/

/-- A zone result is VALID and has the figures of a candidate. -/
def ZoneResult.Shows (z : ZoneResult) (x : Candidate) : Prop :=
  z.state = .valid ∧ z.c = some x.c ∧ z.p = some x.p ∧ z.q = some x.q ∧ z.d = some x.d ∧ z.t = some x.t ∧ z.dClamped = x.dClamped

theorem ZoneResult.Shows.unique {z : ZoneResult} {x y : Candidate} (hx : z.Shows x) (hy : z.Shows y) (h : x.zone = y.zone) : x = y := by
  obtain ⟨-, c, p, q, d, t, b⟩ := hx
  obtain ⟨-, c', p', q', d', t', b'⟩ := hy
  cases x
  cases y
  simp_all

/-- The first zone is a candidate if it is VALID with its figures, and is passed over otherwise. -/
theorem candidates_cons (k : Nat) (z : ZoneResult) (zs : List ZoneResult) :
    (∃ x, x.zone = k ∧ z.Shows x ∧ candidates k (z :: zs) = x :: candidates (k + 1) zs)
      ∨ (∀ x, ¬ z.Shows x) ∧ candidates k (z :: zs) = candidates (k + 1) zs := by
  rw [candidates]
  split
  case _ hst hc hp hq hd ht => exact .inl ⟨_, rfl, ⟨hst, hc, hp, hq, hd, ht, rfl⟩, rfl⟩
  case _ other => exact .inr ⟨fun x ⟨hst, hc, hp, hq, hd, ht, _⟩ => other _ _ _ _ _ hst hc hp hq hd ht, rfl⟩

theorem mem_candidates {k : Nat} {zs : List ZoneResult} {x : Candidate} :
    x ∈ candidates k zs ↔ k ≤ x.zone ∧ ∃ z, zs[x.zone - k]? = some z ∧ z.Shows x := by
  induction zs generalizing k with
  | nil => simp [candidates]
  | cons z zs ih =>
    have later : k ≠ x.zone → ((k ≤ x.zone ∧ ∃ y, (z :: zs)[x.zone - k]? = some y ∧ y.Shows x) ↔ x ∈ candidates (k + 1) zs) := by
      intro hk
      rw [ih]
      by_cases h : k + 1 ≤ x.zone
      · rw [show x.zone - k = x.zone - (k + 1) + 1 by omega, List.getElem?_cons_succ]
        exact ⟨fun e => ⟨h, e.2⟩, fun e => ⟨by omega, e.2⟩⟩
      · exact ⟨fun e => absurd e.1 (by omega), fun e => absurd e.1 h⟩
    have here : k = x.zone → ((k ≤ x.zone ∧ ∃ y, (z :: zs)[x.zone - k]? = some y ∧ y.Shows x) ↔ z.Shows x) := by
      rintro rfl
      simp
    have passed : k = x.zone → x ∉ candidates (k + 1) zs := fun e h => absurd (ih.mp h).1 (by omega)
    rcases candidates_cons k z zs with ⟨y, hy, shown, e⟩ | ⟨hidden, e⟩ <;> rw [e]
    · rw [List.mem_cons]
      by_cases hk : k = x.zone
      · rw [here hk, or_iff_left (passed hk)]
        exact ⟨fun e => e ▸ shown, fun hx => hx.unique shown (by omega)⟩
      · rw [later hk, or_iff_right fun e => hk (by rw [e, hy])]
    · by_cases hk : k = x.zone
      · rw [here hk]
        exact ⟨fun h => absurd h (passed hk), fun h => absurd h (hidden x)⟩
      · exact (later hk).symm

theorem candidates_pairwise (k : Nat) (zs : List ZoneResult) : (candidates k zs).Pairwise fun a b => a.zone < b.zone := by
  induction zs generalizing k with
  | nil => exact .nil
  | cons z zs ih =>
    rcases candidates_cons k z zs with ⟨x, hx, -, e⟩ | ⟨-, e⟩ <;> rw [e]
    · exact .cons (fun y hy => by have := (mem_candidates.mp hy).1; omega) (ih (k + 1))
    · exact ih (k + 1)

section
variable {m : FocusMode} {prev : Option Int} {cs : List Candidate} {x : Candidate}

theorem selectZone_eq_none : selectZone m prev cs = none ↔ cs = [] := by cases cs <;> simp [selectZone]

theorem selectZone_mem (h : selectZone m prev cs = some x) : x ∈ cs := by
  cases cs with
  | nil => cases h
  | cons c cs =>
    cases h
    exact firstLeast_mem _ c cs

theorem selectZone_le (h : selectZone m prev cs = some x) : ∀ y ∈ cs, focusMeasure m prev x ≤ focusMeasure m prev y := by
  cases cs with
  | nil => cases h
  | cons c cs =>
    cases h
    exact firstLeast_le _ c cs

/-- Among candidates in zone order the winner is the lowest of its measure (R91). -/
theorem selectZone_lowest (h : selectZone m prev cs = some x) (hp : cs.Pairwise fun a b => a.zone < b.zone) :
    ∀ y ∈ cs, focusMeasure m prev y = focusMeasure m prev x → x.zone ≤ y.zone := by
  cases cs with
  | nil => cases h
  | cons c cs =>
    cases h
    intro y hy same
    rcases firstLeast_beats (f := focusMeasure m prev) (r := fun a b => a.zone ≤ b.zone) (fun _ => le_rfl)
      (fun _ _ _ => Nat.le_trans) (hp.imp Nat.le_of_lt) y hy with less | ⟨-, before⟩
    · exact absurd same less.ne'
    · exact before

/-- The measures, written out by priority mode (R91). -/
theorem focusMeasure_le (x y : Candidate) : focusMeasure m prev x ≤ focusMeasure m prev y ↔ (match m, prev with
    | .near, _ => y.t ≤ x.t
    | .far, _ => x.t ≤ y.t
    | .closest, _ => x.d.natAbs ≤ y.d.natAbs
    | .track, some t => (x.t - t).natAbs ≤ (y.t - t).natAbs
    | .track, none => y.t ≤ x.t) := by
  cases m with
  | near => exact neg_le_neg_iff
  | far => exact Iff.rfl
  | closest => exact Int.ofNat_le
  | track => cases prev with
    | none => exact neg_le_neg_iff
    | some t => exact Int.ofNat_le

end

/-! ## History, velocity, prediction (R92 to R95) -/

theorem joinHistory_eq (h : List Track) (e : Track) : joinHistory h e = (if h.length < 4 then h else h.tail) ++ [e] := by
  unfold joinHistory
  rw [List.drop_one]
  by_cases hl : h.length < 4
  · rw [if_pos hl, if_neg (show ¬ Config.maxHistory ≤ h.length from hl.not_ge)]
  · rw [if_neg hl, if_pos (show Config.maxHistory ≤ h.length from not_lt.mp hl)]

theorem velocity_short {h : List Track} (hl : h.length < 2) : velocity h = 0 := by
  match h, hl with
  | [], _ => rfl
  | [_], _ => rfl

/-- The velocity from the oldest entry to the newest (R94). -/
theorem velocity_ends (a n : Track) (h : List Track) : velocity (a :: h ++ [n]) =
    roundDiv (16 * (n.target - a.target)) ((n.frame + Config.wrap32 - a.frame) % Config.wrap32) := by
  cases h with
  | nil => rfl
  | cons b h =>
    rw [List.cons_append, List.cons_append, velocity]
    simp only [← List.cons_append, List.getLast_append_singleton]

theorem rawPrediction_roundsTo (t v : Int) (lead : Nat) : ∃ x, roundsTo (v * lead) 16 x ∧ rawPrediction t v lead = t + x :=
  ⟨_, roundDiv_roundsTo _ (by decide), rfl⟩

section
variable {raw t : Int} {prev : Option Int} {policy : TravelPolicy} {lens : Lens}

theorem predict_inTravel (hlo : (lens.travelMin : Int) ≤ raw) (hhi : raw ≤ lens.travelMax) :
    predict raw t prev policy lens = (raw, .inTravel) := if_pos (by simp [hlo, hhi])

theorem not_inTravel (h : raw < lens.travelMin ∨ lens.travelMax < raw) :
    ¬ (decide ((lens.travelMin : Int) ≤ raw) && decide (raw ≤ lens.travelMax)) = true := by
  simp only [Bool.and_eq_true, decide_eq_true_eq]
  omega

theorem predict_clamp (h : raw < lens.travelMin ∨ lens.travelMax < raw) :
    predict raw t prev .clamp lens = (clampInt lens.travelMin lens.travelMax raw, .atLimit) := if_neg (not_inTravel h)

theorem predict_hold (h : raw < lens.travelMin ∨ lens.travelMax < raw) :
    predict raw t prev .hold lens = (clampInt lens.travelMin lens.travelMax (prev.getD t), .held) := if_neg (not_inTravel h)

theorem clampInt_mem {lo hi : Int} (h : lo ≤ hi) (v : Int) : lo ≤ clampInt lo hi v ∧ clampInt lo hi v ≤ hi := by
  rw [clampInt_eq h]
  omega

/-- The published prediction lies in the travel, whatever rule gives it (R95). -/
theorem predict_mem (h : lens.travelMin ≤ lens.travelMax) :
    (lens.travelMin : Int) ≤ (predict raw t prev policy lens).1 ∧ (predict raw t prev policy lens).1 ≤ lens.travelMax := by
  by_cases hr : raw < lens.travelMin ∨ lens.travelMax < raw
  · cases policy with
    | clamp => rw [predict_clamp hr]; exact clampInt_mem (by omega) _
    | hold => rw [predict_hold hr]; exact clampInt_mem (by omega) _
  · rw [predict_inTravel (by omega) (by omega)]
    exact ⟨by omega, by omega⟩

end

/-! ## Steps 2 to 4 of the ready event (R90, R93, R97) -/

theorem Fe.lose_eq (f : Fe) : f.lose = { f with
    noSelection := min 15 (f.noSelection + 1)
    history := if f.params.trackLoss ≤ min 15 (f.noSelection + 1) then [] else f.history
    previous := if f.params.trackLoss ≤ min 15 (f.noSelection + 1) then none else f.previous } := by
  unfold Fe.lose
  rw [sat15_eq]
  dsimp only
  split <;> rfl

/-- Without a winner, or a lens state, the run of frames without a selection goes on (R93). -/
theorem Fe.followSubject_lost {f : Fe} {r : FrameResult}
    (h : selectZone f.params.mode (f.history.getLast?.map Track.target) (candidates 0 r.zones) = none ∨ r.lens = none) :
    f.followSubject r = (none, f.lose) := by
  unfold Fe.followSubject
  split
  case _ hx hl => rcases h with h | h <;> simp_all
  case _ => rfl

/-- With a winner its target joins the history, and the prediction is made (R92, R94, R95). -/
theorem Fe.followSubject_won {f : Fe} {r : FrameResult} {x : Candidate} {lens : Lens}
    (hx : selectZone f.params.mode (f.history.getLast?.map Track.target) (candidates 0 r.zones) = some x) (hl : r.lens = some lens) :
    f.followSubject r = (some (f.track x r.frame lens).1, (f.track x r.frame lens).2) := by
  unfold Fe.followSubject
  rw [hx, hl]

/-- The lock while UNLOCKED counts the frames inside, and LOCKED those outside (R97). -/
theorem Fe.lockStep_unlocked {f : Fe} (h : f.locked = false) (d : Option Int) : f.lockStep d =
    let n := if inside d f.params.eIn then sat15 f.inCount else 0
    if f.params.m ≤ n then { f with locked := true, inCount := n, outCount := 0 } else { f with inCount := n } :=
  if_neg (by rw [h]; decide)

theorem Fe.lockStep_locked {f : Fe} (h : f.locked = true) (d : Option Int) : f.lockStep d =
    let n := if inside d f.params.eOut then 0 else sat15 f.outCount
    if f.params.n ≤ n then { f with locked := false, inCount := 0, outCount := n } else { f with outCount := n } :=
  if_pos h

theorem inside_of_le {d : Option Int} {x : Int} {e : Nat} (hd : d = some x) (h : x.natAbs ≤ e) : inside d e = true := by
  rw [hd]
  exact decide_eq_true h

theorem not_inside {d : Option Int} {e : Nat} (h : ∀ x, d = some x → e < x.natAbs) : inside d e = false := by
  cases d with
  | none => rfl
  | some x => exact decide_eq_false (not_le.mpr (h x rfl))

/-- Settles O30, rule by rule. -/
theorem followingTheSubject : Obligations.FollowingTheSubject := by
  refine ⟨fun zs x => ⟨by simp [mem_candidates, ZoneResult.Shows], candidates_pairwise 0 zs⟩,
    fun m prev cs => ⟨selectZone_eq_none, fun x h => ⟨selectZone_mem h, fun y hy => ⟨?_, fun hp => selectZone_lowest h hp y hy⟩⟩⟩,
    fun f r => ⟨fun h _ => (Fe.followSubject_lost h).trans (congrArg _ f.lose_eq), fun x lens hx hl => ?_⟩,
    fun _ => velocity_short, fun a n h ha hn ne => ?_, rawPrediction_roundsTo, fun raw t prev policy lens h => ?_, fun f d => ?_⟩
  · have least := (focusMeasure_le x y).mp (selectZone_le h y hy)
    cases m <;> cases prev <;> exact least
  · rw [Fe.followSubject_won hx hl, Fe.track, joinHistory_eq]
  · have frames : (n.frame + Config.wrap32 - a.frame) % Config.wrap32 = (n.frame + (4294967296 - a.frame)) % 4294967296 := by
      show (n.frame + 4294967296 - a.frame) % 4294967296 = _
      congr 1
      omega
    rw [velocity_ends, frames]
    exact roundDiv_roundsTo _ (by omega)
  · refine ⟨(predict_mem h).1, (predict_mem h).2, predict_inTravel, fun hr => ?_, fun hr => ?_, fun hr => ?_⟩
    · rw [predict_clamp (.inl hr), clampInt_eq (by omega), max_eq_left (by omega)]
    · rw [predict_clamp (.inr hr), clampInt_eq (by omega), min_eq_left hr.le, max_eq_right (by omega)]
    · rw [predict_hold hr, clampInt_eq (by omega)]
  · refine ⟨fun hu x hd hx => ?_, fun hu hm hx => ?_, fun hl hn x hd hx => ?_, fun hl hx => ?_⟩
    · rw [Fe.lockStep_unlocked hu, inside_of_le hd hx]
      rfl
    · rw [Fe.lockStep_unlocked hu, not_inside hx]
      exact if_neg (Nat.not_le.mpr hm)
    · rw [Fe.lockStep_locked hl, inside_of_le hd hx]
      exact if_neg (Nat.not_le.mpr hn)
    · rw [Fe.lockStep_locked hl, not_inside hx]
      rfl

end Sys2Proof.Machine
end

section
/-! SUPPORT. The FE's law (R70 to R104): each part of it under the changes that touch it, and every command. -/

namespace Sys2Proof.Machine

/-! ## The law by its parts -/

/-- The focus parameters in their ranges (R88, R89). -/
structure FocusParams.Ok (p : FocusParams) : Prop where
  limits : p.far ≤ 16383 ∧ p.near ≤ 16383
  tolerances : p.eIn ≤ p.eOut ∧ p.eOut ≤ 32767
  m : 1 ≤ p.m ∧ p.m ≤ 15
  n : 1 ≤ p.n ∧ p.n ≤ 15
  lead : p.lead ≤ 8
  trackLoss : 1 ≤ p.trackLoss ∧ p.trackLoss ≤ 15

/-- What the tracking remembers, in its bounds (R92, R93, R95). -/
structure TrackingOk (history : List Track) (previous : Option Int) (noSelection : Nat) : Prop where
  history : history.length ≤ 4
  previous : ∀ p, previous = some p → 0 ≤ p ∧ p ≤ 16383
  noSelection : noSelection ≤ 15

/-- The law of the FE. -/
structure Fe.Ok (f : Fe) : Prop where
  zones : f.zones.length = 48 ∧ ∀ z ∈ f.zones, z.contrastFloor ≤ 262143 ∧ z.confidenceFloor ≤ 4095
  collect : f.collect.length = 48 ∧ ∀ p, some p ∈ f.collect → p.left.length = 64 ∧ p.right.length = 64
  lens : ∀ l, f.lens = some l → l.inRange ∧ f.lensPresent = true
  inFlight : ∀ x, f.inFlight = some x → x.zones.length = 48 ∧ x.packets.length = 48 ∧ ∀ l, x.lens = some l → l.inRange
  params : f.params.Ok
  tracking : TrackingOk f.history f.previous f.noSelection
  lock : f.inCount ≤ 15 ∧ f.outCount ≤ 15
  watch : f.watch ≠ .none → f.lensPresent = true

theorem focusLaw_iff (s : State) : focusLaw s ↔ s.fe.Ok := by
  constructor
  · rintro ⟨z, zr, c, cr, l, i, far, near, eIn, eOut, m, m', n, n', lead, t, t', h, ns, ic, oc, p, w⟩
    exact ⟨⟨z, zr⟩, ⟨c, cr⟩, l, i, ⟨⟨far, near⟩, ⟨eIn, eOut⟩, ⟨m, m'⟩, ⟨n, n'⟩, lead, t, t'⟩, ⟨h, p, ns⟩, ⟨ic, oc⟩, w⟩
  · rintro ⟨⟨z, zr⟩, ⟨c, cr⟩, l, i, ⟨⟨far, near⟩, ⟨eIn, eOut⟩, ⟨m, m'⟩, ⟨n, n'⟩, lead, t, t'⟩, ⟨h, p, ns⟩, ⟨ic, oc⟩, w⟩
    exact ⟨z, zr, c, cr, l, i, far, near, eIn, eOut, m, m', n, n', lead, t, t', h, ns, ic, oc, p, w⟩

/-! ## Tracking and lock under a ready event (R90 to R97) -/

theorem sat15_le (n : Nat) : sat15 n ≤ 15 := by
  rw [sat15_eq]
  exact Nat.min_le_left _ _

theorem TrackingOk.cleared (n : Nat) (h : n ≤ 15) : TrackingOk [] none n := ⟨Nat.zero_le 4, fun _ e => (by cases e), h⟩

theorem joinHistory_length_le {h : List Track} (hl : h.length ≤ 4) (e : Track) : (joinHistory h e).length ≤ 4 := by
  rw [joinHistory_eq, List.length_append, List.length_singleton]
  split
  · omega
  · rw [List.length_tail]
    omega

/-- The prediction is a lens position, since the travel is (R72, R95). -/
theorem predict_position {raw t : Int} {prev : Option Int} {policy : TravelPolicy} {lens : Lens} (h : lens.inRange) :
    0 ≤ (predict raw t prev policy lens).1 ∧ (predict raw t prev policy lens).1 ≤ 16383 := by
  obtain ⟨-, -, -, ordered, top⟩ := h
  obtain ⟨lo, hi⟩ := predict_mem (raw := raw) (t := t) (prev := prev) (policy := policy) ordered
  exact ⟨by omega, by omega⟩

section
variable {f : Fe}

theorem Fe.Ok.withTracking (h : f.Ok) {history : List Track} {previous : Option Int} {n : Nat} (t : TrackingOk history previous n) :
    ({ f with history := history, previous := previous, noSelection := n } : Fe).Ok :=
  ⟨h.zones, h.collect, h.lens, h.inFlight, h.params, t, h.lock, h.watch⟩

theorem Fe.Ok.lose (h : f.Ok) : f.lose.Ok := by
  rw [f.lose_eq]
  refine h.withTracking ⟨?_, fun p hp => ?_, Nat.min_le_left _ _⟩
  · split
    · exact Nat.zero_le 4
    · exact h.tracking.history
  · split at hp
    · cases hp
    · exact h.tracking.previous p hp

theorem Fe.Ok.track (h : f.Ok) (x : Candidate) (frame : Nat) {lens : Lens} (hl : lens.inRange) : (f.track x frame lens).2.Ok := by
  refine h.withTracking ⟨joinHistory_length_le h.tracking.history _, fun p hp => ?_, Nat.zero_le 15⟩
  cases hp
  exact predict_position hl

theorem Fe.Ok.followSubject (h : f.Ok) {r : FrameResult} (hr : ∀ l, r.lens = some l → l.inRange) : (f.followSubject r).2.Ok := by
  cases hx : selectZone f.params.mode (f.history.getLast?.map Track.target) (candidates 0 r.zones) with
  | none =>
    rw [Fe.followSubject_lost (.inl hx)]
    exact h.lose
  | some x => cases hl : r.lens with
    | none =>
      rw [Fe.followSubject_lost (.inr hl)]
      exact h.lose
    | some lens =>
      rw [Fe.followSubject_won hx hl]
      exact h.track x r.frame (hr lens hl)

theorem Fe.Ok.withLock (h : f.Ok) (locked : Bool) {i o : Nat} (hi : i ≤ 15) (ho : o ≤ 15) :
    ({ f with locked := locked, inCount := i, outCount := o } : Fe).Ok :=
  ⟨h.zones, h.collect, h.lens, h.inFlight, h.params, h.tracking, ⟨hi, ho⟩, h.watch⟩

theorem Fe.Ok.lockStep (h : f.Ok) (d : Option Int) : (f.lockStep d).Ok := by
  have count : ∀ (b : Bool) (n : Nat), (if b then 0 else sat15 n) ≤ 15 ∧ (if b then sat15 n else 0) ≤ 15 := by
    intro b n
    cases b
    · exact ⟨sat15_le n, Nat.zero_le 15⟩
    · exact ⟨Nat.zero_le 15, sat15_le n⟩
  cases hf : f.locked with
  | true =>
    rw [Fe.lockStep_locked hf]
    have bound := (count (inside d f.params.eOut) f.outCount).1
    extract_lets n
    split
    · exact h.withLock false (Nat.zero_le 15) bound
    · exact h.withLock f.locked h.lock.1 bound
  | false =>
    rw [Fe.lockStep_unlocked hf]
    have bound := (count (inside d f.params.eIn) f.inCount).2
    extract_lets n
    split
    · exact h.withLock true bound (Nat.zero_le 15)
    · exact h.withLock f.locked bound h.lock.2

theorem Fe.Ok.published (h : f.Ok) {r : FrameResult} (hr : ∀ l, r.lens = some l → l.inRange) : (f.published r).Ok := by
  obtain ⟨zones, collect, lens, inFlight, params, tracking, lock, watch⟩ :=
    (h.followSubject hr).lockStep ((f.followSubject r).1.map Selection.d)
  exact ⟨zones, collect, lens, inFlight, params, tracking, lock, watch⟩

/-! ## Packets, frame ends, the lens-present line, reset (R74, R75, R104, R202) -/

/-- Where no packet has come, each of the 48 places is free (R74). -/
theorem noPackets_ok : (List.replicate Config.zones (none : Option AfPacket)).length = 48
    ∧ ∀ p : AfPacket, some p ∈ List.replicate Config.zones none → p.left.length = 64 ∧ p.right.length = 64 :=
  ⟨List.length_replicate, fun _ hp => by cases List.eq_of_mem_replicate hp⟩

theorem Fe.Ok.latch (h : f.Ok) (n : Nat) (b : Bool) : (f.latch n b).Ok := by
  refine ⟨h.zones, noPackets_ok, h.lens, fun x hx => ?_, h.params, h.tracking, h.lock, h.watch⟩
  cases hx
  exact ⟨h.zones.1, h.collect.1, fun l hl => (h.lens l hl).1⟩

theorem Fe.Ok.detach (h : f.Ok) : f.detach.Ok :=
  ⟨h.zones, h.collect, fun _ e => (by cases e), h.inFlight, h.params, .cleared 0 (Nat.zero_le 15), ⟨Nat.zero_le 15, Nat.zero_le 15⟩,
    fun e => absurd rfl e⟩

theorem FocusParams.reset_ok : FocusParams.reset.Ok := by constructor <;> decide

theorem Fe.reset_ok (b : Bool) : (Fe.reset b).Ok := by
  refine ⟨⟨List.length_replicate, fun z hz => ?_⟩, noPackets_ok, fun _ e => (by cases e), fun _ e => (by cases e), FocusParams.reset_ok,
    .cleared 0 (Nat.zero_le 15), ⟨Nat.zero_le 15, Nat.zero_le 15⟩, fun e => absurd rfl e⟩
  rw [List.eq_of_mem_replicate hz]
  decide

end

/-! ## Every command -/

theorem focusLaw.congr {s t : State} (h : focusLaw s) (e : t.fe = s.fe) : focusLaw t := (focusLaw_iff t).mpr (e ▸ (focusLaw_iff s).mp h)

theorem Cascade.keeps_focus {s t : State} (c : Cascade s t) (h : focusLaw s) : focusLaw t := h.congr c.frame.2.2.2.1

theorem suspendAutosend_keeps_focus {s : State} (h : focusLaw s) : focusLaw (suspendAutosend s) :=
  Cascade.keeps_focus ((Cascade.offerTether _ _ rfl).trans (.offerClass _ Classes.autosend _ rfl)) h

theorem detachSession_keeps_focus {s : State} (h : focusLaw s) : focusLaw (detachSession s) := by
  unfold detachSession
  dsimp only
  split
  · exact (settleSending_cascade _ _).keeps_focus h
  · exact ((settleSending_cascade _ _).trans (dropItems_cascade _ _)).keeps_focus h

/-- Every change of a command keeps the FE's law. -/
theorem Act.keeps_focus {s t : State} (a : Act s t) (h : focusLaw s) : focusLaw t := by
  have ok := (focusLaw_iff s).mp h
  obtain ⟨zones, collect, lens, inFlight, params, tracking, lock, watch⟩ := (focusLaw_iff s).mp h
  cases a with
  | prim p => exact (Cascade.one p).keeps_focus h
  | feStart n => exact (focusLaw_iff _).mpr ⟨zones, noPackets_ok, lens, inFlight, params, tracking, lock, watch⟩
  | fePacket z p hp =>
    refine (focusLaw_iff _).mpr ⟨zones, ⟨by rw [← collect.1]; exact List.length_set, fun q hq => ?_⟩, lens, inFlight, params, tracking,
      lock, watch⟩
    rcases List.mem_or_eq_of_mem_set hq with hq | hq
    · exact collect.2 q hq
    · cases hq
      exact hp
  | feLatch n b => exact (focusLaw_iff _).mpr (ok.latch n b)
  | feReady l r n hl hr =>
    have idle : ({ s.fe with inFlight := none, overruns := n } : Fe).Ok :=
      ⟨zones, collect, lens, fun _ e => (by cases e), params, tracking, lock, watch⟩
    exact (focusLaw_iff _).mpr (idle.published fun x hx => (inFlight l hl).2.2 x (hr ▸ hx))
  | watchOff => exact (focusLaw_iff _).mpr ⟨zones, collect, lens, inFlight, params, tracking, lock, fun e => absurd rfl e⟩
  | watch w hw => exact (focusLaw_iff _).mpr ⟨zones, collect, lens, inFlight, params, tracking, lock, fun _ => hw⟩
  | zones zs hl hz =>
    exact (focusLaw_iff _).mpr ⟨⟨hl, hz⟩, collect, lens, inFlight, params, .cleared 0 (Nat.zero_le 15), lock, watch⟩
  | focusParams p hl he hm hn hd ht =>
    exact (focusLaw_iff _).mpr ⟨zones, collect, lens, inFlight, ⟨hl, he, hm, hn, hd, ht⟩, .cleared 0 (Nat.zero_le 15), lock, watch⟩
  | lensState l hl hp =>
    exact (focusLaw_iff _).mpr ⟨zones, collect, fun _ e => (by cases e; exact ⟨hl, hp⟩), inFlight, params, tracking, lock, watch⟩
  | lensDown => exact (focusLaw_iff _).mpr ok.detach
  | lensUp =>
    exact (focusLaw_iff _).mpr ⟨zones, collect, fun l e => ⟨(lens l e).1, rfl⟩, inFlight, params, tracking, lock, fun _ => rfl⟩
  | detach => exact detachSession_keeps_focus h
  | failed hd i hi =>
    exact itemFailed_keeps (P := focusLaw) (fun _ _ c => c.keeps_focus) (fun _ _ _ hs => hs) (fun _ _ hs => hs)
      (fun _ => suspendAutosend_keeps_focus) hi h
  | threshold v =>
    unfold takeThreshold
    dsimp only
    split
    · exact suspendAutosend_keeps_focus h
    · exact h
  | thermal d k =>
    exact sampleTaken_keeps (P := focusLaw) (fun _ _ c => c.keeps_focus) (fun _ _ hs => hs) (fun _ _ hs => hs) d k h
  | reset => exact (focusLaw_iff _).mpr (Fe.reset_ok s.fe.lensPresent)
  | _ => exact h

/-- Settles O58: a step is a chain of changes, and each keeps the FE's law (`Act.keeps_focus`). -/
theorem focusKeepsItsLaw : Obligations.FocusKeepsItsLaw := by
  intro s t h hl
  obtain rfl | ⟨rest, changes⟩ := step_acts h
  · exact hl
  · exact changes.keeps (fun _ _ a => a.keeps_focus) (hl.congr rfl)

end Sys2Proof.Machine
end

section
/-! SUPPORT. The FE's requests of the body port (R71, R89, R93) and of the lens port (R73, R100, R101), and the lens-present line (R104). -/

namespace Sys2Proof.Machine

/-! ## SET_ZONES and SET_FOCUS (R71, R89, R93) -/

/-- A zone entry as SET_ZONES takes it (R71). -/
def zoneTaken (z : ZoneOps) : Zone :=
  { active := z.active == 1, contrastFloor := min 262143 z.contrast.toNat, confidenceFloor := min 4095 z.confidence.toNat }

theorem readZone_none {z : ZoneOps} (h : 1 < z.active.toNat) : readZone z = none := by
  rw [readZone, readFlag_none h]
  rfl

theorem readZone_some {z : ZoneOps} (h : z.active.toNat ≤ 1) : readZone z = some (zoneTaken z) := by
  rw [readZone, readFlag_some h, clampNat_zero, clampNat_zero]
  rfl

theorem mapM_readZone_none {zs : List ZoneOps} (h : ∃ z ∈ zs, 1 < z.active.toNat) : zs.mapM readZone = none := by
  obtain ⟨z, hz, ha⟩ := h
  induction zs with
  | nil => cases hz
  | cons y ys ih =>
    rw [List.mapM_cons]
    rcases List.mem_cons.mp hz with rfl | hz
    · rw [readZone_none ha]
      rfl
    · rw [ih hz]
      cases readZone y <;> rfl

theorem mapM_readZone_some {zs : List ZoneOps} (h : ∀ z ∈ zs, z.active.toNat ≤ 1) : zs.mapM readZone = some (zs.map zoneTaken) := by
  induction zs with
  | nil => rfl
  | cons y ys ih =>
    rw [List.mapM_cons, readZone_some (h y List.mem_cons_self), ih fun z hz => h z (List.mem_cons_of_mem _ hz)]
    rfl

/-- A priority mode or a policy outside its values leaves no parameters to take (R89). -/
theorem readFocus_none {o : FocusOps} (h : 3 < o.priority.toNat ∨ 1 < o.policy.toNat) : readFocus o = none := by
  unfold readFocus
  split
  case _ mode policy hm hp =>
    rcases h with h | h
    · have unread : readFocusMode o.priority = none := by
        unfold readFocusMode
        iterate 4 rw [if_neg (by bv_omega)]
      cases hm.symm.trans unread
    · cases hp.symm.trans (readChoice_none h TravelPolicy.clamp .hold)
  · rfl

theorem readFocus_some {o : FocusOps} {mode : FocusMode} {policy : TravelPolicy} (hm : readFocusMode o.priority = some mode)
    (hp : readTravelPolicy o.policy = some policy) : readFocus o = some
      { mode := mode, far := min 16383 o.far.toNat, near := min 16383 o.near.toNat, eIn := min 32767 o.eIn.toNat,
        eOut := max (min 32767 o.eIn.toNat) (min 32767 o.eOut.toNat), m := max 1 (min 15 o.m.toNat), n := max 1 (min 15 o.n.toNat),
        lead := min 8 o.lead.toNat, policy := policy, trackLoss := max 1 (min 15 o.trackLoss.toNat) } := by
  rw [readFocus, hm, hp]
  simp only [clampNat_zero, clampNat_eq (show 1 ≤ 15 by decide)]

/-- Settles O26: what is read of the operands is taken, and the tracking is cleared. -/
theorem focusSettings : Obligations.FocusSettings := by
  refine ⟨fun h zs s hr => ?_, fun h o s hr => ?_⟩
  · rw [show exec (.setZones h zs) s = .next (ownSetZones h zs s) from exec_bodyRequest hr rfl rfl]
    refine ⟨fun bad => ?_, fun hl ok => ?_⟩
    · rw [ownSetZones, mapM_readZone_none bad]
      rfl
    · have count : (zs.map zoneTaken).length = Config.zones := (List.length_map _).trans hl
      rw [ownSetZones, mapM_readZone_some ok]
      dsimp only
      rw [if_pos count]
      rfl
  · rw [show exec (.setFocus h o) s = .next (ownSetFocus h o s) from exec_bodyRequest hr rfl rfl]
    refine ⟨fun bad => ?_, fun mode policy hm hp => ?_⟩
    · rw [ownSetFocus, readFocus_none bad]
      rfl
    · rw [ownSetFocus, readFocus_some hm hp]
      rfl

/-! ## The lens port (R73, R100, R101) -/

/-- The lens state as LENS_STATE takes it (R73). -/
theorem readLens_eq (o : LensOps) (moving : Bool) : readLens o moving =
    { position := min 16383 o.position.toNat, kc := max 1 o.kc.toNat,
      travelMin := min (min 16383 o.travelMin.toNat) (min 16383 o.travelMax.toNat),
      travelMax := max (min 16383 o.travelMin.toNat) (min 16383 o.travelMax.toNat), moving := moving } := by
  have kc : (if o.kc = 0 then 1 else o.kc.toNat) = max 1 o.kc.toNat := by
    split <;> bv_omega
  unfold readLens
  simp only [clampNat_zero, kc]

section
variable {h : Header} {s : State}

theorem ownLensState_refused {o : LensOps} (hm : 1 < o.moving.toNat) : ownLensState h o s = s.refused .lensState h .badRequest := by
  rw [ownLensState, readFlag_none hm]
  rfl

theorem ownLensState_flag {o : LensOps} (hm : o.moving.toNat ≤ 1) : ownLensState h o s =
    if s.fe.lensPresent = false then s.refused .lensState h .notReady
    else (s.updFe fun f => { f with lens := some (readLens o (o.moving = 1)) }).answered .lensState h [] := by
  rw [ownLensState, readFlag_some hm]
  simp only [Bool.not_eq_true']
  rfl

theorem ownWatch_refused {mode : Byte} (hm : 1 < mode.toNat) : ownWatch h mode s = s.refused .watch h .badRequest := by
  rw [ownWatch, show readWatch mode = none from readChoice_none hm _ _]
  rfl

theorem ownWatch_mode {mode : Byte} (hm : mode.toNat ≤ 1) : ownWatch h mode s =
    if s.fe.lensPresent = false then s.refused .watch h .notReady
    else (s.updFe fun f => { f with watch := if mode = 0 then .snapshot else .continuous }).answered .watch h [] := by
  rw [ownWatch, show readWatch mode = _ from readChoice_some hm _ _]
  simp only [Bool.not_eq_true']
  rfl

end

/-- Settles O31: the owners' cases, and the events of the line as they stand. -/
theorem lensPort : Obligations.LensPort := by
  refine ⟨fun h o s hr => ?_, fun h mode s hr => ?_, fun h s hr => exec_bodyRequest hr rfl rfl, fun _ => rfl, fun _ => rfl⟩
  · rw [show exec (.lensState h o) s = .next (ownLensState h o s) from exec_bodyRequest hr rfl rfl]
    refine ⟨fun hm => congrArg _ (ownLensState_refused hm), fun hm hp => ?_, fun hm hp => ?_⟩ <;> rw [ownLensState_flag hm]
    · rw [if_pos hp]
    · rw [if_neg (by rw [hp]; decide), readLens_eq]
      rfl
  · rw [show exec (.watch h mode) s = .next (ownWatch h mode s) from exec_bodyRequest hr rfl rfl]
    refine ⟨fun hm => congrArg _ (ownWatch_refused hm), fun hm hp => ?_, fun hm hp => ?_⟩ <;> rw [ownWatch_mode hm]
    · rw [if_pos hp]
    · rw [if_neg (by rw [hp]; decide)]
      rfl

end Sys2Proof.Machine
end
